-- ==== Sys2Proof/Word.lean ====
section
/-! DEFINITION. Word.lean: the bit-vector widths of the manual (00 R6, R7) and nothing else. -/

namespace Sys2Proof

/-- One byte of a packet, a record or a frame (R6). -/
abbrev Byte := BitVec 8

/-- A 16-bit field. -/
abbrev Half := BitVec 16

/-- A 32-bit word: a parameter field (R61), a BAR0 register (R51), a short time (R324). -/
abbrev Word := BitVec 32

/-- A 64-bit field: the VALUE of a point (R78), a Hallmark (R74). -/
abbrev DWord := BitVec 64

end Sys2Proof
end

