-- ==== Sys2Proof/Syntax.lean ====
section
/-! DEFINITION. Syntax.lean: the 183 commands of spec/opcode_table.json, one constructor a row, with the operands their
rules need. The table gives no operand, so the operands are the model's (notes/assumptions/1.md); `t` is the instant, in
nanoseconds, at which the command happens. -/

namespace Sys2Proof

/-- The three transports of the command channel (02, "Transports"). -/
inductive Transport where
  | pcie | spi | udp
deriving DecidableEq, Repr

/-- Where a request comes from: its transport and, for UDP, the source address and port (R50). -/
structure Source where
  tr   : Transport
  ip   : Nat := 0
  port : Nat := 0
deriving DecidableEq, Repr

/-- A request that has passed the header CRC, the version and the payload CRC (R38, Table 2.1): its tag, the flag bits
[15:8] and [7:6] of bytes 2-3, its TARGET word and its payload. -/
structure Req where
  src     : Source
  tag     : BitVec 6
  flags   : Byte
  rsv     : BitVec 2 := 0
  target  : Word
  payload : List Byte
deriving DecidableEq, Repr

/-- What the module measures in a sub-tick: the cycles per second counted at each temperature site (R434) and the two feed
voltages in 10 mV (R402). -/
structure SubTickIn where
  siteHz : List Nat
  feedA  : Nat
  feedB  : Nat
deriving DecidableEq, Repr

/-- What the memories of the module met in the frame that ends at a tick: signal-image records in which bits have turned over,
each with the mask of its 16 bytes (R104), queues in whose second read pointer bits have turned over, each with their mask (R34),
Locket records whose slots have become uncorrectable, by sequence number (R472), and whether the configuration store takes no
write in the frame that begins (R73). -/
structure MemoryIn where
  struck  : List (Nat × Nat) := []
  pointers : List (Nat × Nat) := []
  records : List Nat := []
  noStore : Bool := false
deriving DecidableEq, Repr

/-- The HSR tag or redundancy control trailer of a received frame: the port's LAN is the port; the sequence number is the
sender's (R347, R348). -/
structure RedTag where
  seq : Nat
deriving DecidableEq, Repr

/-- A received Ethernet frame as the flows and the duplicate discard see it (R531, R347). `payload` begins after the
EtherType (CARRIER 0) or is the UDP payload (CARRIER 1). -/
structure EthFrame where
  dst     : Nat
  src     : Nat
  vlan    : Option Nat
  red     : Option RedTag
  udp     : Bool
  ipSrc   : Nat
  udpPort : Nat
  ethType : Nat
  payload : List Byte
  /-- The FCS was wrong. -/
  fcsBad  : Bool := false
  /-- The forwarding buffer of the other ring port had no room for it (R347). -/
  noBuffer : Bool := false
deriving DecidableEq, Repr

/-- A CAN frame on a bus (R356). -/
structure CanFrame where
  id   : Nat
  ide  : Bool
  fdf  : Bool
  brs  : Bool
  esi  : Bool
  data : List Byte
  remote : Bool := false
  /-- From its start-of-frame edge to the command, in ns (R356). -/
  sinceSof : Nat := 0
deriving DecidableEq, Repr

/-- How a transmission attempt ended (R359, R360). `ackError true` is an ACK error during whose passive error flag a
dominant bit was seen; an error is counted in TEC but for the stuff error that ISO 11898-1 excepts. -/
inductive CanEnd where
  | ok
  | ackError (dominant : Bool)
  | error (lec : Nat) (counted : Bool := true)
deriving DecidableEq, Repr

/-- A transmission attempt that has ended, and how long ago its start of frame was, ns (R356, R359). -/
structure CanAttempt where
  result : CanEnd
  sinceSof : Nat := 0
deriving DecidableEq, Repr

/-- A bus error met while receiving (ISO 11898-1 fault confinement, R360). -/
inductive CanRxError where
  | plain (lec : Nat)
  | severe (lec : Nat)
deriving DecidableEq, Repr

/-- A GNSS link frame: whether an 8b/10b code or disparity error was met, and bytes 2 to 1043 (Table 5.2). -/
structure LinkFrame where
  codeError : Bool
  bytes     : List Byte
deriving DecidableEq, Repr

/-- The PTP messages the module takes (R336 to R338). -/
inductive PtpMsg where
  | announce (gm : Nat) (priority1 cls acc variance priority2 : Nat) (timeSource : Nat) (steps : Nat) (utc : Option Int) (leap : Int)
  | sync (twoStep : Bool) (origin : Int) (corr : Int)
  | followUp (origin : Int) (corr : Int)
  | pdelayReq
  | pdelayResp (delay : Nat)
deriving DecidableEq, Repr

/-- A PTP message as it is received, with its domain number (R338). -/
structure PtpIn where
  domain : Nat
  msg : PtpMsg
deriving DecidableEq, Repr

/-- The PTP messages that leave on an interval (R336). -/
inductive PtpSend where
  | sync | announce | pdelayReq
deriving DecidableEq, Repr

/-- What the safety island reads in one tick: the level of each contact line; which output pins read above 5 V and
which at or above 15 V; which test-pulse sources (bit 0 A, bit 1 B) are in their current limit and which did not pull low
in their pulse (R411, R415, R419). -/
structure IslandIn where
  a        : BitVec 16
  b        : BitVec 16
  above5   : BitVec 16
  above15  : BitVec 16
  tpsLimit : BitVec 2 := 0
  tpsHigh  : BitVec 2 := 0
  ecc      : Option Word := none
deriving DecidableEq, Repr

/-- What a domain's scan test and restore gave (R447). -/
structure ScanResult where
  sigGot    : Word
  failChain : Half
  restoreOk : Bool
  micros    : Nat
deriving DecidableEq, Repr

/-- An access on the debug port (R489). -/
inductive DebugAccess where
  | read (addr : Nat)
  | write (addr : Nat) (value : Word)
  | halt
  | scan
deriving DecidableEq, Repr

/-- The commands, one constructor per row of spec/opcode_table.json, in the table's order. -/
inductive Instr where
  | frameTick (t : Nat) (m : MemoryIn)
  | ppsPulseEnd (t : Nat)
  | stepWaitExpiry (t : Nat)
  | subTick (t : Nat) (m : SubTickIn)
  | passOverrun (t : Nat) (firstLoop : Nat)
  | outputClampedLong (t : Nat) (loop : Nat)
  | releaseHoldExpiry (t : Nat) (island : Nat)
  | pmsFallback (t : Nat) (island : Nat)
  | feedInvalid (t : Nat) (feed : Nat) (volts : Nat)
  | feedValid (t : Nat) (feed : Nat) (volts : Nat)
  | fusionOutput (t : Nat) (late : Bool)
  | solveIterationComplete (t : Nat)
  | solveDeadline (t : Nat)
  | refinementWindowStart (t : Nat)
  | refinementWindowEnd (t : Nat)
  | joystickTimeout (t : Nat)
  | handoff (t : Nat) (readable : Bool)
  | commandQueueCutoff (t : Nat) (notQueued : BitVec 24)
  | launch (t : Nat) (served : Bool)
  | tailSlotEnd (t : Nat)
  | commitResultTimeout (t : Nat)
  | whatifComplete (t : Nat)
  | cycleOverdue (t : Nat)
  | resultStale (t : Nat) (group : Nat)
  | echo (t : Nat) (r : Req)
  | infoRead (t : Nat) (r : Req)
  | statusRead (t : Nat) (r : Req)
  | paramRead (t : Nat) (r : Req)
  | paramStage (t : Nat) (r : Req)
  | paramCommit (t : Nat) (r : Req)
  | paramDiscard (t : Nat) (r : Req)
  | hallmarkRead (t : Nat) (r : Req)
  | signalRead (t : Nat) (r : Req)
  | signalWrite (t : Nat) (r : Req)
  | signalNotify (t : Nat) (r : Req)
  | signalNotifyCancel (t : Nat) (r : Req)
  | flowOpen (t : Nat) (r : Req)
  | flowClose (t : Nat) (r : Req)
  | flowStatus (t : Nat) (r : Req)
  | modeSet (t : Nat) (r : Req)
  | targetSet (t : Nat) (r : Req)
  | joystickSet (t : Nat) (r : Req)
  | conseqRead (t : Nat) (r : Req)
  | gnssRawRead (t : Nat) (r : Req)
  | gnssCorrFeed (t : Nat) (r : Req)
  | stateRead (t : Nat) (r : Req)
  | solverRead (t : Nat) (r : Req)
  | solutionRead (t : Nat) (r : Req)
  | traceArm (t : Nat) (r : Req)
  | traceRead (t : Nat) (r : Req)
  | timeRead (t : Nat) (r : Req)
  | timeStep (t : Nat) (r : Req)
  | frameLaunch (t : Nat) (r : Req)
  | canSend (t : Nat) (r : Req)
  | canFetch (t : Nat) (r : Req)
  | canRecover (t : Nat) (r : Req)
  | roleRead (t : Nat) (r : Req)
  | roleRelease (t : Nat) (r : Req)
  | safetyRead (t : Nat) (r : Req)
  | eventRead (t : Nat) (r : Req)
  | eventMark (t : Nat) (r : Req)
  | eventErase (t : Nat) (r : Req)
  | thermalRead (t : Nat) (r : Req)
  | selftestRun (t : Nat) (r : Req)
  | selftestResult (t : Nat) (r : Req)
  | lifecycleRead (t : Nat) (r : Req)
  | lifecycleAdvance (t : Nat) (r : Req)
  | fwStage (t : Nat) (r : Req)
  | fwActivate (t : Nat) (r : Req)
  | flashEraseDone (t : Nat)
  | requestTimeout (t : Nat) (tag : BitVec 6)
  | stagingAbandoned (t : Nat)
  | spiWrite (t : Nat) (bytes : List Byte)
  | spiRead (t : Nat) (clocked : Nat)
  | spiStat (t : Nat)
  | udpDatagramReceived (t : Nat) (ip : Nat) (port : Nat) (iface : Nat) (dstPort : Nat) (bytes : List Byte)
  | keptReplyExpiry (t : Nat)
  | cmdProducerWrite (t : Nat) (value : Word) (slots : List (List Byte))
  | rplConsumerWrite (t : Nat) (value : Word)
  | ctrlEnable (t : Nat) (enable : Bool)
  | resetRings (t : Nat)
  | irqStatusClear (t : Nat) (mask : Word)
  | registerWrite (t : Nat) (offset : Nat) (value : Word)
  | pciePerst (t : Nat)
  | replyQueuedOnSpace (t : Nat)
  | queueIdle (t : Nat) (queue : Nat)
  | ethFrameReceived (t : Nat) (port : Nat) (f : EthFrame)
  | flowTimeout (t : Nat) (ctx : Nat)
  | flowBadAfter (t : Nat) (ctx : Nat)
  | ackFrameReceived (t : Nat) (port : Nat) (f : EthFrame)
  | ptpMessageReceived (t : Nat) (port : Nat) (m : PtpIn)
  | ptpMessageSend (t : Nat) (port : Nat) (k : PtpSend)
  | announceTimeout (t : Nat) (port : Nat)
  | ppsInEdge (t : Nat) (rising : Bool)
  | ref10Invalid (t : Nat)
  | launchQueueLaunch (t : Nat) (queue : Nat)
  | supervisionFrameSend (t : Nat)
  | ringOpen (t : Nat)
  | nodeForget (t : Nat)
  | portLinkChange (t : Nat) (port : Nat) (up : Bool)
  | bypassMismatch (t : Nat) (relay : Nat)
  | samplePortFrame (t : Nat) (port : Nat) (slots : List Word) (stalled : Bool)
  | resamplerNoCrossing (t : Nat) (u : Nat)
  | linkFrame (t : Nat) (link : Nat) (f : LinkFrame)
  | acquisitionPass (t : Nat)
  | trackingLossOfLock (t : Nat) (ant : Nat) (ch : Nat)
  | reacquisitionExpiry (t : Nat) (ant : Nat) (ch : Nat)
  | gnssSolutionComplete (t : Nat)
  | gnssSolutionDeadline (t : Nat)
  | correctionDatagram (t : Nat) (iface : Nat) (dstPort : Nat) (bytes : List Byte)
  | correctionsStale (t : Nat) (stream : Nat)
  | gnssStoreWrite (t : Nat)
  | refMaxgapExpiry (t : Nat) (slot : Nat)
  | conflictExpired (t : Nat) (cls : Nat)
  | conflictCleared (t : Nat) (cls : Nat)
  | referenceReadmit (t : Nat) (cls : Nat) (slot : Nat)
  | fusionSettled (t : Nat)
  | canFrameReceived (t : Nat) (ctrl : Nat) (f : CanFrame)
  | rxmapTimeout (t : Nat) (mapping : Nat)
  | canBufferLock (t : Nat) (ctrl : Nat) (buf : Nat)
  | canBufferRelease (t : Nat) (ctrl : Nat) (buf : Nat)
  | canLockTimeout (t : Nat) (ctrl : Nat) (buf : Nat)
  | canAttemptEnd (t : Nat) (ctrl : Nat) (buf : Nat) (r : CanAttempt)
  | canRecoveryComplete (t : Nat) (ctrl : Nat)
  | heartbeatReceived (t : Nat) (lane : Nat) (bytes : List Byte)
  | releaseReceived (t : Nat) (lane : Nat) (bytes : List Byte)
  | mirrorSegmentReceived (t : Nat) (lane : Nat) (bytes : List Byte)
  | commitReceived (t : Nat) (lane : Nat) (bytes : List Byte)
  | commitResultReceived (t : Nat) (lane : Nat) (bytes : List Byte)
  | configImageReceived (t : Nat) (lane : Nat) (bytes : List Byte)
  | flowStateReceived (t : Nat) (lane : Nat) (bytes : List Byte)
  | leaseExpiry (t : Nat)
  | fenceAck (t : Nat)
  | fenceAckTimeout (t : Nat)
  | ownInEdge (t : Nat)
  | ownInTimeout (t : Nat)
  | secondOwner (t : Nat)
  | partnerLost (t : Nat)
  | laneDown (t : Nat) (lane : Nat)
  | claimWaitExpiry (t : Nat)
  | orphanSolo (t : Nat)
  | returnHoldoffExpiry (t : Nat)
  | resyncRetry (t : Nat)
  | ownershipMismatch (t : Nat) (kind : Nat)
  | islandTick (t : Nat) (m : IslandIn)
  | discrepancyTimeout (t : Nat) (input : Nat)
  | lineFaultClear (t : Nat) (input : Nat)
  | resetInputHeld (t : Nat)
  | outputOvercurrent (t : Nat) (output : Nat)
  | outputReadbackFail (t : Nat) (output : Nat) (failedOn : Bool)
  | masterDisconnectTest (t : Nat) (md : Nat) (nodeLow : Bool)
  | islandWatchdogExpiry (t : Nat) (cause : Nat)
  | bezelRead (t : Nat) (word : Word)
  | diodeConversionComplete (t : Nat) (reading : Option Int)
  | diodeRecheck (t : Nat)
  | thermalReset (t : Nat)
  | thermalOffDiodeRead (t : Nat) (reading : Option Int)
  | rateAlertClear (t : Nat)
  | selftestComplete (t : Nat) (r : ScanResult)
  | autoSelftestDue (t : Nat)
  | faultEntryHandled (t : Nat)
  | faultHoldExpiry (t : Nat) (code : Nat) (source : Nat)
  | priorityLaneWrite (t : Nat)
  | lostRecord (t : Nat)
  | locketScrub (t : Nat) (bad : List Nat)
  | opSecondsWrite (t : Nat)
  | powerUp (t : Nat) (bezel1 bezel2 : Word) (phyFaults : BitVec 4) (holdup : Nat) (diode : Option Int)
  | rstNAssert (t : Nat) (lowNs : Nat)
  | rstNRelease (t : Nat) (bezel1 bezel2 : Word) (diode : Option Int)
  | resetStuck (t : Nat) (bezel1 bezel2 : Word) (diode : Option Int)
  | resetObeyed (t : Nat)
  | supervisorWatchdog (t : Nat)
  | unitReady (t : Nat)
  | holdupExhausted (t : Nat)
  | vioOut (t : Nat) (bank : Nat) (mv : Nat)
  | vioRestored (t : Nat) (bank : Nat)
  | oscWarm (t : Nat) (secs : Nat)
  | oscFault (t : Nat) (kind : Nat) (ppb : Int)
  | dramEccError (t : Nat) (addr : Word) (uncorrectable : Bool)
  | canReceiveError (t : Nat) (ctrl : Nat) (e : CanRxError)
  | ref10Valid (t : Nat)
  | refinedModelStoreWrite (t : Nat)
  | debugPortAccess (t : Nat) (a : DebugAccess)
deriving DecidableEq, Repr

end Sys2Proof
end

