-- ==== Sys2Proof/Decode.lean ====
section
/-! DEFINITION. Decode.lean: the commands that the table's bits spell: none, since no row of spec/opcode_table.json gives
bits (notes/assumptions/1.md). -/

namespace Sys2Proof

/-- The command that a word spells: the table gives no row bits. -/
def decodeTableWord (_nbits _w : Nat) : Option Instr := none

end Sys2Proof
end

