-- ==== Sys2Proof/Config.lean ====
section
/-! DEFINITION. Config.lean: what one implementation fixes and the manual leaves open: uninterpreted constants with no
body, so that no proof can lean on a value (notes/assumptions/11.md to 20.md, 35.md, 36.md, 42.md). A constant applied to the free-value
counter `Dev.free` is a fresh value at each use. -/

namespace Sys2Proof.Config

open Sys2Proof

/-- The factory's value of an F field (R62): table and position. -/
opaque factoryField : Nat → Nat → Word

/-- The unit is supplied as IBT-5120-W and not as IBT-5120-S (Table 0.2). Nothing else differs between the codes (R5). -/
opaque wide : Bool

/-- FW_VERSION of the firmware image that a fresh module runs (Table 2.10). -/
opaque fwVersion : Word

/-- ECDSA P-256 verification with the Olumonte key in the boot ROM: digest and signature (R485, R490). -/
opaque ecdsaOk : List Byte → List Byte → Bool

/-- A fresh challenge (R485). -/
opaque challenge : Nat → DWord

/-- The factory signature of a self-test domain (R447). -/
opaque signature : Nat → Word

/-- The partner's own result of a FLOW_OPEN or FLOW_CLOSE that is applied to it (R102): 0000h where it succeeds. -/
opaque partnerFlow : Nat → BitVec 16

/-- The offsetScaledLogVariance this clock announces (R338). -/
opaque ptpVariance : Nat

/-- The offset of device time from GNSS time at a latch, ns (R158, R329). -/
opaque gnssTheta : Nat → Int

/-- The rate that the frequency of REF10_IN shows, in units of 2^−48 (R330). -/
opaque ref10Rate : Nat → Int

/-- REC after a reception while it stood above 127: ISO 11898-1 allows 119 to 127 (R360). -/
opaque canRec : Nat

/-- The IPv4 source address of a publish flow under CARRIER 1, which the manual gives no field for (R97). -/
opaque ownIp : Nat

/-- A plant measurement or shed that R299 to R309 leave without a value: too little history, or nothing to divide by. -/
opaque plantOpen : Nat → Int

/-- What the ranging engine finds in the band streams: a detection, navigation data, what a solution finds in its measurements
(R144 to R157). -/
opaque gnss : Nat → Nat

/-- What a tracking channel measures of its signal, by the number of the draw and the parameters its loops run with (R148,
R149): loop order and bandwidths, integration, spacing and aiding. -/
opaque channel : Nat → List Int → Nat

/-- The innovations of the GNSS measurements in level 1 (R181). -/
opaque fusion : Nat → Nat

/-- What the solver array gives where the manual leaves it no number: a solution to shift where there is none, a factor whose
pivot is 0, a share of nothing (R224, R230, R219, R263). -/
opaque solver : Nat → Nat

/-- What a quotient by 0 gives, where the manual states no result (R188, R209, R214). -/
opaque quotient : Int → Int

/-- The power of two by which the array holds the cost of R210 smaller, so that its coefficients fit the formats: Uagus assigns
the formats and the manual gives no scale (R216). -/
opaque costHalvings : Nat

/-- The covariance that an estimator starts from, which the manual calls large or leaves open: by number (R201, R240). -/
opaque startVariance : Nat → Nat

/-- Integer bits above one of a fusion quantity's 32-bit format, by number: Uagus assigns the formats (R196). -/
opaque fusionBits : Nat → Nat

/-- A variance or spectral density of the estimator that the manual gives no figure for, 62 fraction bits, by number: GNSS
measurements (R181), the wave model's w (R189). -/
opaque fusionVariance : Nat → Nat

/-- Air density (0, kg/m³) and gravity (1, m/s²), which the manual takes as known, 62 fraction bits (R190, R176). -/
opaque nature : Nat → Nat

/-- Whether an RST_N low of 2 to 10 µs resets the module (R499). -/
opaque rstFree : Nat → Bool

/-- A word that the debug port reads (R489). -/
opaque debugWord : Nat → Word

end Sys2Proof.Config
end

