-- ==== Sys2Proof/Machine/Bits.lean ====
section
/-! DEFINITION. Machine/Bits.lean: bytes and words, sparse maps, checksums and the digest: the plain computations that the
blocks share (00 R6, R7; 02 R39, R74). Everything here is mendable. -/

namespace Sys2Proof.Machine.Bits

open Sys2Proof

/-! ### Numbers -/

/-- The signed value of a word (R7). -/
def int32 (w : Word) : Int := w.toInt

/-- A signed number as a 32-bit two's complement word (R7). -/
def word32 (i : Int) : Word := BitVec.ofInt 32 i

/-- The natural number of a signed number, 0 below 0. -/
def nat (i : Int) : Nat := i.toNat

/-- Saturation into `lo` to `hi`. -/
def clampI (lo hi i : Int) : Int := if i < lo then lo else if hi < i then hi else i

/-- Saturation of a count at `m`. -/
def sat (m n : Nat) : Nat := if m < n then m else n

/-- The absolute value. -/
def absI (i : Int) : Int := if i < 0 then -i else i

/-- Rounding to the nearest, ties to even, of n / d with d positive. -/
def roundEven (n : Int) (d : Nat) : Int :=
  let q := n / (d : Int)
  let r := n % (d : Int)
  if 2 * r < d then q else if (d : Int) < 2 * r then q + 1 else if q % 2 = 0 then q else q + 1

/-- Rounding to the nearest, ties up, of n / d with d positive. -/
def roundUp (n : Int) (d : Nat) : Int := (2 * n + d) / (2 * (d : Int))

/-- Rounding up of n / d with d positive. -/
def ceilDiv (n : Int) (d : Nat) : Int := -((-n) / (d : Int))

/-! ### Lists -/

/-- Element i, or `dflt` beyond the end. -/
def nth {α : Type} (l : List α) (i : Nat) (dflt : α) : α := l.getD i dflt

/-- The list with element i replaced; unchanged where there is no element i. -/
def setAt {α : Type} : List α → Nat → α → List α
  | [], _, _ => []
  | _ :: xs, 0, y => y :: xs
  | x :: xs, i + 1, y => x :: setAt xs i y

/-- The list with element i changed by f. -/
def modAt {α : Type} : List α → Nat → (α → α) → List α
  | [], _, _ => []
  | x :: xs, 0, f => f x :: xs
  | x :: xs, i + 1, f => x :: modAt xs i f

/-- The numbers 0 to n - 1, rising. -/
def upTo (n : Nat) : List Nat := List.range n

/-- The members of a bit mask of width n, rising. -/
def maskBits (n : Nat) (m : Nat) : List Nat := (upTo n).filter (fun i => m.testBit i)

/-- A mask with the bits of the list set. -/
def bitsOf (l : List Nat) : Nat := l.foldl (fun a i => a ||| (1 <<< i)) 0

/-- A Boolean as a number. -/
def b2n (b : Bool) : Nat := if b then 1 else 0

/-- The sum of a list. -/
def sumI (l : List Int) : Int := l.foldl (fun a b => a + b) 0

/-- The greatest element of a list, at least `d`. -/
def maxI (d : Int) (l : List Int) : Int := l.foldl (fun a b => if a < b then b else a) d

/-- Replaces the first element that `p` picks, or appends. -/
def putBy {α : Type} (p : α → Bool) (y : α) : List α → List α
  | [] => [y]
  | x :: xs => if p x then y :: xs else x :: putBy p y xs

/-! ### Sparse maps: keys strictly rising, no entry equal to its key's default -/

/-- The value at a key; `dflt` where the key is not listed. -/
def get {α : Type} (dflt : Nat → α) : List (Nat × α) → Nat → α
  | [], k => dflt k
  | (j, v) :: m, k => if j = k then v else if k < j then dflt k else get dflt m k

/-- Insertion before every greater key; the value is not the default. -/
def insert {α : Type} (k : Nat) (v : α) : List (Nat × α) → List (Nat × α)
  | [] => [(k, v)]
  | (j, w) :: m => if k < j then (k, v) :: (j, w) :: m else if j = k then (k, v) :: m else (j, w) :: insert k v m

/-- Removal of a key. -/
def erase {α : Type} (k : Nat) : List (Nat × α) → List (Nat × α)
  | [] => []
  | (j, w) :: m => if j = k then m else (j, w) :: erase k m

/-- A write keeps the canonical form: writing the default removes the entry. -/
def put {α : Type} [DecidableEq α] (dflt : Nat → α) (m : List (Nat × α)) (k : Nat) (v : α) : List (Nat × α) :=
  if v = dflt k then erase k m else insert k v m

/-- Every value changed; values that become the default leave the map. -/
def mapV {α : Type} [DecidableEq α] (dflt : Nat → α) (f : α → α) (m : List (Nat × α)) : List (Nat × α) :=
  (m.map (fun p => (p.1, f p.2))).filter (fun p => !(decide (p.2 = dflt p.1)))

/-- The canonical form. -/
def wfMap {α : Type} [DecidableEq α] (dflt : Nat → α) : List (Nat × α) → Bool
  | [] => true
  | [(k, v)] => !(decide (v = dflt k))
  | (k, v) :: (j, w) :: m => !(decide (v = dflt k)) && decide (k < j) && wfMap dflt ((j, w) :: m)

/-! ### Bytes (R6) -/

/-- n in `len` bytes, least significant first. -/
def le (len n : Nat) : List Byte :=
  match len with
  | 0 => []
  | k + 1 => BitVec.ofNat 8 n :: le k (n / 256)

/-- A signed number in `len` bytes, two's complement. -/
def leI (len : Nat) (i : Int) : List Byte := le len (i % ((2 ^ (8 * len) : Nat) : Int)).toNat

/-- The number that bytes spell, least significant first. -/
def fromLe : List Byte → Nat
  | [] => 0
  | b :: bs => b.toNat + 256 * fromLe bs

/-- The number of `len` bytes at an offset; missing bytes read 0. -/
def at' (bs : List Byte) (off len : Nat) : Nat := fromLe ((bs.drop off).take len)

/-- The signed number of `len` bytes at an offset. -/
def atI (bs : List Byte) (off len : Nat) : Int :=
  let n := at' bs off len
  if n < 2 ^ (8 * len - 1) then n else (n : Int) - (2 ^ (8 * len) : Nat)

/-- A 32-bit word of bytes at an offset. -/
def wordAt (bs : List Byte) (off : Nat) : Word := BitVec.ofNat 32 (at' bs off 4)

/-- One byte at an offset, as a number. -/
def byteAt (bs : List Byte) (off : Nat) : Nat := (bs.getD off 0).toNat

/-- n zero bytes. -/
def zeros (n : Nat) : List Byte := List.replicate n 0

/-- Padding with zeros to a multiple of 4. -/
def pad4 (bs : List Byte) : List Byte := bs ++ zeros ((4 - bs.length % 4) % 4)

/-- A list cut or padded with zeros to n bytes. -/
def fit (n : Nat) (bs : List Byte) : List Byte := bs.take n ++ zeros (n - bs.length)

/-- Pieces of n bytes, the last one shorter; `fuel` bounds their number. -/
def chunks (n : Nat) : Nat → List Byte → List (List Byte)
  | 0, _ => []
  | fuel + 1, bs => if bs.isEmpty then [] else bs.take n :: chunks n fuel (bs.drop n)

/-! ### CRC-32C (R39), CRC-24Q (RTCM 3), SHA-256 (R74) -/

/-- One bit of the reflected CRC-32C: polynomial 1EDC6F41h reflected. -/
def crcBit (c : Word) : Word := if c.getLsbD 0 then (c >>> 1) ^^^ 0x82F63B78#32 else c >>> 1

/-- One byte of CRC-32C. -/
def crcByte (c : Word) (b : Byte) : Word :=
  crcBit (crcBit (crcBit (crcBit (crcBit (crcBit (crcBit (crcBit (c ^^^ b.zeroExtend 32))))))))

/-- CRC-32C over bytes (R39). -/
def crc32c (bs : List Byte) : Word := (bs.foldl crcByte 0xFFFFFFFF#32) ^^^ 0xFFFFFFFF#32

/-- One bit of CRC-24Q, polynomial 1864CFBh. -/
def crc24Bit (c : BitVec 24) : BitVec 24 := if c.getMsbD 0 then (c <<< 1) ^^^ 0x864CFB#24 else c <<< 1

/-- One byte of CRC-24Q. -/
def crc24Byte (c : BitVec 24) (b : Byte) : BitVec 24 :=
  crc24Bit (crc24Bit (crc24Bit (crc24Bit (crc24Bit (crc24Bit (crc24Bit (crc24Bit (c ^^^ (b.zeroExtend 24 <<< 16)))))))))

/-- CRC-24Q over bytes (RTCM 3 framing). -/
def crc24q (bs : List Byte) : BitVec 24 := bs.foldl crc24Byte 0

/-! ### The digest of R74, R485 and R490: SHA-256

Its constants are computed from what defines them: the fractions of the square roots of the first eight primes (the start)
and of the cube roots of the first 64 (one per round). A step looks at the last four words of two running sequences. -/

/-- The greatest r below 2^k bits above the r given with r^e at most n, bit by bit from above. -/
def rootFrom (e n : Nat) : Nat → Nat → Nat
  | 0, r => r
  | k + 1, r => rootFrom e n k (if (r + 2 ^ k) ^ e ≤ n then r + 2 ^ k else r)

/-- The first 32 bits of the fraction of the e-th root of p, p below 512. -/
def rootFraction (e p : Nat) : Word := BitVec.ofNat 32 (rootFrom e (p * 2 ^ (32 * e)) 38 0)

/-- The primes up to 311: no number below 19 squared is a product of greater ones than these seven. -/
def smallPrimes : List Nat :=
  let seven := [2, 3, 5, 7, 11, 13, 17]
  (upTo 312).filter (fun p => seven.contains p || (decide (1 < p) && seven.all (fun q => p % q != 0)))

/-- The exclusive or of three turns of a word to the right. -/
def turn3 (i j k : Nat) (w : Word) : Word := w.rotateRight i ^^^ w.rotateRight j ^^^ w.rotateRight k

/-- The exclusive or of two turns and a shift to the right: what the schedule mixes in. -/
def mix (i j k : Nat) (w : Word) : Word := w.rotateRight i ^^^ w.rotateRight j ^^^ (w >>> k)

/-- The last four words of each of the two running sequences, newest first. -/
structure Digest where
  up   : List Word
  down : List Word
deriving DecidableEq, Repr

/-- Word i of a list. -/
def wordOf (l : List Word) (i : Nat) : Word := l.getD i 0

/-- One step with what it takes in: its constant and its word of the schedule together. -/
def Digest.step (s : Digest) (x : Word) : Digest :=
  let p := wordOf s.up
  let q := wordOf s.down
  let pick := q 2 ^^^ (q 0 &&& (q 1 ^^^ q 2))
  let most := (p 0 &&& p 1) ||| (p 2 &&& (p 0 ||| p 1))
  let t := q 3 + turn3 6 11 25 (q 0) + pick + x
  { up := (t + turn3 2 13 22 (p 0) + most) :: s.up.take 3, down := (p 3 + t) :: s.down.take 3 }

/-- The steps of one block: each takes the oldest of the last sixteen words of the schedule, which grows by one. -/
def Digest.steps : List Word → List Word → Digest → Digest
  | [], _, s => s
  | k :: ks, w, s =>
    let next := wordOf w 0 + mix 7 18 3 (wordOf w 1) + wordOf w 9 + mix 17 19 10 (wordOf w 14)
    Digest.steps ks (w.drop 1 ++ [next]) (s.step (wordOf w 0 + k))

/-- A number in `len` bytes, most significant first. -/
def be (len n : Nat) : List Byte := (le len n).reverse

/-- The words of a list of bytes, each most significant byte first. -/
def bigWords (n : Nat) (bs : List Byte) : List Word := (chunks 4 n bs).map (fun b => BitVec.ofNat 32 (fromLe b.reverse))

/-- One block of 64 bytes. -/
def Digest.block (s : Digest) (bs : List Byte) : Digest :=
  let t := Digest.steps (smallPrimes.map (rootFraction 3)) (bigWords 16 bs) s
  { up := List.zipWith (fun x y => x + y) s.up t.up, down := List.zipWith (fun x y => x + y) s.down t.down }

/-- The start: the square roots of the first four primes, then of the next four. -/
def Digest.start : Digest :=
  let r := (smallPrimes.take 8).map (rootFraction 2)
  { up := r.take 4, down := r.drop 4 }

/-- The digest of a list of bytes: a 1 bit, zeros and the length in bits fill the last block. -/
def sha256 (bs : List Byte) : List Byte :=
  let n := bs.length
  let msg := bs ++ [0x80#8] ++ zeros ((119 - n % 64) % 64) ++ be 8 (8 * n)
  let s := (chunks 64 (msg.length / 64) msg).foldl Digest.block Digest.start
  (s.up ++ s.down).flatMap (fun w => be 4 w.toNat)

/-! ### Short time (R324), roots, FLOAT32 -/

/-- The signed difference a - b of two short times (R324). -/
def shortDiff (a b : Word) : Int := (a - b).toInt

/-- a is later than b (R324). -/
def later (a b : Word) : Bool := decide (0 < shortDiff a b)

/-- The signed difference of two 32-bit frame or sequence numbers. -/
def diff32 (a b : Nat) : Int := (BitVec.ofNat 32 a - BitVec.ofNat 32 b).toInt

/-- Bit by bit from above: the greatest r with r * r at most n. -/
def isqrtGo (n : Nat) : Nat → Nat → Nat
  | 0, r => r
  | k + 1, r =>
    let c := r + 2 ^ k
    isqrtGo n k (if c * c ≤ n then c else r)

/-- The integer square root. -/
def isqrt (n : Nat) : Nat := isqrtGo n (Nat.log2 n / 2 + 1) 0

/-- Bit by bit from above: the greatest r with r * r * r at most n. -/
def icbrtGo (n : Nat) : Nat → Nat → Nat
  | 0, r => r
  | k + 1, r =>
    let c := r + 2 ^ k
    icbrtGo n k (if c * c * c ≤ n then c else r)

/-- The integer cube root. -/
def icbrt (n : Nat) : Nat := icbrtGo n (Nat.log2 n / 3 + 1) 0

/-- A FLOAT32 as a fraction (numerator, denominator); none where it is not finite. -/
def float32 (w : Word) : Option (Int × Nat) :=
  let e := (w >>> 23).toNat % 256
  let m := w.toNat % 0x800000
  let s : Int := if w.getLsbD 31 then -1 else 1
  if e = 255 then none
  else if e = 0 then some (s * m, 2 ^ 149)
  else if e < 150 then some (s * (m + 0x800000), 2 ^ (150 - e))
  else some (s * ((m + 0x800000) * 2 ^ (e - 150) : Nat), 1)

end Sys2Proof.Machine.Bits
end

