-- ==== Sys2Proof/Machine/Params.lean ====
section
/-! DEFINITION. Machine/Params.lean: the parameter tables' field maps (R61, R62): for a table and a position, the class,
the reset value and the field's own range. A position with no field is reserved. -/

namespace Sys2Proof.Machine.Params

open Sys2Proof Sys2Proof.Machine

/-- The class of a field (R62). -/
inductive Cls where
  | live | quiesce | sealed | factory
deriving DecidableEq, Repr

/-- A field of a table: class, reset value, own range (the reset value is always in it, R65). -/
structure Field where
  cls   : Cls
  reset : Word
  ok    : Word → Bool

/-- Unsigned range. -/
def rng (lo hi : Nat) (w : Word) : Bool := decide (lo ≤ w.toNat) && decide (w.toNat ≤ hi)

/-- Signed range. -/
def rngI (lo hi : Int) (w : Word) : Bool := decide (lo ≤ w.toInt) && decide (w.toInt ≤ hi)

/-- Only the bits of the mask may be set. -/
def within (m : Nat) (w : Word) : Bool := w.toNat &&& m == w.toNat

/-- Any value. -/
def any (_ : Word) : Bool := true

/-- Either zero or a range. -/
def zeroOr (lo hi : Nat) (w : Word) : Bool := w == 0 || rng lo hi w

/-- A live field. -/
def L (reset : Word) (ok : Word → Bool) : Option Field := some ⟨.live, reset, ok⟩
/-- A quiesce field. -/
def Q (reset : Word) (ok : Word → Bool) : Option Field := some ⟨.quiesce, reset, ok⟩
/-- A sealed field: reset value 0 in the Hallmark (R74, R427). -/
def S : Option Field := some ⟨.sealed, 0, any⟩
/-- A factory field: its value is the factory's, uninterpreted (notes/assumptions/12.md). -/
def F (table pos : Nat) : Option Field := some ⟨.factory, Config.factoryField table pos, any⟩

/-- Table DEVICE (01h): Tables 2.7 and 17.9. -/
def device (p : Nat) : Option Field :=
  if p = 0x20 || p = 0x21 then Q 1 (rng 0 1)
  else if p = 0x22 then Q 0 (rng 0 1)
  else if p = 0x23 then Q 49650 (rng 1024 65535)
  else if p = 0x24 then Q 3 (rng 1 3)
  else if 0x25 ≤ p && p ≤ 0x28 then L 0 any
  else if p = 0x29 then L 1000 (rng 100 5000)
  else if p = 0x2A then L 60 (rng 5 3600)
  else if 0x30 ≤ p && p ≤ 0x35 then F 0x01 p
  else if p = 0x40 then L 0 (rng 0 1)
  else if p = 0x41 then L 2 (rng 1 5)
  else none

/-- Table FRAME (02h): Table 1.3, with the ranges of R32. -/
def frame (p : Nat) : Option Field :=
  if p = 0x01 then L 14000 (fun w => rng 6000 15000 w && w.toNat % 100 == 0)
  else if p = 0x10 then L 2000 (zeroOr 10 10000000)
  else if p = 0x11 then L 10000 (zeroOr 10 10000000)
  else if p = 0x12 then L 50000 (zeroOr 10 10000000)
  else if p = 0x13 then L 20000 (zeroOr 10 10000000)
  else if p = 0x14 then L 10000 (zeroOr 10 10000000)
  else if p = 0x15 then L 20000 (zeroOr 10 10000000)
  else if p = 0x16 then L 0 (zeroOr 10 10000000)
  else if p = 0x17 then Q 20 (zeroOr 10 10000000)
  else none

/-- A port block of table NET: position within the block. -/
def netPort (o : Nat) : Option Field :=
  if o = 0 then L 0 (rng 0 1) else if o = 1 then Q 0 (rngI (-1000) 1000) else if o = 2 then L 0 any else none

/-- A destination group of table NET. -/
def netGroup (o : Nat) : Option Field :=
  if o = 0 then L 0 any else if o = 1 then L 0 (rng 0 0xFFFF)
  else if o = 2 then L 0xFFFF (rng 0 0xFFFF) else L 0 (rng 0 7)

/-- Table NET (20h): Table 11.9. -/
def net (p : Nat) : Option Field :=
  if p = 0x01 then L 0 (rng 0 65535)
  else if p = 0x02 then L 0 (rng 0 2)
  else if p = 0x03 then L 10 (rng 0 120)
  else if p = 0x04 then L 100 (rng 4 1000)
  else if p = 0x05 then L 1000 (rng 100 10000)
  else if p = 0x06 then L 200 (rng 10 100000)
  else if p = 0x07 then L 20 (rng 1 100000)
  else if p = 0x08 then L 1000 (rng 100 1000000)
  else if p = 0x09 then L 100 (rng 10 1000000)
  else if p = 0x0A then L 1 (rng 0 1)
  else if p = 0x0B then L 100 (rng 1 400)
  else if p = 0x0C || p = 0x0D || p = 0x0F then L 0 (rng 0 1)
  else if p = 0x0E then L 0 (rngI (-100000) 100000)
  else if p = 0x10 || p = 0x12 then L 1 (rng 0 1)
  else if p = 0x11 then L 0 (rng 0 127)
  else if p = 0x13 || p = 0x14 then L 128 (rng 0 255)
  else if p = 0x15 then L 0xFFFFFFFD (rngI (-4) 0)
  else if p = 0x16 then L 0 (rngI 0 2)
  else if p = 0x17 then L 3 (rng 2 10)
  else if p = 0x18 then L 0 (rngI (-3) 2)
  else if p = 0x19 then L 1 (rng 0 7)
  else if 0x20 ≤ p && p ≤ 0x3F then netPort (p % 8)
  else if p = 0x40 then Q 0 (rng 0 1)
  else if p = 0x41 then L 400 (rng 10 10000)
  else if p = 0x42 then L 60 (rng 1 600)
  else if p = 0x43 then L 2000 (rng 100 10000)
  else if p = 0x44 then L 0 (rng 0 255)
  else if 0x50 ≤ p && p ≤ 0x53 then L 0 (rng 0 3)
  else if p = 0x54 || p = 0x56 then L 2 (rng 0 3)
  else if p = 0x55 || p = 0x57 then L 3 (rng 0 3)
  else if 0x60 ≤ p && p ≤ 0x77 then L 0 (within 0x87)
  else if 0x80 ≤ p && p ≤ 0x9F then netGroup (p % 4)
  else none

/-- The block of one controller in table CAN. -/
def canCtrl (o : Nat) : Option Field :=
  if o = 0 then L 0 (rng 0 2)
  else if o = 1 then Q 1 (rng 0 1)
  else if o = 2 then Q 1 (rng 1 32)
  else if o = 3 then Q 127 (rng 2 256)
  else if o = 4 then Q 32 (rng 2 128)
  else if o = 5 then Q 32 (rng 1 128)
  else if o = 6 then Q 1 (rng 1 32)
  else if o = 7 then Q 29 (rng 1 32)
  else if o = 8 then Q 10 (rng 1 16)
  else if o = 9 then Q 10 (rng 1 16)
  else if o = 10 then Q 30 (rng 0 127)
  else if o = 11 then L 0 (rng 0 1)
  else if o = 12 then L 3 (rng 0 15)
  else none

/-- A receive mapping of table CAN. -/
def canMap (o : Nat) : Option Field :=
  if o = 0 then L 0 (fun w => w == 0 || decide (32 ≤ (w.toNat / 256) % 64))
  else if o = 1 then L 0 (fun w => w == 0 || rng 1 5 ((w >>> 8) &&& 7))
  else if o = 2 then L 0 (fun w => zeroOr 5632 6143 w || rng 16384 131071 w)
  else L 0 (zeroOr 2 10000)

/-- Table CAN (24h): Table 12.4. -/
def can (p : Nat) : Option Field :=
  if 0x20 ≤ p && p ≤ 0x11F then canCtrl (p % 32)
  else if 0x200 ≤ p && p ≤ 0x3FF then
    if p % 2 = 0 then L 0 any else L 0x1FFFFFFF (within 0x1FFFFFFF)
  else if 0x400 ≤ p && p ≤ 0x45F then
    if p % 4 = 0 then L 0 (within 0xFF) else if p % 4 = 3 then none else L 0 (within 0x3FFFFFFF)
  else if 0x800 ≤ p && p ≤ 0xBFF then canMap (p % 4)
  else none

/-- Table CLASP (28h): Table 13.9. -/
def clasp (p : Nat) : Option Field :=
  if 1 ≤ p && p ≤ 3 then S
  else if p = 4 then Q 1 (rng 0 1)
  else if p = 5 || p = 6 then L 1 (rng 0 1)
  else if p = 7 then L 1000 (rng 200 10000)
  else none

/-- Table THERMAL (30h): Table 15.10. -/
def thermal (p : Nat) : Option Field :=
  if p = 1 then L 10 (rng 1 100)
  else if p = 2 then L 60 (rng 10 600)
  else if p = 3 then L 10 (rng 1 600)
  else if p = 4 then L 0 (zeroOr 10 1440)
  else if p = 5 then L 1 (rng 0 1)
  else if 0x10 ≤ p && p ≤ 0x6F then (if p % 4 = 3 then none else F 0x30 p)
  else none

/-- Table LOCKET (34h): Table 16.6. -/
def locket (p : Nat) : Option Field :=
  if p = 1 then L 10 (rng 1 1000)
  else if p = 2 then L 20 (rng 1 255)
  else if p = 3 then L 90 (rng 50 99)
  else if 0x10 ≤ p && p ≤ 0x4F then
    if p % 2 = 0 then L 0 any
    else L 0 (fun w => w == 0 ||
      (rng 1 1000 (w &&& 0xFFFF) && rng 1 255 ((w >>> 16) &&& 0xFF) && w >>> 24 == 0))
  else none

/-- A port block of table PORTS (Table 4.7). -/
def portField (o : Nat) : Option Field :=
  if o = 0 then L 0 (rng 0 1) else if o = 1 then Q 2 (rng 0 3) else if o = 2 then Q 16 (rng 1 16)
  else if o = 3 then Q 1 (rng 0 1) else if o = 4 then Q 0 (rng 0 1) else if o = 5 then Q 0 (rng 0 1000000)
  else if o = 6 then L 8 (rng 2 64) else none

/-- Table PORTS (04h): Table 4.7. -/
def ports (p : Nat) : Option Field :=
  if p = 1 then L 0 (rng 0 1) else if p = 2 then Q 0 (rng 0 2)
  else if 0x10 ≤ p && p ≤ 0x10F then portField (p % 8) else none

/-- Table CHAINS (05h): Table 4.8. SHIFT is judged at validation (R135). -/
def chains (p : Nat) : Option Field :=
  if 0x100 ≤ p && p ≤ 0x17F then
    (if p % 8 = 0 then Q 0xFFFF (fun w => rng 0 511 w || w == 0xFFFF)
     else if p % 8 = 1 then Q (BitVec.ofNat 32 ((p - 0x100) / 8)) (rng 0 15)
     else if p % 8 = 2 then Q 60 (fun w => w == 50 || w == 60)
     else if p % 8 = 3 then L 0x06666666 (rng 0 0x7FFFFFFF) else none)
  else if 0x1000 ≤ p && p ≤ 0x11FF then Q 0 (rng 0 9)
  else if 0x1200 ≤ p && p ≤ 0x13FF then Q 0 any
  else none

/-- Table GNSS (08h): Table 5.13. ANT_CONFIG is judged at validation (R170). -/
def gnss (p : Nat) : Option Field :=
  if p = 1 then L 0 (rng 0 1) else if p = 2 then Q 2 (fun w => w == 2 || w == 4) else if p = 3 then Q 0x7FFF (within 0x7FFF)
  else if p = 4 then L 10 (rng 0 30) else if p = 5 then L 30 (rng 20 45) else if p = 6 then L 150 (rng 50 300)
  else if p = 7 then L 50 (rng 20 150) else if p = 8 then L 50 (rng 5 200) else if p = 9 then L 1 (rng 0 1)
  else if p = 0xA then L 30 (rng 15 100) else if p = 0xB then L 10 (rng 2 100) else if p = 0xC then L 10 (rng 1 60)
  else if p = 0xD then L 50 (rng 1 200) else if p = 0xE then L 1 (rng 0 1)
  else if 0x10 ≤ p && p ≤ 0x1F then
    (if p % 4 = 0 then L (if p = 0x10 then 0 else 0xFF) (fun w => w == 0 || w == 1 || w == 0xFF)
     else if p % 4 = 1 then L 0 (zeroOr 1024 65535) else if p % 4 = 2 then L 3 (rng 0 3)
     else L 0xFFFFFFFF (fun w => rng 0 4095 w || w == 0xFFFFFFFF))
  else if 0x20 ≤ p && p ≤ 0x2F then (if p % 4 = 3 then Q 0 (rng 0 100000) else Q 0 any)
  else if 0x30 ≤ p && p ≤ 0x3F then (if p % 4 = 3 then none else Q 0 (rngI (-2000) 2000))
  else none

/-- A reference block of table FUSION (Table 6.7). -/
def refField (o : Nat) : Option Field :=
  if o = 0 then Q 0 (rng 0 6) else if o = 1 then L 1 (rng 0 1) else if 2 ≤ o && o ≤ 8 then Q 0 any
  else if o = 9 || o = 10 then L 1000 (rng 1 1000000) else if o = 11 then L 1000 (rng 20 10000) else none

/-- Table FUSION (0Ch): Table 6.7. -/
def fusion (p : Nat) : Option Field :=
  if p = 1 then L 0 (rng 0 1) else if p = 2 then Q 0 (rngI (-900000000) 900000000)
  else if p = 3 then Q 0 (rngI (-1800000000) 1800000000) else if p = 4 then Q 0 (rngI (-100000) 100000)
  else if p = 5 then L 1 (rng 0 1) else if p = 6 then L 1382 (rng 500 3000) else if p = 7 then L 1083 (rng 300 2000)
  else if p = 8 then L 1627 (rng 500 3000) else if p = 9 then L 1382 (rng 500 3000) else if p = 0xA then L 30 (rng 5 300)
  else if p = 0xB then L 10 (rng 2 60) else if p = 0xC then L 5 (rng 1 50) else if p = 0xD then L 60 (rng 10 600)
  else if p = 0xE then Q 1 (rng 0 1) else if p = 0xF then L 500 (rng 10 5000) else if p = 0x10 then L 100 (rng 5 1000)
  else if 0x40 ≤ p && p ≤ 0x13F then refField (p % 16)
  else none

/-- Table VESSEL (10h): Table 7.13. -/
def vessel (p : Nat) : Option Field :=
  if 1 ≤ p && p ≤ 8 then Q 0 any else if p = 9 then L 0 (rng 0 1) else if p = 0xA then L 20 (rng 0 50)
  else if p = 0xB then L 40 (rng 0 80) else if p = 0xC then L 2 (rng 1 20) else if p = 0xD then L 100 any
  else if p = 0xE then L 10000 any else if 0x10 ≤ p && p ≤ 0x12 then Q 0 any
  else if (0x20 ≤ p && p ≤ 0x32) || (0x40 ≤ p && p ≤ 0x52) || (0x60 ≤ p && p ≤ 0x72) then Q 0 any
  else none

/-- A thruster block of table THRUSTERS (Table 7.14). -/
def thrField (o : Nat) : Option Field :=
  if o = 0 then Q 0 (rng 0 3) else if o = 1 || o = 2 then Q 0 any else if o = 3 then Q 0 (rng 0 30000)
  else if o = 4 then Q 100 (rng 0 100) else if o = 5 then Q 0 any else if o = 6 then Q 1 (rng 1 8)
  else if o = 7 then L 100 (rng 1 600) else if o = 8 then L 10 (rng 1 100)
  else if 9 ≤ o && o ≤ 0xC then L 0xFFFFFFFF (fun w => rng 0 35999 w || w == 0xFFFFFFFF)
  else if o = 0xD then L 100 (rng 1 10000)
  else if o = 0xE then Q 0 (fun w => w == 0 || rng 5632 6140 w || rng 16384 131068 w)
  else if o = 0xF then L 1 (rng 0 1) else none

/-- Table THRUSTERS (11h): Table 7.14. -/
def thrusters (p : Nat) : Option Field :=
  if p = 1 then L 3 (rng 1 10) else if 0x20 ≤ p && p ≤ 0x31F then thrField (p % 32) else none

/-- Table SOLVER (12h): Table 7.15. -/
def solver (p : Nat) : Option Field :=
  if p = 1 then Q 32 (rng 4 64) else if p = 2 then Q 10 (rng 1 50) else if p = 3 then L 400 (rng 10 1000)
  else if p = 4 || p = 5 then L 1000 (rng 1 100000) else if p = 6 then L 1024 (rng 16 65536)
  else if p = 7 then L 10 (rng 3 50) else if p = 8 then Q 64 (rng 8 512) else if p = 9 then Q 400 (rng 50 2000)
  else if p = 0xA then Q 200 (rng 20 2000) else if p = 0xB then Q 8 (rng 1 16) else if p = 0xC then Q 6 (rng 1 16)
  else if p = 0xD || p = 0xE then L 100 (rng 0 100000) else if p = 0xF || p = 0x10 then L 10 (rng 0 100000)
  else if p = 0x11 then L 50 (rng 0 100000) else if p = 0x12 then L 100000 (rng 1 10000000)
  else if p = 0x13 then L 1000 (rng 1 100000) else if 0x14 ≤ p && p ≤ 0x16 then L 0 any
  else if p = 0x17 then L 500 (rng 100 5000) else if p = 0x18 then L 20 (rng 1 300) else if p = 0x19 then L 50 (rng 1 1000)
  else if p = 0x1A || p = 0x1B then Q 0 any else none

/-- Table FAILGROUPS (13h): Table 8.2. -/
def failgroups (p : Nat) : Option Field :=
  if p = 1 then L 0 (rng 0 1) else if p = 2 then L 100 (rng 100 200) else if p = 3 then L 5000 (rng 500 50000)
  else if p = 4 then L 3000 (rng 500 30000) else if p = 5 then L 80 (rng 50 100) else if p = 6 then L 5 (rng 1 20)
  else if p = 7 then L 5 (rng 2 60) else if p = 8 then L 10 (rng 2 120) else if p = 9 then L 2 (rng 1 10)
  else if 0x10 ≤ p && p ≤ 0x3FF then
    (if p % 16 = 0 then L 0 (rng 0 1) else if p % 16 = 1 then Q 0 (within 0xFFFFFF)
     else if p % 16 = 2 then Q 0 (within 0xFF) else if p % 16 = 3 then L 1 (rng 1 2)
     else if p % 16 ≤ 0xB then L 0 (rng 0 1000000) else none)
  else none

/-- A source word of table LOOPS (Table 9.2). -/
def srcOk (sp : Bool) (w : Word) : Bool :=
  let k := w.toNat / 2 ^ 28
  if k = 0 then true
  else if k = 1 then sp && decide (w.toNat % 32 < 24)
  else if k = 2 then true
  else if k = 3 then true
  else k == 4

/-- A loop block of table LOOPS (Table 9.10). RATE is judged at validation (R294). -/
def loopField (o : Nat) : Option Field :=
  if o = 0 then L 0 (rng 0 1) else if o = 1 then Q 0 (srcOk true) else if o = 2 then Q 0 (srcOk false)
  else if o = 3 || o = 4 then Q 0 (within 0x3FFFFFFF) else if o = 5 then Q 1 any
  else if o = 6 then Q 0 (fun w => within 0x1F03FF w && decide (w.toNat / 65536 ≤ 16))
  else if o = 7 then Q 0 (within 0x3FF) else if o = 8 then Q 0 (within 0xFFFF)
  else if o = 9 then L 0 (rngI (-32768) 32767) else if o = 10 then L 0xFFFF8000 (rngI (-32768) 32767)
  else if o = 11 then L 0x7FFF (rngI (-32768) 32767) else if o = 12 then L 0 (rngI 0 32767)
  else if o = 13 then L 0 (rngI (-32768) 32767) else none

/-- A section block of table LOOPS. -/
def secField (o : Nat) : Option Field :=
  if o = 0 then L 0x4000 (rngI (-32768) 32767) else if o ≤ 4 then L 0 (rngI (-32768) 32767)
  else if o = 5 then Q 0 (rngI (-8) 7) else none

/-- Table LOOPS (18h): Table 9.10. -/
def loops (p : Nat) : Option Field :=
  if p = 1 then L 0 (rng 0 1)
  else if 0x40 ≤ p && p ≤ 0x57 then Q 0x00FFFFFF (within 0xFFFFFF)
  else if 0x800 ≤ p && p ≤ 0xBFF then
    (if p % 32 ≤ 16 then
      L (if p % 32 = 16 then 32767 else BitVec.ofInt 32 ((((p % 32 : Nat) : Int) - 8) * 4096)) (rngI (-32768) 32767)
     else none)
  else if 0x1000 ≤ p && p ≤ 0x1FFF then loopField (p % 16)
  else if 0x2000 ≤ p && p ≤ 0x3FFF then secField (p % 8)
  else none

/-- A section block of table PLANT (Table 10.5). -/
def plantSec (o : Nat) : Option Field :=
  if o = 0 then Q 0 (rng 0 1) else if o = 1 || o = 2 then Q 0xFF (fun w => rng 0 15 w || w == 0xFF)
  else if o = 3 || o = 4 then Q 0 any else if o = 5 then Q 0 (rngI (-18000) 18000) else if o = 6 then Q 0 any
  else if o = 7 then L 0 (rng 0 1000000) else none

/-- A tie, two sections 1 to 8 or unused. -/
def tieOk (w : Word) : Bool :=
  w == 0 || (within 0xFF w && rng 1 8 (w &&& 0xF) && rng 1 8 (w >>> 4))

/-- Table PLANT (1Ch): Table 10.5. -/
def plant (p : Nat) : Option Field :=
  if p = 1 then L 0 (rng 0 1) else if p = 2 then Q 60 (fun w => w == 50 || w == 60) else if p = 3 then L 300 (rng 50 3000)
  else if p = 4 then L 100 (rng 10 1000) else if p = 5 then L 9900 (rng 9000 10000) else if p = 6 then L 9600 (rng 8500 9950)
  else if p = 7 then L 9950 (rng 9000 10000) else if p = 8 then L 2000 (rng 100 60000) else if p = 9 then L 10 (rng 1 100)
  else if p = 0xA then L 20 (rng 0 100) else if p = 0xB then L 40 (rng 0 100) else if p = 0xC then L 328 (rng 1 3277)
  else if p = 0xD then L 10000 (rng 100 60000) else if p = 0xE then L 20 (rng 5 80) else if p = 0xF then Q 16 (rng 8 64)
  else if 0x20 ≤ p && p ≤ 0x9F then plantSec (p % 16)
  else if 0xA0 ≤ p && p ≤ 0xBF then
    (if p % 4 = 0 then Q 0 tieOk else if p % 4 = 1 then Q 0 any else none)
  else if 0x100 ≤ p && p ≤ 0x17F then
    (if p % 8 = 0 then Q 0 (rng 0 8) else if p % 8 ≤ 4 then Q 0 any else none)
  else if 0x200 ≤ p && p ≤ 0x25F then
    (if p % 4 = 0 then L 1 (rng 0 1) else if p % 4 = 1 then L 3 (rng 0 3) else if p % 4 = 2 then Q 0 any
     else L 0 (rng 0 50))
  else none

/-- Table SAFETY (2Ch): Table 14.5, every field sealed. -/
def safety (p : Nat) : Option Field := if 1 ≤ p && p ≤ 7 then S else none

/-- The tables' fields (Table 2.12): none where the position is reserved. -/
def fieldOf (t p : Nat) : Option Field :=
  if t = 0x01 then device p
  else if t = 0x02 then frame p
  else if t = 0x04 then ports p
  else if t = 0x05 then chains p
  else if t = 0x08 then gnss p
  else if t = 0x0C then fusion p
  else if t = 0x10 then vessel p
  else if t = 0x11 then thrusters p
  else if t = 0x12 then solver p
  else if t = 0x13 then failgroups p
  else if t = 0x18 then loops p
  else if t = 0x1C then plant p
  else if t = 0x20 then net p
  else if t = 0x24 then can p
  else if t = 0x28 then clasp p
  else if t = 0x2C then safety p
  else if t = 0x30 then thermal p
  else if t = 0x34 then locket p
  else none

/-- The tables in ascending ID, each with the last position that its field map names (R61). -/
def tables : List (Nat × Nat) :=
  [(0x01, 0x41), (0x02, 0x17), (0x04, 0x10F), (0x05, 0x13FF), (0x08, 0x3F), (0x0C, 0x13F), (0x10, 0x72), (0x11, 0x31F),
   (0x12, 0x1B), (0x13, 0x3FF), (0x18, 0x3FFF), (0x1C, 0x25F), (0x20, 0x9F), (0x24, 0xBFF), (0x28, 0x0F), (0x2C, 0x07),
   (0x30, 0x6F), (0x34, 0x4F)]

/-- The last position of a table; none where the table does not exist (R61). -/
def lastPos (t : Nat) : Option Nat := (tables.find? (fun x => x.1 == t)).map Prod.snd

/-- The reset value of a field; 0 at a reserved position. -/
def resetOf (t p : Nat) : Word := match fieldOf t p with | some f => f.reset | none => 0

/-- The reset value at a key 65536 × table + position. -/
def resetKey (k : Nat) : Word := resetOf (k / 65536) (k % 65536)

end Sys2Proof.Machine.Params
end

