-- ==== Sys2Proof/Machine/State.lean ====
section
/-! DEFINITION. Machine/State.lean: the state of the module, as plain data, one structure per block of the manual, and
its value right after reset. Every default value is the value right after reset at power-up; INVENTORY.md gives each
field's rule and the notes/assumptions row of every value the manual does not give. -/

namespace Sys2Proof.Machine

open Sys2Proof

/-! ### Common -/

/-- A sparse map in canonical form: keys strictly rising, no entry equal to the default of its key (the default is a
function of `Bits.get`). -/
abbrev SMap (α : Type) := List (Nat × α)

/-- The DP modes (R58). -/
inductive Mode where
  | idle | joystick | autoHeading | autoPosition | track
deriving DecidableEq, Repr

/-- The life-cycle states (R58, Table 17.1). -/
inductive Life where
  | factory | commission | service | maintain | returned | retired
deriving DecidableEq, Repr

/-- The roles (R58, Table 13.1). -/
inductive Role where
  | active | standby | solo | ineligible
deriving DecidableEq, Repr

/-- The time states (R328, Table 11.2; codes of Table 11.5 byte 21). -/
inductive TimeState where
  | unset | locked | slewing | holdover
deriving DecidableEq, Repr

/-- What leaves the module, newest first: the model's own log of its outputs (notes/assumptions/4.md). -/
inductive Out where
  /-- A reply written into the PCIe reply ring at an address of host memory (R52). -/
  | pcieReply (addr : Nat) (bytes : List Byte)
  /-- A slot of the command ring fetched from an address of host memory (R52). -/
  | pcieFetch (addr : Nat)
  /-- Bytes shifted out on SPI: the status byte, then what follows the turnaround bytes (R53, Table 2.6). -/
  | spi (bytes : List Byte)
  /-- A reply datagram (R50, R55). -/
  | udpReply (ip port : Nat) (bytes : List Byte)
  /-- A message on both Clasp lanes (R377). -/
  | lane (bytes : List Byte)
  /-- A frame sent without error on CANn_TX: its buffer, IDW and ESI bit, its data (R353, R359). -/
  | can (ctrl buf : Nat) (idw : Word) (esi : Bool) (data : List Byte)
  /-- A frame on Ethernet under a port code (R341): 0 ring, 1 PRP pair, 2 PORT_C, 3 PORT_D; on the first two with the
  sequence number of its HSR tag or its trailer. -/
  | eth (portCode : Nat) (seq : Option Nat) (bytes : List Byte)
  /-- A ring frame forwarded to the other ring port (R347). -/
  | forward (port : Nat) (f : EthFrame)
  /-- A PTP message sent on its interval, or forwarded on the ring with its correction (R336, R337). -/
  | ptp (port : Nat) (m : PtpMsg)
  /-- The one-step answer to a Pdelay_Req (Table 11.3). -/
  | ptpAnswer (port : Nat)
  /-- PPS_OUT changed (R334). -/
  | pps (high : Bool)
  /-- A flow context applied to the partner at the same tick (R102): opened with its payload, or closed with none. -/
  | partnerFlow (ctx : Nat) (payload : List Byte)
  /-- A host interrupt: MSI-X vector (R51). -/
  | irq (vector : Nat)
  /-- The read of a CAN receive-buffer word, of a BAR0 register or of the debug port. -/
  | word (value : Word)
  /-- The module held or released its own reset (Table 17.7 cause). -/
  | reset (cause : Nat)
deriving DecidableEq, Repr

/-- One queue of Table 1.4: its pointers in duplicate, its sticky overrun bit and its idle watch (R33 to R35). -/
structure QCtl where
  rd   : Nat := 0
  wr   : Nat := 0
  rd2  : Nat := 0
  wr2  : Nat := 0
  overrun : Bool := false
  lastRead : Nat := 0
  lastNonEmpty : Nat := 0
  noticed : Bool := false
deriving DecidableEq, Repr

/-! ### The frame (01) and time (11) -/

/-- The frame in progress (R9 to R11, R15, R28). -/
structure FrameSt where
  number   : Nat := 0
  /-- Device time of the tick. -/
  t0       : Nat := 0
  /-- Raw instant of the tick, on the sender's time line. -/
  rawT0    : Nat := 0
  isStep   : Bool := false
  /-- Device time of the next tick. -/
  nextTick : Nat := 20000000
  sub      : Nat := 0
  /-- Device time of the last sub-tick boundary. -/
  subAt    : Nat := 0
  /-- Which slots of Table 1.1 have acted in this frame (bits of `slotBit` in Thrust). -/
  slots    : BitVec 16 := 0
  /-- Consecutive overruns of the control-engine pass (R25). -/
  overruns : Nat := 0
  handoffFailed : Bool := false
  /-- Thrusters whose command is queued for this frame's launch. -/
  queued   : BitVec 24 := 0
  /-- This frame's records were built by the unit in control (R367). -/
  launched : Bool := false
  /-- A synchronising reset of every chain awaits the first sub-tick after a step (R29). -/
  syncDue  : Bool := false
  /-- Raw instant of the whole second of device time that lies inside a step frame (R322, R334). -/
  secondDue : Option Nat := none
deriving DecidableEq, Repr

/-- A TIME_STEP that waits for its tick (R332). -/
structure StepReq where
  tag   : BitVec 6
  /-- The step in ns; none: −θ of the source in use at the tick. -/
  step  : Option Int
  frame : Nat
  next  : Bool
  /-- It came after the instant by which it had to come for the next tick. -/
  closed : Bool := false
  /-- It can no longer reach its tick and goes at the next one, with LATE (R67). -/
  asap  : Bool := false
  /-- The frame number at whose tick its limit passes (Table 2.8). -/
  limit : Nat := 0
deriving DecidableEq, Repr

/-- What the best grandmaster announces (R338, Table 11.5). -/
structure Gm where
  identity : Nat
  priority1 : Nat
  cls : Nat
  acc : Nat
  variance : Nat
  priority2 : Nat
  timeSource : Nat
  steps : Nat
deriving DecidableEq, Repr

/-- The time base (R320 to R335). Instants named C are raw counter values. -/
structure TimeSt where
  /-- The sender's time line in ns: the raw counter before the reset is subtracted (the model's own, log 2). -/
  now     : Nat := 0
  /-- `now` at the release of reset: the counter C is `now - epoch` (R320). -/
  epoch   : Nat := 0
  /-- O in units of 2^-16 ns (R321). -/
  off     : Int := 0
  /-- ρ in units of 2^-48 (R321). -/
  rho     : Int := 0
  rhoF    : Int := 0
  rhoS    : Int := 0
  anchor  : Nat := 0
  state   : TimeState := .unset
  /-- SOURCE of Table 11.5: 0 none, 1 GNSS, 2 to 5 PTP on port 0 to 3. -/
  source  : Nat := 0
  converging : Bool := false
  theta   : Option Int := none
  /-- E in ns; none is unknown (R329). -/
  err     : Option Nat := none
  errAtHo : Option Nat := none
  hoSince : Nat := 0
  /-- HOLDOVER seconds spent with an aid valid, which HO_SPEC_AIDED counts (R330). -/
  hoAided : Nat := 0
  slewSince : Nat := 0
  hoLimitRaised : Bool := false
  offsetFarRaised : Bool := false
  aid     : BitVec 2 := 0
  stepWaitOver : Bool := false
  /-- The offsets of the counter from GNSS time at the last consecutive latches, newest first, at most 50 (Table 11.1;
  notes/assumptions/40.md). -/
  gnssOffs : List Int := []
  /-- Offsets of the counter at the last consecutive Syncs, newest first, at most 8 (Table 11.1; notes/assumptions/40.md). -/
  ptpOffs : List Int := []
  /-- Origin and arrival of those Syncs: the grandmaster's rate over the last 8 intervals (Table 11.2). -/
  ptpStamps : List (Int × Nat) := []
  /-- The TIME_STEPs that wait, in the order they started. -/
  steps : List StepReq := []
deriving DecidableEq, Repr

/-- UTC, PPS and the aids (R333 to R335). -/
structure PpsSt where
  utcOff   : Int := 0
  utcValid : Bool := false
  leap     : Int := 0
  /-- Device time, in s, at which the pending leap changes the offset. -/
  leapAt   : Nat := 0
  out      : Bool := false
  roseAt   : Nat := 0
  everRose : Bool := false
  inLast   : Option Nat := none
  /-- The last interval between edges within 1 s ± 10 µs, on the counter (R330). -/
  inLen    : Nat := 1000000000
  inValid  : Bool := false
  inBad    : Nat := 0
  ref10Valid : Bool := false
deriving DecidableEq, Repr

/-! ### The command channel (02) -/

/-- What requests complete in order on (R46). -/
inductive Resource where
  | staging | signal (i : Nat) | flow (c : Nat) | canCtrl (c : Nat) | launchQ (q : Nat)
  | deviceTime | role | lifeCycle | firmware
deriving DecidableEq, Repr

/-- The content of a final reply (Table 2.2). -/
structure Fin where
  status  : Half
  rarg    : Half := 0
  payload : List Byte := []
  late    : Bool := false
deriving DecidableEq, Repr

/-- An outstanding request (R44): in the command queue until it has started. -/
structure Pend where
  op       : Byte
  req      : Req
  started  : Bool := false
  accepted : Bool := false
  /-- A standing SIGNAL_NOTIFY whose ACCEPTED is queued (R46). -/
  standing : Bool := false
  resources : List Resource := []
  /-- Raw instant at which it ends TIMEOUT (R48). -/
  deadline : Option Nat := none
  /-- The members of a fan-out and their results so far (R75). -/
  members  : List (Nat × Option Half) := []
  /-- A final reply held behind an earlier request on the same resource (R46). -/
  done     : Option Fin := none
  /-- The final reply has been handed to the reply queue. -/
  replied  : Bool := false
deriving DecidableEq, Repr

/-- A reply in the reply queue. -/
structure Reply where
  src   : Source
  bytes : List Byte
  /-- The tag this reply releases once queued: FINAL = 1. -/
  final : Bool
  /-- Opcode, tag, header CRC and payload CRC of its request, for the replay store (R55). -/
  op    : Byte
  tag   : BitVec 6
  hcrc  : Word
  pcrc  : Word
deriving DecidableEq, Repr

/-- A kept UDP reply (R55). -/
structure Kept where
  reply   : Reply
  expires : Nat
deriving DecidableEq, Repr

/-- The PCIe BAR0 registers (Table 2.5) and the packets that lie in the command ring. -/
structure Pcie where
  enable  : Bool := false
  /-- RING_ERROR of the command ring, and of the reply ring: each stops its own ring alone (R52). -/
  cmdError : Bool := false
  rplError : Bool := false
  cmdBaseLo : Word := 0
  cmdBaseHi : Word := 0
  cmdSlots : Word := 0
  cmdProducer : Word := 0
  cmdConsumer : Word := 0
  rplBaseLo : Word := 0
  rplBaseHi : Word := 0
  rplSlots : Word := 0
  rplProducer : Word := 0
  rplConsumer : Word := 0
  irqStatus : BitVec 3 := 0
  irqMask : Word := 7
  /-- Packets the host has written and the module has not taken, oldest first. -/
  slots   : List (List Byte) := []
deriving DecidableEq, Repr

/-- The three transports (R50 to R55). -/
structure TransportSt where
  pcie : Pcie := {}
  spiAborted : Bool := false
  kept : List Kept := []
  /-- Counts of event 0205h by transport and cause, key 8 × transport + cause. -/
  errs : SMap Nat := []
deriving DecidableEq, Repr

/-- A staged change of the mirror log: table, position, value (none: discarded) and the frame whose mirror carried it. -/
structure StageMark where
  key   : Nat
  value : Option Word
  sent  : Option Nat := none
deriving DecidableEq, Repr

/-- A pending PARAM_COMMIT (R66 to R71). -/
structure Commit where
  tag    : BitVec 6
  frame  : Nat
  next   : Bool
  expect : DWord
  late   : Bool := false
  /-- Validated in this frame's window and due at the next tick. -/
  validated : Bool := false
  newMark : DWord := 0
  /-- The partner's member: none until it answers or times out; OK adds its bit (R71, R72). -/
  partner : Option Half := none
  /-- A partner had to answer. -/
  paired : Bool := false
deriving DecidableEq, Repr

/-- An applied commit whose final reply waits for the store write in the tail slot (R72). -/
structure Applied where
  tag    : BitVec 6
  frame  : Nat
  mark   : DWord
  late   : Bool
  paired : Bool
  partner : Option Half
deriving DecidableEq, Repr

/-- Configuration: the committed and the staged values of the fields (R61 to R74). A key is 65536 × table + position. -/
structure CfgSt where
  committed : SMap Word := []
  staged  : SMap Word := []
  owner   : Option Source := none
  lastUse : Nat := 0
  commit  : Option Commit := none
  applied : Option Applied := none
  /-- The Hallmark of the committed configuration (R74); at reset that of the reset values. -/
  hallmark : DWord := 0
  lastCommit : Nat := 0
  /-- Staged changes and discards that the partner's mirror has not confirmed (R71). -/
  marks   : List StageMark := []
  /-- The partner's staging copy, built from its mirror (R71). -/
  mirrored : SMap Word := []
  /-- A COMMIT of the partner validated here and due at this frame (R71). -/
  partnerCommit : Option Nat := none
deriving DecidableEq, Repr

/-- The command block. -/
structure CmdSt where
  tags   : List Pend := []
  replyQ : List Reply := []
  /-- Replies held until the reply queue has space (Table 1.4). -/
  held   : List Reply := []
  trans  : TransportSt := {}
  /-- The 60 queues of Table 1.4 by ID; unlisted: the reset value. -/
  queues : SMap QCtl := []
deriving DecidableEq, Repr

/-! ### Locket (16), faults and temperature (15) -/

/-- A Locket record but its sequence number (Table 16.1). -/
structure Rec where
  cal    : DWord
  opSec  : Nat
  cycles : Nat
  code   : Nat
  source : Nat
  sev    : Nat
  lflags : Byte
  data   : List Byte
deriving DecidableEq, Repr

/-- A stored record: its sequence number, and whether its slot is uncorrectable (R472). -/
structure Stored where
  seq : Nat
  entry : Rec
  corrupt : Bool := false
deriving DecidableEq, Repr

/-- The token bucket of one code (R465, R467). -/
structure Bucket where
  units : Nat
  suppressed : Nat := 0
  maxSev : Nat := 0
  /-- The record of the last suppressed occurrence. -/
  last : Option Rec := none
  firstAt : Nat := 0
  lastAt : Nat := 0
deriving DecidableEq, Repr

/-- The store in MRAM (R469 to R471). -/
structure LocketStore where
  records : List Stored := []
  firstHeld : Nat := 1
  committed : Nat := 0
  full : Bool := false
  reserveUsed : Nat := 0
  refused : Nat := 0
  nearFullRaised : Bool := false
  /-- Records whose slot has gone wrong in two bits and has not been read since (R472). -/
  struck : List Nat := []
deriving DecidableEq, Repr

/-- Locket outside MRAM. -/
structure LocketSt where
  front : List Rec := []
  /-- Eight entries (R464). -/
  lane  : List Rec := []
  /-- Buckets that differ from `base`, by code. -/
  buckets : List (Nat × Bucket) := []
  /-- Units of every bucket not listed, all under the default limit. -/
  base : Nat := 1000
  lostCount : Nat := 0
  lostFirst : Option Rec := none
  markers : Nat := 0
  /-- The idle notice asks for a commit in the next tail slot (Table 1.4). -/
  broughtForward : Bool := false
deriving DecidableEq, Repr

/-- An entry of the fault queue (R452, R456). -/
structure FaultEnt where
  code : Nat
  source : Nat
  sev : Nat
  count : Nat := 1
  /-- Raw instant of its last occurrence. -/
  seen : Nat := 0
deriving DecidableEq, Repr

/-- A standing fault of the active table (R454). -/
structure Standing where
  code : Nat
  source : Nat
  sev : Nat
  count : Nat
  last : Nat
deriving DecidableEq, Repr

/-- The fault manager (R452 to R456). The active table is oldest first. -/
structure FaultSt where
  queue  : List FaultEnt := []
  active : List Standing := []
  /-- Preempted entries with the next of their three steps: these are done at the next tick (R455). -/
  held   : List (FaultEnt × Nat) := []
  latch  : Nat := 0
  lost   : Nat := 0
  /-- Severities lost to a full table, with the raw instant each ends at (R454). -/
  lostSev : List (Nat × Nat) := []
deriving DecidableEq, Repr

/-- One temperature site (R434 to R437). Readings and T_k are in 1/16 °C. -/
structure Site where
  sum     : Int := 0
  count   : Nat := 0
  /-- T_k of the last 25 frames, newest first. -/
  hist    : List Int := []
  tk      : Int := 0
  /-- r_k in 1/256 °C/s. -/
  rk      : Int := 0
  last    : Option Int := none
  lastCycles : Nat := 0
  streak  : Nat := 0
  failed  : Option Nat := none
  failedAt : Nat := 0
  plausibleSince : Nat := 0
  /-- Sub-ticks since this site first read at least 125 °C, for two of them (R442). -/
  hotAgo  : Option Nat := none
deriving DecidableEq, Repr

/-- Why a diode conversion runs (R436). -/
inductive DiodeUse where
  | none | check | arbiter (site : Nat) (reading : Int) | selftest
deriving DecidableEq, Repr

/-- A self-test record (Table 15.6). -/
structure TestRec where
  result : Nat := 0
  runs : Nat := 0
  frame : Nat := 0
  duration : Nat := 0
  sigGot : Word := 0
  failChain : Half := 0xFFFF
  diode : Half := 0x8000
  life : Nat := 0
  role : Nat := 0
  passes : Nat := 0
  fails : Nat := 0
deriving DecidableEq, Repr

/-- A self-test asked for or running (R446, R447). -/
structure TestRun where
  domain : Nat
  frame : Nat
  tag : Option (BitVec 6)
  running : Bool := false
  done : Bool := false
deriving DecidableEq, Repr

/-- Temperature and self-test (R434 to R451). -/
structure HealthSt where
  sites : List Site := List.replicate 24 {}
  diode : Option Int := none
  diodeAt : Nat := 0
  diodeFailed : Bool := false
  diodeUse : DiodeUse := .none
  /-- A site that read at least 125 °C while another conversion ran: its own conversion follows (R442). -/
  arbNext : Option (Nat × Int) := none
  recheckAt : Nat := 0
  x : Nat := 0
  xTarget : Nat := 0
  xRate : Nat := 0
  xAbs : Nat := 0
  /-- Raw instant of the later of the last fall and the last equality (R439). -/
  xMark : Nat := 0
  xStart : Nat := 0
  xHigh : Nat := 0
  alert : Bool := false
  alertAt : Nat := 0
  /-- Raw instant since which r_max has stayed at or below 1.0 °C/s (R440). -/
  calmSince : Option Nat := none
  rMax : Int := 0
  tMax : Int := 0
  hotSite : Nat := 0xFF
  /-- THERMAL_READ as taken at the last tick (R457). -/
  record : List Byte := List.replicate 10 0 ++ [0xFF, 0, 0x00, 0x80, 0xFF, 0xFF] ++ List.replicate 112 0
  /-- A shutdown has been decided at this raw instant (R442). -/
  decided : Option Nat := none
  /-- SHUTDOWN_RESTART as it was when the shutdown was decided (R444). -/
  restartOk : Bool := false
  test : Option TestRun := none
  /-- Cause 6 stands for this many more ticks (R447). -/
  testHold : Nat := 0
  tests : List TestRec := List.replicate 5 {}
  autoNext : Nat := 0
  autoFrom : Nat := 0
  autoDue : Bool := false
deriving DecidableEq, Repr

/-! ### Clasp (13) -/

/-- The partner as its last heartbeat shows it (Table 13.3). -/
structure Beat where
  frame : Nat
  unit : Byte
  role : Nat
  hflags : Half
  worst : Nat
  mode : Nat
  nsCause : Nat
  leaseLeft : Nat
  mirrorAck : Nat
  hallmark : DWord
  serial : List Byte
deriving DecidableEq, Repr

/-- One Clasp lane (R381). -/
structure Lane where
  /-- A lane counts as up until three frames have passed without a heartbeat (R381; notes/assumptions/65.md). -/
  up : Bool := true
  /-- Consecutive frames with a valid heartbeat, and without one. -/
  good : Nat := 0
  bad : Nat := 0
  got : Bool := false
deriving DecidableEq, Repr

/-- A body being rebuilt from its parts (R380). -/
structure Body where
  typ : Nat
  frame : Nat
  seg : Nat
  parts : Nat
  got : List (Nat × List Byte)
deriving DecidableEq, Repr

/-- A release in progress: by R399 or by ROLE_RELEASE (R400). -/
inductive Releasing where
  | no
  /-- Due at t0+16 ms of this frame number. -/
  | due (frame : Nat) (tag : Option (BitVec 6))
  | given (tag : Option (BitVec 6))
deriving DecidableEq, Repr

/-- The Clasp block (R374 to R404). -/
structure ClaspSt where
  role    : Role := .ineligible
  roleSince : Nat := 0
  lease   : Bool := false
  /-- Raw instant at which the lease timer expires. -/
  leaseAt : Nat := 0
  ownOut  : Bool := false
  ownIn   : Bool := false
  ownEdges : Nat := 0
  ownEdgeAt : Nat := 0
  ownSince : Nat := 0
  /-- An expiry fence waits for its acknowledgement since this instant (R384). -/
  ackSince : Option Nat := none
  fenceAt : Nat := 0
  fenceCause : Nat := 0
  /-- RELEASE is repeated at every sub-tick until this raw instant (Table 13.2). -/
  releaseUntil : Option Nat := none
  released : Bool := false
  /-- Ticks since the fence, for R386; none outside a release. -/
  takeBack : Option Nat := none
  releasing : Releasing := .no
  returnSuspended : Bool := false
  /-- The partner has been seen to hold the lease since the ROLE_RELEASE (R400). -/
  suspSeen : Bool := false
  causes  : BitVec 16 := 0x0080
  /-- A commit failed here: cause 2 stands at least until a heartbeat of this frame or later (Table 13.5). -/
  failFrom : Option Nat := none
  /-- Ticks at which the unit has been NOT_SYNCED since it last was SYNCED, or since unit ready (0D06h). -/
  nsFrames : Nat := 0
  synced  : Bool := false
  goodMirrors : Nat := 0
  /-- Consecutive complete mirrors, whatever their HEAD carries (Table 13.5 causes 4 and 7). -/
  wholeMirrors : Nat := 0
  badMirrors : Nat := 0
  /-- A LEASE heartbeat, a complete mirror arrived in the present frame. -/
  leaseBeat : Bool := false
  mirrorDone : Bool := false
  mirrorMatch : Bool := false
  /-- The last mirror sent or completed (LAST_MIRROR), and the last one completed here (MIRROR_ACK, R389, R385(c)). -/
  lastMirror : Nat := 0xFFFFFFFF
  mirrorAck : Nat := 0xFFFFFFFF
  mirrorOpen : Bool := true
  bodies  : List Body := []
  /-- Complete bodies of the mirror of the frame: segment, body. -/
  segs    : List (Nat × List Byte) := []
  /-- A complete mirror that is applied at t0 of the next frame (R389). -/
  mirror  : Option (List (Nat × List Byte)) := none
  image   : List (Nat × List Byte) := []
  resync  : Nat := 0
  resyncAt : Nat := 0
  /-- Sender's side: parts still to send, as messages. -/
  imageOut : List (List Byte) := []
  partner : Option Beat := none
  beatAt  : Nat := 0
  leaseBeatAt : Nat := 0
  partnerHere : Bool := false
  /-- 0D09h has been raised and no heartbeat has come since (R381). -/
  absent : Bool := false
  /-- The last heartbeat carried this unit's own Hallmark of that moment (cause 1, R375; notes/assumptions/61.md). -/
  markSame : Bool := false
  releaseSeen : Bool := false
  lanes   : List Lane := [{}, {}]
  laneErrors : Nat := 0
  lastBeatFrame : Option Nat := none
  /-- The last frame taken of each message type but the mirror's and the image's (R377). -/
  taken   : List (Nat × Nat) := []
  /-- The last heartbeat carried another frame number than this unit's (cause 3). -/
  frameDiffers : Bool := false
  releaseCause : Nat := 0
  doneDue : Bool := false
  deferRaised : List Nat := []
  clashRaised : Bool := false
  claimWaitAt : Option Nat := none
  claimDue : Bool := false
  waiting : Bool := true
  holdoffFrom : Option Nat := none
  returnReq : Bool := false
  defer   : BitVec 8 := 0
  clash   : Bool := false
  secondSeen : Bool := false
  /-- 0D0Eh has been raised for the second owner that OWN_IN shows now (R387). -/
  twoOwners : Bool := false
  orphan  : Bool := false
  orphanDue : Bool := false
  /-- OWN_IN and heartbeats disagree: kind reported (R401). -/
  mismatch : BitVec 2 := 0
  cause9Suspended : Bool := false
  feeds   : BitVec 2 := 3
  feedA   : Nat := 0
  feedB   : Nat := 0
  /-- Both feeds failed (R403). -/
  onHoldup : Bool := false
deriving DecidableEq, Repr

/-! ### Life cycle and reset (17), hardware (18) -/

/-- One flash image as the module knows it (R490, Table 17.8). -/
structure FwImage where
  /-- Bytes written since the last erase, by offset; unlisted bytes read FFh (notes/assumptions/31.md). -/
  cells : List (Nat × Byte) := []
  /-- The maker's content, which no FW_STAGE has touched (notes/assumptions/31.md). -/
  factory : Bool := false
  state : Nat := 0
deriving DecidableEq, Repr

/-- A flash write in progress (R491). -/
structure Erase where
  /-- Its request, unless that has ended TIMEOUT. -/
  tag : Option (BitVec 6)
  image : Nat
  offset : Nat
  data : List Byte
deriving DecidableEq, Repr

/-- Life cycle, firmware, reset (R482 to R503). -/
structure LifeSt where
  advance : Option (BitVec 6 × Life) := none
  challenge : DWord := 0
  debug   : Nat := 0
  running : Nat := 0
  /-- The life-cycle state in force. -/
  state   : Life := .commission
  rolledBack : Bool := false
  /-- Chunks that wait for their sector's erase, oldest first (R491). -/
  erase   : List Erase := []
  /-- A firmware activation resets the module once its final reply has left (R492). -/
  activating : Option (BitVec 6) := none
  /-- A power-up or a trial start that has not reached unit ready (R493, R498). -/
  fromPower : Bool := false
  trialRun : Bool := false
  cause   : Nat := 0
  inReset : Bool := false
  /-- RST_N: the raw instant since which it is low, or high. -/
  rstLow  : Option Nat := none
  rstHigh : Option Nat := none
  stuck   : Bool := false
  stuckFrom : Nat := 0
  stuckMs : Nat := 0
  ready   : Bool := false
  readyUs : Nat := 0
  /-- RUN fields, CAN_MODE and PORT_EN take effect at the first tick after unit ready (R496). -/
  runDue  : Bool := false
  running496 : Bool := false
  noImage : Bool := false
  thermalOff : Bool := false
  restartOk : Bool := false
  coolCount : Nat := 0
  offSince : Nat := 0
  powered : Bool := true
  poweredAt : Nat := 0
  /-- OP_SECONDS as read at power-up (R463). -/
  opBase : Nat := 0
deriving DecidableEq, Repr

/-- Power, banks and oscillator (R510 to R523). -/
structure HwSt where
  /-- Banks 1 to 4 that are out, and the raw instants since which they are. -/
  vioOut  : BitVec 4 := 0
  vioSince : List Nat := [0, 0, 0, 0]
  /-- Hold-up at 46 W in 0.1 ms, as last measured (R512). -/
  holdup  : Nat := 120
  oscWarm : Bool := false
  phyFault : BitVec 4 := 0
  /-- GPIO0 to GPIO7; none: high impedance (R523). -/
  gpio    : Option Byte := none
  /-- The configuration store takes no write in this frame (R73). -/
  noStore : Bool := false
deriving DecidableEq, Repr

/-! ### Ethernet (11) and CAN (12) -/

/-- An entry of a launch queue (R341). -/
structure LaunchEnt where
  frame : List Byte
  /-- 64-bit device time of launch. -/
  due   : Nat
  port  : Nat
  tag   : Option (BitVec 6) := none
  thrusters : BitVec 24 := 0
  limit : Bool := false
deriving DecidableEq, Repr

/-- One Ethernet port (R336 to R340, Table 11.10). -/
structure PortSt where
  enabled : Bool := false
  link  : Bool := false
  rx    : Nat := 0
  tx    : Nat := 0
  errs  : Nat := 0
  drops : Nat := 0
  /-- IEEE 1588 portState. -/
  ptp   : Nat := 1
  delay : Option Int := none
  gm    : Option Gm := none
  annAt : Nat := 0
  /-- A two-step Sync that awaits its Follow_Up: its correction, and the counter at its arrival. -/
  pending : Option (Int × Nat) := none
  /-- Broadcast and multicast frames taken in a second of the raw counter (STORM_LIMIT, Table 11.9). -/
  stormAt : Nat := 0
  stormed : Nat := 0
deriving DecidableEq, Repr

/-- A duplicate-discard entry (R347): source, sequence number, when it was made. -/
structure Dup where
  src : Nat
  seq : Nat
  at0 : Nat
deriving DecidableEq, Repr

/-- Ethernet (R341 to R351). -/
structure NetSt where
  ports  : List PortSt := List.replicate 4 {}
  launch : List (List LaunchEnt) := List.replicate 8 []
  missed : List Nat := List.replicate 8 0
  hsr    : List Dup := []
  /-- The forwarding direction's table (R347). -/
  hsrFwd : List Dup := []
  prp    : List Dup := []
  nodes  : List (Nat × Nat) := []
  seqHsr : Nat := 0
  seqPrp : Nat := 0
  ringOpen : Bool := true
  openSince : Nat := 0
  supA   : Option Nat := none
  supB   : Option Nat := none
  dups   : Nat := 0
  overwrites : Nat := 0
  unoffered : Nat := 0
  relays : BitVec 2 := 0
  relayBad : BitVec 2 := 0
  /-- Confirmed by Ethernet acknowledgement in the present frame, and in the one before. -/
  ack    : BitVec 24 := 0
  ackPrev : BitVec 24 := 0
  refused : Nat := 0
  refusedPrev : Nat := 0
deriving DecidableEq, Repr

/-- The state of a buffer (Table 12.2 LEN [17:16]). -/
inductive BufState where
  | empty | pending | blocked | full
deriving DecidableEq, Repr

/-- A message buffer (Table 12.2). -/
structure CanBuf where
  idw   : Word := 0
  len   : Nat := 0
  esi   : Bool := false
  state : BufState := .empty
  attempts : Nat := 0
  stamp : Word := 0
  data  : List Byte := []
  retry : Nat := 0
  /-- Every attempt so far ended in an ACK error. -/
  ackOnly : Bool := true
  tag   : Option (BitVec 6) := none
  limit : Bool := false
  /-- Raw instant from which the message arbitrates (R359). -/
  from' : Nat := 0
  lock  : Option Nat := none
deriving DecidableEq, Repr

/-- A CAN_SEND message in a transmit queue. -/
structure CanTx where
  idw  : Word
  data : List Byte
  retry : Nat
  tag  : BitVec 6
deriving DecidableEq, Repr

/-- A received frame in a receive queue (R371). -/
structure CanRx where
  idw  : Word
  esi  : Bool
  held : Bool
  buf  : Nat
  stamp : Word
  data : List Byte
deriving DecidableEq, Repr

/-- The error state of a controller (R360, R363, R364). -/
inductive CanErr where
  | active | passive | busOff | recovering
deriving DecidableEq, Repr

/-- One CAN controller (R355 to R364). -/
structure CanCtrl where
  /-- 0 configuration, 1 normal, 2 listen-only: in force. -/
  mode : Nat := 0
  err  : CanErr := .active
  tec  : Nat := 0
  rxErr : Nat := 0
  lec  : Nat := 0
  bufs : SMap CanBuf := []
  txq  : List CanTx := []
  rxq  : List CanRx := []
  /-- The one-frame holding slot: buffer and frame. -/
  slot : Option CanRx := none
  dropped : Nat := 0
  remotes : Nat := 0
  unmatched : Nat := 0
  confirmed : BitVec 24 := 0
  confirmedPrev : BitVec 24 := 0
  offAt : Nat := 0
  recover : Option (BitVec 6) := none
  /-- RCRC of each thruster's record as last sent through this controller (R366). -/
  rcrcs : List Word := List.replicate 24 0
deriving DecidableEq, Repr

/-- A receive mapping at work (R369). -/
structure RxMapSt where
  last  : Nat := 0
  alive : Bool := false
  stale : Bool := false
  bad   : Bool := false
  short : Nat := 0
deriving DecidableEq, Repr

/-- The thruster records as last sent, and their confirmation (R346, R366, R367). -/
structure ThrSt where
  /-- The record built for this frame's launch (Table 9.6). -/
  built : List Byte := []
  frame : Nat := 0
  rcrc  : Word := 0
  sent  : Bool := false
  unconfirmed : Nat := 0
  good  : Nat := 0
  unavailable : Bool := false
deriving DecidableEq, Repr

/-- CAN (R353 to R372). -/
structure CanSt where
  ctrls : List CanCtrl := List.replicate 8 {}
  maps  : SMap RxMapSt := []
  thr   : List ThrSt := List.replicate 24 {}
deriving DecidableEq, Repr

/-! ### The signal image and flows (03) -/

/-- A point record (Table 3.1); the defaults are those of a record after reset. -/
structure Point where
  value : DWord := 0
  stamp : Word := 0
  quality : Byte := 3
  typ : Byte := 0
  source : Half := 0xF000
deriving DecidableEq, Repr

/-- A standing SIGNAL_NOTIFY (R90). -/
structure Watch where
  tag   : BitVec 6
  index : Nat
  cond  : Nat
  minInterval : Nat
  thr   : Word
  hyst  : Word
  armed : Bool := true
  /-- The point has been written since the last evaluation. -/
  wrote : Bool := false
  held  : Bool := false
  /-- Raw instant of the last notification. -/
  last  : Option Nat := none
  /-- The record at the last evaluation. -/
  seen  : Option Point := none
deriving DecidableEq, Repr

/-- The signal image (R78 to R90, R103, R104). -/
structure ImageSt where
  live : SMap Point := []
  snap : SMap Point := []
  /-- Records found uncorrectable that their owner has not written since (R104). -/
  bad  : List Nat := []
  /-- Bits that stand wrong in stored records and that nobody has found yet: a 128-bit mask by index (R104). -/
  struck : SMap Nat := []
  corrected : Nat := 0
  scrub : Nat := 0
  watches : List Watch := []
  /-- Indices marked for the mirror, rising (R103). -/
  marks : List Nat := []
  /-- What each mirror not yet acknowledged carried: frame, indices. -/
  carried : List (Nat × List Nat) := []
deriving DecidableEq, Repr

/-- One flow context (R91 to R99, Table 3.10). The payload is that of FLOW_OPEN (Table 3.7). -/
structure FlowCtx where
  state : Nat := 0
  payload : List Byte := []
  frames : Nat := 0
  gaps  : Nat := 0
  dups  : Nat := 0
  late  : Nat := 0
  errors : Nat := 0
  missed : Nat := 0
  lastSeq : Nat := 0
  /-- A frame has been accepted since opening: LAST_SEQ means something. -/
  hasSeq : Bool := false
  lastAt : Nat := 0
  openedAt : Nat := 0
  staleAt : Nat := 0
  outages : Nat := 0
  /-- Fragments accepted for the last 32 sequence numbers: sequence number, mask (R99). -/
  frags : List (Nat × Nat) := []
deriving DecidableEq, Repr

/-- The flows. -/
structure FlowSt where
  ctxs : SMap FlowCtx := []
  /-- Accepted FLOW_OPENs that wait for the tick: context, tag, payload. -/
  opening : List (Nat × BitVec 6 × List Byte) := []
  /-- FLOW_STATE of the partner: UP contexts and the frames since it came (R103). -/
  partnerUp : BitVec 256 := 0
  partnerAge : Nat := 3
deriving DecidableEq, Repr

/-! ### Acquisition (04) -/

/-- An input of a chain on its way to the stages (R108 to R113): the sub-tick boundary it is counted from, the index m of its
output instant base + m × T_in, the sample (none: missing), and its OVR bit. -/
structure ChainIn where
  base   : Nat
  m      : Int
  sample : Option Int
  ovr    : Bool
deriving DecidableEq, Repr

/-- One decimation chain (R112 to R122, R128, R129). -/
structure Chain where
  /-- Input values of each stage, newest first; missing ones are 0. -/
  stages : List (List Int) := []
  /-- The newest output, Q1.31, its instant s_out in device time, its quality. -/
  value : Int := 0
  outAt : Option Nat := none
  quality : Nat := 3
  /-- Outputs since the last synchronising reset, held at 64. -/
  outs  : Nat := 0
  /-- Outputs for which OVERRANGE and SUBSTITUTED still stand. -/
  ovrLeft : Nat := 0
  subLeft : Nat := 0
  /-- A mark waits for the next output. -/
  ovrIn : Bool := false
  subIn : Bool := false
  lastGood : Option Int := none
  /-- Inputs read from the FIFO whose output instant has not come, oldest first (R119, R129). -/
  waiting : List ChainIn := []
  missed : Nat := 0
  /-- Saturations of its stages and of its resampler (R117). -/
  sats : Nat := 0
  missRun : Nat := 0
  goodRun : Nat := 0
  down  : Bool := false
  downAt : Nat := 0
  /-- The RECOVERY reset is due (R114). -/
  resetDue : Bool := false
  /-- Device time of the last synchronising reset, s_r. -/
  resetAt : Nat := 0
  /-- As delivered at the last sub-tick: Q1.15 and quality (R122). -/
  q15   : Int := 0
  q15q  : Nat := 3
deriving DecidableEq, Repr

/-- The lock state of a resampler (R125, R126, R130). -/
inductive RsLock where
  | free | locked | unlocked
deriving DecidableEq, Repr

/-- A grid instant that a lock source has issued: position in 2^-32 of a 32 kHz sample, index k, quality, mHz. -/
structure GridPt where
  pos : Int
  k   : Nat
  quality : Nat
  mhz : Nat
deriving DecidableEq, Repr

/-- A resampled sample (R127): its instant in device time, k, value, quality, lock frequency. -/
structure RsOut where
  instant : Int
  k   : Nat
  value : Int
  quality : Nat
  mhz : Nat
deriving DecidableEq, Repr

/-- One resampler (R123 to R127, R130). Positions are device time in 2^-32 of a 32 kHz sample. -/
structure Rsmp where
  /-- Chain outputs with their qualities, newest first, at most 820. -/
  ys    : List (Int × Nat) := []
  /-- STAMP of the newest. -/
  stamp : Int := 0
  below : Bool := false
  cross : Option Int := none
  periods : List Int := []
  lock  : RsLock := .free
  settleTo : Option Int := none
  period : Int := 0
  anchor : Option Int := none
  k     : Nat := 0
  next  : Option Int := none
  grid  : List GridPt := []
  /-- Position of the last sample issued. -/
  issued : Option Int := none
  /-- Newest first, at most 600. -/
  samples : List RsOut := []
deriving DecidableEq, Repr

/-- The acquisition block. -/
structure AcqSt where
  running : Bool := false
  /-- Ports that run: acquisition on and PORT_EN = 1. -/
  ports   : BitVec 32 := 0
  chains  : SMap Chain := []
  rs      : List Rsmp := List.replicate 16 {}
  /-- A synchronising reset of every enabled chain is due: 2 TIME_STEP, 3 SELFTEST. -/
  due     : Nat := 0
  portDown : BitVec 32 := 0
  /-- The sample-port FIFOs 1Ch to 3Bh (R36), oldest first: slots of used chains in the order checked. A missing sample
  takes no place: it stands here only for its turn. -/
  fifos   : List (List (Nat × ChainIn)) := List.replicate 32 []
  /-- Ports that still complete the port frame in progress at a step tick (R131). -/
  finishing : BitVec 32 := 0
deriving DecidableEq, Repr

/-! ### The ranging engine (05) -/

/-- A sample link (R139 to R141): the samples, status and gain of its last frame; those of a bad frame are zeros (R140). -/
structure Link where
  up   : Bool := false
  bad  : Nat := 0
  good : Nat := 0
  badTotal : Nat := 0
  /-- The count that the next frame is checked against, less 1,024. -/
  last : Option Nat := none
  downAt : Nat := 0
  status : Byte := 0
  agc : Nat := 0
  samples : List Byte := []
deriving DecidableEq, Repr

/-- A channel as it is latched and read (R150, R152, Table 5.7). -/
structure Track where
  system : Nat := 0xFF
  sat  : Nat := 0
  signal : Nat := 0
  state : Nat := 0
  cn0  : Nat := 0
  gloK : Nat := 0xFF
  /-- Units 2^-24 m. -/
  range : Nat := 0
  /-- Signed accumulated phase, 2^-32 cycle, as a 64-bit word. -/
  carrier : Nat := 0
  doppler : Nat := 0
  lockTime : Nat := 0
deriving DecidableEq, Repr

/-- A tracking channel (R147 to R149): what it measures, and its loops. -/
structure Chan where
  now : Track := {}
  /-- Raw instant of the handover: FLL for 200 ms, then PLL (Table 5.5). -/
  handedAt : Nat := 0
  /-- Bit or secondary-code synchronisation, and the preamble of the navigation data (R143). -/
  sync : Bool := false
  preamble : Bool := false
  /-- Line-of-sight velocity that aids the carrier NCO, 2^-16 m/s; none without aiding (R149). -/
  aid : Option Int := none
  /-- Lock is lost since this raw instant: reacquisition runs. -/
  lostAt : Option Nat := none
deriving DecidableEq, Repr

/-- What the engine holds of a satellite (R142, R165, R167). -/
structure SatData where
  system : Nat
  sat : Nat
  almanac : Option Nat := none
  ephemeris : Option Nat := none
  healthy : Bool := true
  alert : Bool := false
  /-- Elevation and azimuth, 0.01°, as predicted at the last latch; none while it cannot be predicted. -/
  dir : Option (Int × Int) := none
deriving DecidableEq, Repr

/-- A search of the acquisition bank (R144, R145): cold, aided, or of handover size. -/
inductive SearchKind where
  | cold | aided | handover
deriving DecidableEq, Repr

/-- A search in the bank: the cells it still has to test, and whether it is the second dwell that verifies a detection. -/
structure SearchJob where
  ant : Nat
  system : Nat
  sat : Nat
  signal : Nat
  gloK : Nat := 0xFF
  kind : SearchKind
  cells : Nat
  verify : Bool := false
deriving DecidableEq, Repr

/-- A signal of a correction stream: system, satellite, signal code, lock-time indicator. -/
structure CorrCell where
  system : Nat
  sat : Nat
  signal : Nat
  lock : Nat
deriving DecidableEq, Repr

/-- A correction stream (R161 to R164). -/
structure Corr where
  buffer : List Byte := []
  station : Nat := 0xFFFFFFFF
  /-- Raw instant of the last 1005 or 1006, and the reference point it gave, ECEF in 0.1 mm. -/
  arpAt : Option Nat := none
  arp : Int × Int × Int := (0, 0, 0)
  /-- Raw instant of the newest accepted MSM epoch. -/
  epochAt : Option Nat := none
  stale : Bool := false
  /-- The signals of the newest messages, by system. -/
  cells : List CorrCell := []
  /-- The last 1007, 1008 and 1033 as received, and the words of the last 1230 (Table 5.10). -/
  descriptors : List (Nat × List Byte) := []
  gloBias : List Int := []
deriving DecidableEq, Repr

/-- A raw-output copy (R152). -/
structure RawCopy where
  frame : Nat := 0
  time : Nat := 0
  valid : Bool := false
  linksUp : BitVec 2 := 0
  tracks : SMap Track := []
deriving DecidableEq, Repr

/-- What the configuration store keeps of the ranging engine (R167). -/
structure GnssStore where
  sats : List SatData := []
  position : Option (Int × Int × Int) := none
deriving DecidableEq, Repr

/-- The solution of a latch (R154 to R157): positions in 2^-10 m, angles in degrees with 22 fraction bits, baselines in
2^-20 m. -/
structure GnssFix where
  positions : List (Int × Int × Int) := [(0, 0, 0), (0, 0, 0), (0, 0, 0), (0, 0, 0)]
  sigmas : List (Int × Int × Int) := [(0, 0, 0), (0, 0, 0), (0, 0, 0), (0, 0, 0)]
  pdop : Int := 0
  angles : Int × Int × Int := (0, 0, 0)
  angleSigmas : Int × Int × Int := (0, 0, 0)
  /-- Pitch and roll are given by the accepted baselines. -/
  pitchOk : Bool := false
  rollOk : Bool := false
  vectors : List (Int × Int × Int) := List.replicate 6 (0, 0, 0)
deriving DecidableEq, Repr

/-- The ranging engine. -/
structure GnssSt where
  running : Bool := false
  links : List Link := List.replicate 12 {}
  /-- For each antenna the latest link frames of its fit, newest first: instant of the first sample and its count (R141). -/
  fits : List (List (Int × Nat)) := [[], [], [], []]
  /-- Channel c of antenna a under key 96 a + c; unlisted: idle. -/
  chans : SMap Chan := []
  /-- The latch of the frame, with each antenna's sample count at t0 (2^-16 sample). -/
  latch : SMap Track := []
  counts : List (Option Int) := [none, none, none, none]
  latchFrame : Nat := 0
  /-- The solution of this frame's latch has not ended; it is done and its points are due at t0+2.0 ms (R153). -/
  solving : Bool := false
  solved : Bool := false
  /-- The two raw-output copies: the newest complete one, and the one before it (R151, R152). -/
  copy  : RawCopy := {}
  copyOld : RawCopy := {}
  sats : List SatData := []
  bank : List SearchJob := []
  /-- The raw instant before which the pass in progress does not end (R146). -/
  passDue : Nat := 0
  mode  : Nat := 0
  stream : Option Nat := none
  station : Nat := 0xFFFFFFFF
  attitude : Nat := 0
  baselines : List Nat := [0, 0, 0, 0, 0, 0]
  fix : GnssFix := {}
  /-- The fixed double-difference ambiguities: antenna, system, satellite, signal. -/
  ambiguities : List (Nat × Nat × Nat × Nat) := []
  /-- Receiver clock biases, system offsets, GLONASS biases per k and code biases per signal and antenna (R154). -/
  biases : List Int := List.replicate 81 0
  /-- Frames with the fix held, for SETTLING (R160). -/
  fixRun : Nat := 0
  attRun : Nat := 0
  antennas : BitVec 4 := 0
  antLost : BitVec 4 := 0
  /-- Antennas whose position of this frame is not issued, and the antenna dropped until the next fix (Table 5.11). -/
  antStale : BitVec 4 := 0
  dropped : Option Nat := none
  /-- Exclusions that stand: system, satellite, row of Table 5.11. -/
  excluded : List (Nat × Nat × Nat) := []
  streams : List Corr := List.replicate 4 {}
  preemptAt : List (Option Nat) := [none, none, none, none]
  storeAt : Nat := 0
  /-- The last position of an antenna, 2^-10 m, for the search mode (R144). -/
  position : Option (Int × Int × Int) := none
  /-- Carrier aiding is in force for this frame (R149). -/
  aiding : Bool := false
deriving DecidableEq, Repr

/-! ### Fusion (06). Numbers of the estimator have 62 fraction bits, in m, s, rad, t and kN -/

/-- The state of a reference (Table 6.6, slot r state). -/
inductive RefState where
  | off | unavailable | aligning | probation | admitted | rejected | conflictUsed | conflictUnused
deriving DecidableEq, Repr

/-- A reference: slots 0 to 15; 16 and 17 the internal GNSS reference as position and as heading (R174 to R177, R183 to
R187). -/
structure Ref where
  state : RefState := .off
  /-- STAMP of the last sample taken, its raw instant, and whether it was taken in this frame. -/
  last  : Option Word := none
  takenAt : Nat := 0
  fresh : Bool := false
  /-- The values of the last sample, and whether it was late (R192). -/
  sample : List Int := []
  late : Bool := false
  /-- The variance of the internal GNSS reference's sample (R181). -/
  var : List (List Int) := []
  /-- An inertial unit: its sums as last taken; the increments of this frame, the mean rates of the last interval and the part
  that extrapolation has applied ahead of the last sample, in body axes (R176). -/
  sums : Option (List Word) := none
  inc  : List Int := [0, 0, 0, 0, 0, 0]
  mean : List Int := [0, 0, 0, 0, 0, 0]
  ahead : List Int := [0, 0, 0, 0, 0, 0]
  /-- The interval of the last increment in ns. -/
  span : Int := 0
  aligned : Bool := false
  /-- Alignment offset north and east, m (R177). -/
  align : Int × Int := (0, 0)
  /-- The raw instant since which it is unavailable. -/
  goneAt : Nat := 0
  d     : Word := 0
  modelOk : Bool := false
  /-- Tests have passed continuously since this raw instant. -/
  passSince : Option Nat := none
  mult  : Nat := 1
  /-- Raw instants of late samples of the last 10 s, inserted and discarded. -/
  inserted : List Nat := []
  discarded : List Nat := []
  /-- Samples from the future, discarded and counted (R175). -/
  future : Nat := 0
deriving DecidableEq, Repr

/-- A conflict of two references (R185). -/
structure Conflict where
  used : Option Nat
  a : Nat
  b : Nat
  since : Nat
  agreeSince : Option Nat := none
  expired : Bool := false
deriving DecidableEq, Repr

/-- A class of Table 6.4: 0 position, 1 heading, 2 rate, 3 wind. -/
structure RefClass where
  fallback : Bool := false
  fallbackAt : Nat := 0
  conflict : Option Conflict := none
  /-- The references that the class goes on in this frame. -/
  active : List Nat := []
deriving DecidableEq, Repr

/-- The 20 values of Table 6.5 from NORTH to QS_N, in its order. -/
abbrev Record := List Word

/-- Level 3 at an instant: its state, and its covariance as UD factors: D, then U row by row (R172, R196). -/
structure Level3 where
  stamp : Word := 0
  x  : List Int := []
  ud : List Int := []
deriving DecidableEq, Repr

/-- A measurement as level 3 applies it: reference, class (0 position, 1 heading), instant, value and variance. -/
structure Meas where
  ref : Nat
  cls : Nat
  stamp : Word
  z : List Int
  v : List (List Int)
deriving DecidableEq, Repr

/-- What drives level 3 over a frame: the body force, whether b is frozen, the inertial yaw rate in place of r, and ω_p. -/
structure Drive where
  tau : List Int := [0, 0, 0]
  frozen : Bool := false
  yaw : Option Int := none
  omega : Int := 0
deriving DecidableEq, Repr

/-- A checkpoint of the replay window: level 3 at OT, what drove it there and the measurements applied, and the quasi-static
true wind of that frame (R193). -/
structure Checkpoint where
  state : Level3 := {}
  drive : Drive := {}
  meas : List Meas := []
  wind : List Int := [0, 0]
deriving DecidableEq, Repr

/-- Level 1 (R172, R176, R181): position and velocity north, east, down; heading, pitch, roll; for each of two units gyro
biases, accelerometer biases and yaw misalignment; the tropospheric delay. -/
structure Level1 where
  stamp : Option Word := none
  x  : List Int := List.replicate 24 0
  ud : List Int := []
  /-- Roll, pitch and yaw rates over the last frame. -/
  rates : List Int := [0, 0, 0]
  /-- Heading, pitch and roll of the fixed GNSS attitude of the last frame, and their rates over it (Table 6.4). -/
  gnssAtt : Option (List Int) := none
  gnssRates : List Int := [0, 0, 0]
deriving DecidableEq, Repr

/-- The fusion engine. -/
structure FusionSt where
  running : Bool := false
  initialised : Bool := false
  settled : Bool := false
  /-- Frames since initialisation, held at 250. -/
  frames : Nat := 0
  outTime : Nat := 0
  outFrame : Nat := 0
  sflags : BitVec 16 := 4
  posMode : Nat := 0
  hdgMode : Nat := 0
  record : Record := List.replicate 20 0
  used : Nat := 0
  rejected : Nat := 0
  refs : List Ref := List.replicate 18 {}
  classes : List RefClass := List.replicate 4 {}
  satRun : Nat := 0
  level1 : Level1 := {}
  /-- Level 3 at the last OT, and the 32 checkpoints of the replay window, newest first (R193). -/
  cur : Level3 := {}
  window : List Checkpoint := []
  mirrored : Bool := false
  /-- ω_p, n = 24: 0.8 rad/s at the start (R189). -/
  omega : Word := 13421773
  /-- Wave-frequency residuals north and east, one a second, newest first, at most 120 (R189). -/
  residuals : List (Int × Int) := []
  wave : List Word := [0, 0, 0]
  wind : List Word := [0, 0]
  /-- Wind force, environment force and their quasi-static values; the quasi-static true wind over the ground (R190). -/
  tauWind : List Int := [0, 0, 0]
  env : List Int := [0, 0, 0]
  qsEnv : List Int := [0, 0, 0]
  qsWind : Option (List Int) := none
  /-- Fused in this frame. -/
  done : Bool := false
deriving DecidableEq, Repr

/-! ### The solver (07) and the consequence analysis (08) -/

/-- The force of a thruster in one stage, normalised by FMAX, Q1.31; tunnel and shaft thrusters use `fx` alone. -/
structure Force where
  thr : Nat
  fx  : Int
  fy  : Int := 0
deriving DecidableEq, Repr

/-- One stage of a solution: forces by thruster, rising, slacks by section, rising, and the six state variables, Q1.31
(R208). -/
structure Stage where
  forces : List Force
  slacks : List (Nat × Int)
  state  : List Int := [0, 0, 0, 0, 0, 0]
deriving DecidableEq, Repr

/-- A solution as it warm starts the next (R224): its key, its thrusters, its stages, and z and y stage by stage: the rows of
Table 7.1 first, then the six dynamics equalities, with 31 fraction bits. -/
structure Plan where
  key : Word
  thrusters : BitVec 24
  sections : BitVec 8
  stages : List Stage
  z : List (List Int) := []
  y : List (List Int) := []
deriving DecidableEq, Repr

/-- A row of the problem (R211): its coefficients on the variables of its own stage and of the stage before, and its bounds;
none is an open side. Stored numbers with 31 fraction bits. -/
structure QpRow where
  own  : List Int
  prev : List Int
  lo : Option Int
  hi : Option Int
deriving DecidableEq, Repr

/-- The problem of one stage (R210, R211): the cost's block, its coupling to the stage before, the linear term (62 fraction
bits) and the rows. -/
structure QpStage where
  p : List (List Int)
  c : List (List Int)
  q : List Int
  rows : List QpRow
deriving DecidableEq, Repr

/-- The factor of one stage (R219): for each pivot its reciprocal square root and the column below it, and the coupling
block to the stage before. -/
structure FactorStage where
  cols : List (Int × List Int)
  link : List (List Int)
deriving DecidableEq, Repr

/-- A problem as SETUP leaves it: its stages, ρ × 1024 and the two formats of Table 7.15. -/
structure Problem where
  stages : List QpStage
  rho : Nat
  dual : Nat
  factor : Nat
  /-- The transition of stage N − 1 on its states and forces, and its constant part, with 62 fraction bits. -/
  endA : List (List Int) := []
  endC : List Int := []
deriving DecidableEq, Repr

/-- An iterate (R220): x, z and y by stage, and its residuals with 62 fraction bits. -/
structure Iterate where
  x : List (List Int)
  z : List (List Int)
  y : List (List Int)
  rp : Int := 0
  rd : Int := 0
deriving DecidableEq, Repr

/-- Saturations of a solve (R218): their number, and the phase and stage of the first. -/
structure SatCount where
  n : Nat := 0
  phase : Nat := 0
  stage : Nat := 0
deriving DecidableEq, Repr

/-- A set of targets (R234 to R236). Metres n = 30, degrees n = 32, course n = 22, m/s n = 24. -/
structure Target where
  north : Int := 0
  east : Int := 0
  heading : Int := 0
  course : Int := 0
  speed : Int := 0
  posValid : Bool := false
  hdgValid : Bool := false
  track : Bool := false
deriving DecidableEq, Repr

/-- The main solve in progress (R206, R222). -/
structure Solve where
  thrusters : BitVec 24
  sections : BitVec 8
  key : Word
  start : Nat
  n : Nat
  m : Nat
  stages : Nat
  /-- The projected start, F̄ (R227). -/
  base : List Stage
  problem : Problem
  /-- The factor, once FACTOR has run (R219). -/
  factor : Option (List FactorStage) := none
  /-- The start, then the latest complete iterate, and how many are complete. -/
  point : Iterate
  iter : Nat := 0
  sat : SatCount := {}
  flags : Nat := 0
  /-- Stage −1 (R214). -/
  delivered : List Force
  /-- P_avail,b, kW. -/
  power : List Nat
deriving DecidableEq, Repr

/-- The solution record of slot 0 (Tables 7.9 and 7.12, R246). -/
structure SolRec where
  frame : Nat := 0
  stage0 : Nat := 0
  outcome : Nat := 4
  start : Nat := 2
  mode : Nat := 0
  flags : Nat := 0
  key : Word := 0
  iter : Nat := 0
  sat : Nat := 0
  tset : BitVec 24 := 0
  phase : Nat := 0
  /-- Thruster entries T00 to T23: thrust, azimuth, Fx, Fy as in Table 7.9. -/
  thr : List (List Int) := List.replicate 24 [0, 0, 0, 0]
  /-- Section entries: demand and slack, kW. -/
  sect : List (Int × Int) := List.replicate 8 (0, 0)
  cycles : Nat := 0
  rp : Word := 0
  rd : Word := 0
  n : Nat := 0
  m : Nat := 0
  stages : Nat := 0
deriving DecidableEq, Repr

/-- A MODE_SET that waits or is in progress (R233). -/
structure ModeReq where
  mode : Mode
  tag : Option (BitVec 6)
  since : Nat
  /-- Applied at a tick: its first solve is awaited (R233). -/
  applied : Bool := false
deriving DecidableEq, Repr

/-- Refinement (R240 to R242): the refined values in 2^-16 of their units, in the order of R240. -/
structure RefineSt where
  values : List Int := List.replicate 8 0
  /-- Estimates formed in this frame's window, adopted at the next tick. -/
  next : Option (List Int) := none
  open' : Bool := false
  /-- Raw instants of the last 0709h of each parameter. -/
  raised : List (Option Nat) := List.replicate 8 none
  storeAt : Nat := 0
  /-- The covariance of the recursive least squares, 62 fraction bits; empty before its start (R240). -/
  cov : List (List Int) := []
  /-- The velocities of the two latest records, newest first, 62 fraction bits. -/
  vel : List (List Int) := []
deriving DecidableEq, Repr

/-- The solver's slot 0. -/
structure SolverSt where
  mode : Mode := .idle
  modeReq : Option ModeReq := none
  /-- The requested target, a TARGET_SET of this frame that the next tick takes up, and the target in force. -/
  wanted : Target := {}
  staged : Option Target := none
  force : Target := {}
  trackAt : Nat := 0
  /-- Stick demand in force and the one that takes effect at the next tick. -/
  stick : Int × Int × Int := (0, 0, 0)
  stickNext : Option (Int × Int × Int) := none
  joyAt : Nat := 0
  stickOut : Bool := false
  prev : Option Plan := none
  solve : Option Solve := none
  /-- What slot 0's SETUP of the frame found: the propagated position, heading and velocities (R206, 62 fraction bits) and
  the forces of stage −1 (R214), which the what-ifs of the frame share (R255). -/
  eta : List Int := [0, 0, 0]
  nu  : List Int := [0, 0, 0]
  before : List Force := []
  sol : SolRec := {}
  /-- Consecutive SHIFTED outcomes; and the SHIFTED frames of the standing fault 0704h, 0 where none stands (R231). -/
  shifted : Nat := 0
  shiftedRun : Nat := 0
  /-- The partner's solution of the frame before is the previous solution (R243). -/
  mirrored : Bool := false
  /-- Azimuth demands as last given, °, n = 22 (R232). -/
  azimuth : List Int := List.replicate 24 0
  /-- Demands in force: stage-0 forces of the last output. -/
  demand : List Force := []
  /-- Frames each section's slack has stayed above 1 % (R247). -/
  slackRun : List Nat := List.replicate 8 0
  /-- Available power per section as handed over at t0, kW (R307). -/
  avail : List Nat := List.replicate 8 0
  refine : RefineSt := {}
deriving DecidableEq, Repr

/-- The result of a group (R263 to R267, Table 8.3). Figures as in Table 8.4: % and m with 16 fraction bits, degrees
with 22. -/
structure ConseqRes where
  result : Nat := 0
  /-- Bits 0, 1 and 3 to 6 of RFLAGS. -/
  rflags : Nat := 0
  start : Nat := 2
  startFrame : Nat := 0
  stage0 : Nat := 0
  /-- Raw instants of t0 and of stage 0 of the start frame (R14, R266, R268). -/
  startRaw : Nat := 0
  iter : Nat := 0
  util : Int := 0
  pos : Int := 0
  hdg : Int := 0
  unbal : List Int := [0, 0, 0]
  worst : Nat := 0
deriving DecidableEq, Repr

/-- A what-if in progress, on the data of its start frame (R255, R259). -/
structure WhatIf where
  group : Nat
  startFrame : Nat
  stage0 : Nat
  mainKey : Word
  key : Word
  start : Nat
  thrusters : BitVec 24
  sections : BitVec 8
  /-- The reduced P_avail,b, kW. -/
  avail : List Nat
  /-- The environment force, 2^-8 kN and kN·m in hundredths. -/
  env : List Int
  /-- F_lim / FMAX of each thruster. -/
  limits : List Int
  /-- Tables VESSEL to FAILGROUPS and the thrusters' feedback points of the start frame, and the delivered forces of stage −1
  as magnitude and angle (R255, R259). -/
  params : SMap Word
  points : SMap Point
  before : List (Nat × Int × Int)
  /-- The projected start. -/
  base : List Stage
  n : Nat
  m : Nat
  startRaw : Nat
  problem : Problem
  point : Iterate
  /-- ITER_MAX, EPS_PRIMAL and EPS_DUAL of the start frame. -/
  most : Nat
  epsP : Nat
  epsD : Nat
  sat : SatCount := {}
  /-- Array cycles done in earlier windows (R258). -/
  progress : Nat := 0
deriving DecidableEq, Repr

/-- A group's standing (R264 to R266). -/
structure Group where
  res : ConseqRes := {}
  /-- A completed result that waits for the tail slot, with the main key of its start frame (R267). -/
  ready : Option (ConseqRes × Word) := none
  bad : Nat := 0
  good : Nat := 0
  alarm : Bool := false
  alarmAt : Nat := 0
  stale : Bool := false
  prev : Option Plan := none
  sol : SolRec := {}
deriving DecidableEq, Repr

/-- The consequence analysis. -/
structure ConseqSt where
  /-- CONSEQ_EN as last applied, and whether results show BAD for want of it or in IDLE. -/
  enabled : Bool := false
  hidden : Bool := true
  groups : SMap Group := []
  active : Bool := false
  queue : List Nat := []
  /-- The groups of the cycle in progress. -/
  members : List Nat := []
  current : Option WhatIf := none
  /-- A window of R258 is open, the raw instant from which it gives cycles, the cycles it may give (R261) and those spent. -/
  window : Bool := false
  openAt : Nat := 0
  quota : Nat := 0
  spent : Nat := 0
  firstFrame : Nat := 0
  /-- The raw instant of the first frame's t0. -/
  firstRaw : Nat := 0
  overdue : Bool := false
  stretched : Bool := false
  cycles : Nat := 0
  lastDone : Nat := 0
  lastLen : Nat := 0
deriving DecidableEq, Repr

/-! ### The control engine (09) -/

/-- The states of a section (R272). -/
structure Sec where
  x1 : Int := 0
  x2 : Int := 0
  y1 : Int := 0
  y2 : Int := 0
deriving DecidableEq, Repr

/-- One loop (R274 to R284). -/
structure LoopSt where
  enabled : Bool := false
  /-- It has run since it was enabled. -/
  started : Bool := false
  hold  : Bool := false
  holdCode : Nat := 0
  holdAt : Nat := 0
  /-- The HOLD was entered in DP mode IDLE (R288). -/
  idleHold : Bool := false
  u     : Int := 0
  e     : Int := 0
  sp    : Int := 0
  fb    : Int := 0
  quality : Nat := 3
  bias  : Int := 0
  hiClamp : Bool := false
  loClamp : Bool := false
  clampRun : Nat := 0
  clampRaised : Bool := false
  satNow : Bool := false
  slewing : Bool := false
  ramping : Bool := false
  sats  : Nat := 0
  /-- The ramp (R277): its target, its start and the passes since the change. -/
  target : Int := 0
  from0 : Int := 0
  rampM : Nat := 0
  /-- Outputs by sub-tick serial number, newest first, at most 16 (R285). -/
  hist  : List (Nat × Int) := []
deriving DecidableEq, Repr

/-- The set-points of a thruster after the handoff (R24, R280): Q1.15 and quality. -/
structure SetPt where
  thrust : Int := 0
  az : Int := 0
  fx : Int := 0
  fy : Int := 0
  quality : Nat := 3
deriving DecidableEq, Repr

/-- What a pass changed of a loop, for an overrun (R25): its state and its sections before the pass. -/
structure LoopUndo where
  loop : Nat
  st   : LoopSt
  secs : List (Nat × Sec)
deriving DecidableEq, Repr

/-- A cause of a phase-back that holds at a boundary (Table 10.1): island, code, section. -/
structure PbCause where
  island : Nat
  code : Nat
  sect : Nat
deriving DecidableEq, Repr

/-- What the boundary s+0 found: causes, and the generators that opened. -/
structure PbSeen where
  causes : List PbCause := []
  opened : List Nat := []
deriving DecidableEq, Repr

/-- An event of a loop in the present pass: it is raised when the pass ends with that loop (R25). -/
structure LoopEvent where
  loop : Nat
  code : Nat
  sev  : Nat
  data : List Byte
deriving DecidableEq, Repr

/-- A pass in progress (Table 1.2): the raw instant s+0.25 ms at which its outputs are written, the loops that run in it, and
what the boundary found for the phase-back. -/
structure PassWait where
  due   : Nat
  loops : List Nat
  seen  : PbSeen
deriving DecidableEq, Repr

/-- The control engine. -/
structure EngineSt where
  running : Bool := false
  loops : SMap LoopSt := []
  secs  : SMap Sec := []
  setpoints : List SetPt := List.replicate 24 {}
  /-- Handed over at t0+15 ms, in force from the next sub-tick (R24). -/
  handed : Option (List SetPt) := none
  /-- The sub-tick serial number. -/
  serial : Nat := 0
  /-- The serial number of the first pass at or after the handoff (R285). -/
  cmdPass : Option Nat := none
  /-- What the present pass changed, for an overrun (R25), and whether it overran. -/
  undo  : List LoopUndo := []
  events : List LoopEvent := []
  pass  : Option PassWait := none
  /-- The fast launch slot of the present sub-tick: its raw instant s+0.5 ms and the thrusters that are due in it (R286). -/
  limits : Option (Nat × List Nat) := none
  overrun : Bool := false
deriving DecidableEq, Repr

/-- A trace probe (R290 to R292). -/
structure Probe where
  payload : List Byte := List.replicate 32 0
  state : Nat := 0
  flags : Nat := 0
  tag   : Option (BitVec 6) := none
  /-- Samples held, oldest first. -/
  samples : List Int := []
  preHeld : Nat := 0
  count : Nat := 0
  wasBelow : Bool := false
  wasAbove : Bool := false
  /-- The awaited event or the other probe's trigger has come (kinds 4 and 6). -/
  hit   : Bool := false
  trigFrame : Nat := 0
  trigTime : Nat := 0
  period : Nat := 0
deriving DecidableEq, Repr

/-! ### The plant (10) -/

/-- The class of a section (R297): the codes of Table 10.4. -/
inductive SecCls where
  | live | dead | unknown | settling
deriving DecidableEq, Repr

/-- A bus section (R296 to R302). Angles are in 2^-32 turn, frequencies in 2^-24 Hz. -/
structure Section where
  cls   : SecCls := .unknown
  deadAt : Nat := 0
  deadRaised : Bool := false
  /-- ψ and the instant τ in ns, newest first, at most 11 sub-ticks. -/
  psi   : List (Int × Int) := []
  /-- f, newest first, at most 21 sub-ticks. -/
  freq  : List Int := []
  /-- Sub-ticks of GOOD samples since a SETTLING class, held at 10. -/
  goodRun : Nat := 10
  rocof : Int := 0
  delta : Int := 0
  /-- RMS volts and amperes with 8 fraction bits, kW and kvar. -/
  vrms  : Int := 0
  irms  : Int := 0
  p     : Int := 0
  qv    : Int := 0
  hasI  : Bool := false
  quality : Nat := 3
  /-- The highest ranked quality of the current samples used (R302). -/
  curQ  : Nat := 3
  stamp : Int := 0
  island : Nat := 0
deriving DecidableEq, Repr

/-- A generator's power-management data (R303), in 0.001 kW: as held at the last tick, and as held now. -/
structure Gen where
  closed : Bool := false
  p     : Int := 0
  avail : Int := 0
  /-- The breaker, the power and the available power as last seen GOOD. -/
  brkNow : Bool := false
  pNow  : Int := 0
  availNow : Int := 0
  /-- At the last sub-tick boundary: the breaker read GOOD and closed; the available power as held while it was closed, which
  an opening leaves as it was before (R309, Table 10.1). -/
  brkSeen : Bool := false
  availSeen : Int := 0
  /-- Raw instants since which the breaker, power and available-power points have not been GOOD. -/
  bad   : List (Option Nat) := [none, none, none]
deriving DecidableEq, Repr

/-- The state of an island (R308): codes of Table 10.4. -/
inductive PbState where
  | normal | phaseBack | releasing
deriving DecidableEq, Repr

/-- An island, kept under the lowest index of its sections. Shed fractions are numerator and denominator. -/
structure PIsland where
  state : PbState := .normal
  members : BitVec 8 := 0
  step  : Nat × Nat := (0, 1)
  shed  : Nat × Nat := (0, 1)
  since : Nat := 0
  hold  : Option Nat := none
  cause : Nat := 0
  /-- H_I of the last tick as a fraction of 0.001 kW. -/
  avail : Int × Nat := (0, 1)
  fallback : Bool := false
deriving DecidableEq, Repr

/-- A thruster under the phase-back loop (R309 to R312). -/
structure PbThr where
  pb : Nat := 32767
  u  : Nat := 0
  /-- p_j at entry and now, 0.001 kW. -/
  entry : Int := 0
  p  : Int := 0
  /-- The LIMIT last carried (R311). -/
  carried : Nat := 32767
deriving DecidableEq, Repr

/-- The plant block. -/
structure PlantSt where
  running : Bool := false
  sections : List Section := List.replicate 8 {}
  gens : List Gen := List.replicate 16 {}
  islands : List PIsland := List.replicate 8 {}
  thr : List PbThr := List.replicate 24 {}
  formed : Bool := false
  /-- Points that hold a type R305 does not allow: 0 to 47 by generator and point, 64 + t ties, 96 + j power points. -/
  refused : List Nat := []
  /-- P_avail of each section as handed at the last tick, kW. -/
  avail : List Nat := List.replicate 8 0
deriving DecidableEq, Repr

/-! ### The safety island (14) -/

/-- The states of the island (R408). -/
inductive IslState where
  | starting | run | safe
deriving DecidableEq, Repr

/-- The state of an input (Table 14.7). -/
inductive InState where
  | released | demand | discrepancy | lineFault
deriving DecidableEq, Repr

/-- One contact of an input (R412, R414). -/
structure Contact where
  /-- Accepted in its demand state, else accepted released. -/
  demand : Bool := true
  /-- What the last usable sample read, in demand or not, and how many in a row. -/
  lastDem : Bool := true
  run   : Nat := 0
  /-- The last usable sample read closed. -/
  closed : Bool := false
  /-- Island tick at which the accepted state last changed. -/
  since : Nat := 0
  /-- Consecutive failed tests at its own source's pulses and at the other's. -/
  failOwn : Nat := 0
  failOther : Nat := 0
deriving DecidableEq, Repr

/-- One input (R410 to R414). -/
structure SafeIn where
  state : InState := .demand
  a : Contact := {}
  b : Contact := {}
  cause : Nat := 0
  /-- The judgement of R413 in progress: the tick of the first acceptance; toward demand, else toward released; and
  whether contact B led. -/
  judge : Option Nat := none
  toDemand : Bool := false
  ledB : Bool := false
  /-- Both contacts have been accepted in demand together since the fault (the clearing cycle of R413). -/
  cycled : Bool := false
  /-- Tests have passed since this tick; 1 s of it has been found (R414). -/
  passSince : Option Nat := none
  lineOk : Bool := false
  demands : Nat := 0
deriving DecidableEq, Repr

/-- The states of an output (Table 14.8). -/
inductive OutState where
  | off | on | waitReset | fault | deferred
deriving DecidableEq, Repr

/-- One output (R416 to R422). -/
structure SafeOut where
  state : OutState := .off
  permit : Bool := false
  pinHigh : Bool := false
  cause : Nat := 0
  offAt : Nat := 0
  /-- Ticks the pin has read above 5 V while off, and below 15 V while on (R419). -/
  highRun : Nat := 0
  lowRun : Nat := 0
  /-- Tick at which its test pulse began. -/
  pulseAt : Option Nat := none
  /-- The read-back of the pulse is discarded (Table 14.2). -/
  discard : Bool := false
  /-- In FAULT, its permit has been withdrawn since. -/
  withdrawn : Bool := false
  wasOn : Bool := false
deriving DecidableEq, Repr

/-- The island (R407 to R433). Times are island ticks of 250 µs since the start. -/
structure IslandSt where
  state : IslState := .starting
  tick  : Nat := 0
  /-- The word latched at power-up, and whether it is valid (R424). -/
  bezel : Word := 0
  bezelValid : Bool := false
  /-- The latest reading and the one before it (R425). -/
  bezelLive : Word := 0
  bezelPrev : Word := 0
  reported : Option Word := none
  sealChanged : Bool := false
  inputs : List SafeIn := List.replicate 16 {}
  outputs : List SafeOut := List.replicate 16 {}
  /-- A test-pulse source has failed; ticks it has been in its current limit (R415). -/
  tpsBad : BitVec 2 := 0
  tpsRun : List Nat := [0, 0]
  /-- A master disconnect opened by R419 stays open until a power cycle. -/
  mdLatched : BitVec 2 := 0
  /-- Tick of the last test since the start, and the tests that failed (R421). -/
  mdTested : List (Option Nat) := [none, none]
  mdFailed : BitVec 2 := 0
  /-- Ticks every output of a group has been off. -/
  groupOff : List Nat := [0, 0]
  pulses : Nat := 0
  lastFail : Nat := 0
  /-- The press of the reset input: its tick, and whether 0E0Ch has told of it (R417). -/
  pressAt : Option Nat := none
  pressHeld : Bool := false
  /-- Raw instant of the last SAFE from a watchdog, memory or clock fault; a restart is due (R408). -/
  safeAt : Option Nat := none
  restartDue : Bool := false
deriving DecidableEq, Repr

/-! ### What outlives a reset -/

/-- One copy of the configuration store (R73). -/
structure CfgCopy where
  seq   : Nat := 0
  vals  : SMap Word := []
  crc   : Word := 0
deriving DecidableEq, Repr

/-- One copy of the life-cycle state (R483). -/
structure LifeCopy where
  seq   : Nat := 0
  state : Life := .commission
  crc   : Word := 0
deriving DecidableEq, Repr

/-- A persistent flow context as stored, with a CRC-32C of its own (R101). -/
structure StoredFlow where
  payload : List Byte := []
  crc : Word := 0
deriving DecidableEq, Repr

/-- MRAM and flash: what survives a reset and a power cycle. -/
structure Nvm where
  cfgA : CfgCopy := {}
  cfgB : CfgCopy := {}
  lifeA : LifeCopy := { crc := 0xB719F536 }
  lifeB : LifeCopy := {}
  prevLife : Nat := 0xFF
  store : LocketStore := {}
  /-- OP_SECONDS as last written, and at this power-up (R463). -/
  opWritten : Nat := 0
  cycles : Nat := 1
  utcOff : Int := 37
  /-- Shutdown instants in operating seconds, newest first (R444). -/
  shutdowns : List Nat := []
  shutdownsAll : Nat := 0
  /-- The records of the failed domains, kept until a later test passes (R448, R451). -/
  failed : SMap TestRec := []
  floor : Nat := 0
  images : List FwImage := [{ factory := true, state := 4 }, {}]
  boot : Nat := 0
  trial : Bool := false
  trials : Nat := 0
  /-- The area of the configuration store outside the Hallmark: open flows (R101), the refined model (R241), and
  whether almanac, ephemerides and a position are held (R167). -/
  flows : SMap StoredFlow := []
  refined : Option (List Int) := none
  gnss : Option GnssStore := none
deriving DecidableEq, Repr

/-! ### The module -/

/-- The whole module but the queue of commands that wait. -/
structure Dev where
  time : TimeSt := {}
  pps  : PpsSt := {}
  frame : FrameSt := {}
  cmd  : CmdSt := {}
  cfg  : CfgSt := {}
  image : ImageSt := {}
  flows : FlowSt := {}
  acq  : AcqSt := {}
  gnss : GnssSt := {}
  fusion : FusionSt := {}
  solver : SolverSt := {}
  conseq : ConseqSt := {}
  engine : EngineSt := {}
  probes : List Probe := List.replicate 16 {}
  plant : PlantSt := {}
  net  : NetSt := {}
  can  : CanSt := {}
  clasp : ClaspSt := {}
  island : IslandSt := {}
  health : HealthSt := {}
  faults : FaultSt := {}
  locket : LocketSt := {}
  life : LifeSt := {}
  hw : HwSt := {}
  nvm : Nvm := {}
  out : List Out := []
  free : Nat := 0
deriving DecidableEq, Repr

/-! ### The state, its faults and refusals -/

/-- The module, and the commands that wait for it, first in, first out. -/
structure State where
  dev : Dev := {}
  pending : List Instr := []
deriving DecidableEq, Repr

/-- Why the model stops with a fault: it never does. Every command has an effect of the module, be it none; one whose operands
name nothing that there is leaves the module as it is (notes/assumptions/3.md). -/
inductive Fault where
deriving DecidableEq, Repr

/-- Why the model refuses a command. -/
inductive Refusal where
  /-- A command without a meaning in this model: raised by its arm of `exec`. Safe: the model stops where the hardware goes
  on. -/
  | notModelled (mnemonic : String)
deriving DecidableEq, Repr

/-- The module right after the release of the reset of its first power-up: the counter is 0 (R13), the configuration
holds the reset values (R74) and their Hallmark, the diode check of start-up is under way (R436), the challenge is that of
this start-up (R485), and unit ready is still ahead (R494). -/
def State.reset : State :=
  { dev := { cfg := { hallmark := 0x9f592e2ac284d127#64 }, health := { diodeUse := .check },
             life := { challenge := Config.challenge 0 }, free := 1 },
    pending := [] }

end Sys2Proof.Machine
end

