-- ==== Sys2Proof/Machine/Operands.lean ====
section
/-! DEFINITION. Machine/Operands.lean: how commands name what they act on: field addresses (R61), request packets
(Tables 2.1 to 2.3), reply packets, lane message headers (Table 13.11), codes of modes, states and roles (R58). -/

namespace Sys2Proof

/-! ### Request packets (R38 to R42) -/

/-- ORDERED, request bit 8 (Table 2.3). -/
def Req.ordered (r : Req) : Bool := r.flags.getLsbD 0
/-- STAGED_VIEW, request bit 9. -/
def Req.stagedView (r : Req) : Bool := r.flags.getLsbD 1
/-- NEXT_TICK, request bit 10. -/
def Req.nextTick (r : Req) : Bool := r.flags.getLsbD 2
/-- TARGET as a number. -/
def Req.tgt (r : Req) : Nat := r.target.toNat
/-- The payload's length. -/
def Req.len (r : Req) : Nat := r.payload.length
/-- The reserved bits of bytes 2-3 are zero (R42). -/
def Req.reservedOk (r : Req) : Bool := r.rsv == 0 && r.flags &&& 0xF8 == 0

/-- Bytes 0 to 11 of a request's header (Table 2.1). -/
def Req.head (op : Byte) (r : Req) : List Byte :=
  [0xA5, op] ++ Machine.Bits.le 2 (r.tag.toNat + 64 * r.rsv.toNat + 256 * r.flags.toNat) ++ Machine.Bits.le 4 r.len ++ Machine.Bits.le 4 r.tgt

/-- The header CRC of a request (Table 2.1). -/
def Req.hcrc (op : Byte) (r : Req) : Word := Machine.Bits.crc32c (r.head op)

/-- The payload CRC of a request; 0 where there is no payload (R38). -/
def Req.pcrc (r : Req) : Word := if r.payload.isEmpty then 0 else Machine.Bits.crc32c r.payload

end Sys2Proof

namespace Sys2Proof.Machine

open Sys2Proof

/-! ### The copies of a store in MRAM (R73, R483) -/

/-- What a copy's CRC-32C is taken over: its sequence number and its contents (DESIGN CHOICE, notes/assumptions/100.md). -/
def CfgCopy.bytes (c : CfgCopy) : List Byte :=
  Bits.le 4 c.seq ++ c.vals.flatMap (fun (e : Nat × Word) => Bits.le 4 e.1 ++ Bits.le 4 e.2.toNat)

/-- A copy whose CRC-32C holds. -/
def CfgCopy.valid (c : CfgCopy) : Bool := c.crc == Bits.crc32c c.bytes

/-- A copy with its CRC-32C. -/
def CfgCopy.signed (c : CfgCopy) : CfgCopy := { c with crc := Bits.crc32c c.bytes }

/-! ### Codes (R58, Table 2.9) -/

/-- The code of a DP mode (R58). -/
def Mode.code : Mode → Nat
  | .idle => 0 | .joystick => 1 | .autoHeading => 2 | .autoPosition => 3 | .track => 4

/-- The DP mode of a code; any other value is out of range (R58). -/
def modeOf (n : Nat) : Option Mode :=
  if n = 0 then some .idle else if n = 1 then some .joystick else if n = 2 then some .autoHeading
  else if n = 3 then some .autoPosition else if n = 4 then some .track else none

/-- The code of a life-cycle state (R58). -/
def Life.code : Life → Nat
  | .factory => 0 | .commission => 1 | .service => 2 | .maintain => 3 | .returned => 4 | .retired => 5

/-- What a copy's CRC-32C is taken over, as CfgCopy.bytes. -/
def LifeCopy.bytes (c : LifeCopy) : List Byte := Bits.le 4 c.seq ++ Bits.le 1 c.state.code

/-- A copy whose CRC-32C holds. -/
def LifeCopy.valid (c : LifeCopy) : Bool := c.crc == Bits.crc32c c.bytes

/-- A copy with its CRC-32C. -/
def LifeCopy.signed (c : LifeCopy) : LifeCopy := { c with crc := Bits.crc32c c.bytes }

/-- The life-cycle state of a code (R58). -/
def lifeOf (n : Nat) : Option Life :=
  if n = 0 then some .factory else if n = 1 then some .commission else if n = 2 then some .service
  else if n = 3 then some .maintain else if n = 4 then some .returned else if n = 5 then some .retired else none

/-- The code of a role (R58). -/
def Role.code : Role → Nat
  | .active => 0 | .standby => 1 | .solo => 2 | .ineligible => 3

/-- The code of a time state (Table 11.5 byte 21). -/
def TimeState.code : TimeState → Nat
  | .unset => 0 | .locked => 1 | .slewing => 2 | .holdover => 3

/-- The code of a transport (Table 2.14). -/
def trCode : Transport → Nat
  | .pcie => 0 | .spi => 1 | .udp => 2

/-- Status codes (Table 2.9). -/
def stOk : Half := 0x0000
/-- ACCEPTED. -/
def stAccepted : Half := 0x0001
/-- BAD_OPCODE. -/
def stBadOpcode : Half := 0x0101
/-- BAD_LENGTH. -/
def stBadLength : Half := 0x0102
/-- BAD_CRC. -/
def stBadCrc : Half := 0x0103
/-- TAG_IN_USE. -/
def stTagInUse : Half := 0x0104
/-- PARAM_RANGE. -/
def stRange : Half := 0x0201
/-- PARAM_LOCKED. -/
def stLocked : Half := 0x0202
/-- STAGE_CONFLICT. -/
def stConflict : Half := 0x0203
/-- WRONG_ROLE. -/
def stRole : Half := 0x0301
/-- WRONG_LIFECYCLE. -/
def stLife : Half := 0x0302
/-- SEALED. -/
def stSealed : Half := 0x0303
/-- PARTIAL. -/
def stPartial : Half := 0x0401
/-- TIMEOUT. -/
def stTimeout : Half := 0x0402
/-- THROTTLED. -/
def stThrottled : Half := 0x0403
/-- BUSY. -/
def stBusy : Half := 0x0501

/-! ### Fields -/

/-- The key of a field: table and position. -/
def key (t p : Nat) : Nat := 65536 * t + p

/-- The committed value of a field (R61); it is the value in force (R70). -/
def Dev.par (d : Dev) (t p : Nat) : Word := Bits.get Params.resetKey d.cfg.committed (key t p)

/-- A field as a number. -/
def Dev.parN (d : Dev) (t p : Nat) : Nat := (d.par t p).toNat

/-- A signed field. -/
def Dev.parI (d : Dev) (t p : Nat) : Int := (d.par t p).toInt

/-- A field that is 0 or 1. -/
def Dev.parB (d : Dev) (t p : Nat) : Bool := d.par t p == 1#32

/-- A field address in TARGET (R61): table, first position, count. -/
structure FieldAddr where
  table : Nat
  first : Nat
  count : Nat
deriving DecidableEq, Repr

/-- The field address that a TARGET word spells (R61). -/
def fieldAddr (w : Word) : FieldAddr :=
  { table := w.toNat % 256, first := (w.toNat / 256) % 65536, count := w.toNat / 16777216 }

/-- The largest payload of a transport (R40). -/
def maxPayload : Transport → Nat
  | .udp => 1400
  | _ => 16384

/-- A packet as received: its header's fields, whether its CRC holds, and the bytes after it. -/
structure Packet where
  version : Byte
  op      : Byte
  tagWord : Nat
  len     : Nat
  target  : Word
  hcrc    : Word
  crcOk   : Bool
  rest    : List Byte
deriving DecidableEq, Repr

/-- A packet read from bytes (Table 2.1); bytes that are not there read 0. -/
def packetOf (bs : List Byte) : Packet :=
  { version := bs.getD 0 0, op := bs.getD 1 0, tagWord := Bits.at' bs 2 2, len := Bits.at' bs 4 4,
    target := Bits.wordAt bs 8, hcrc := Bits.wordAt bs 12,
    crcOk := Bits.crc32c (Bits.fit 12 bs) == Bits.wordAt bs 12, rest := bs.drop 16 }

/-- The request that a packet carries. -/
def Packet.req (p : Packet) (src : Source) : Req :=
  { src := src, tag := BitVec.ofNat 6 p.tagWord, rsv := BitVec.ofNat 2 (p.tagWord / 64),
    flags := BitVec.ofNat 8 (p.tagWord / 256), target := p.target, payload := Bits.fit p.len p.rest }

/-- The payload CRC of a packet holds (Table 2.4 step 6). -/
def Packet.payloadOk (p : Packet) : Bool :=
  p.len == 0 || Bits.crc32c (Bits.fit p.len p.rest) == Bits.wordAt p.rest p.len

/-- The payload CRC that a packet carries; 0 where it has no payload. -/
def Packet.pcrc (p : Packet) : Word := if p.len = 0 then 0 else Bits.wordAt p.rest p.len

/-- The whole size that a header implies (R38). -/
def Packet.size (p : Packet) : Nat := if p.len = 0 then 16 else 20 + p.len

/-! ### Reply packets (R41) -/

/-- A reply's bytes (Table 2.2): `rflags` are bits [15:8] of bytes 2-3. -/
def replyBytes (op : Byte) (tag : BitVec 6) (rflags : Byte) (status rarg : Half) (payload : List Byte) : List Byte :=
  let h := [0xA5, op, tag.zeroExtend 8, rflags] ++ Bits.le 4 payload.length ++ Bits.le 2 status.toNat ++
    Bits.le 2 rarg.toNat
  let p := if payload.isEmpty then [] else payload ++ Bits.le 4 (Bits.crc32c payload).toNat
  h ++ Bits.le 4 (Bits.crc32c h).toNat ++ p

/-- FINAL, REJECT, LATE and NOTIFY as bits [15:8] (Table 2.3). -/
def rFinal : Byte := 0x01
/-- REJECT. -/
def rReject : Byte := 0x02
/-- LATE. -/
def rLate : Byte := 0x04
/-- NOTIFY. -/
def rNotify : Byte := 0x08

/-! ### Lane messages (R380) -/

/-- A lane message: header of Table 13.11, payload, CRC-32C. -/
def laneMessage (typ frame seg part parts : Nat) (payload : List Byte) : List Byte :=
  let m := Bits.le 2 0x5D1D ++ [0x01] ++ Bits.le 1 typ ++ Bits.le 4 frame ++ Bits.le 1 seg ++ [0] ++ Bits.le 2 part ++
    Bits.le 2 parts ++ Bits.le 2 payload.length ++ payload
  m ++ Bits.le 4 (Bits.crc32c m).toNat

/-- The messages of one body: parts of 4,076 bytes, the last one shorter, at least one (R380). -/
def laneMessages (typ frame seg : Nat) (body : List Byte) : List (List Byte) :=
  let b := Bits.pad4 body
  let ps := Bits.chunks 4076 (b.length / 4076 + 1) b
  let ps := if ps.isEmpty then [[]] else ps
  (Bits.upTo ps.length).map (fun i => laneMessage typ frame seg i ps.length (ps.getD i []))

end Sys2Proof.Machine
end

