-- ==== Sys2Proof/Machine/Flags.lean ====
section
/-! DEFINITION. Machine/Flags.lean: the flag bytes and words that the manual computes from the state. -/

namespace Sys2Proof.Machine

open Sys2Proof

/-- Bits into a number: bit i is set where element i is true. -/
def flagBits (l : List Bool) : Nat := Bits.bitsOf ((Bits.upTo l.length).filter (fun i => l.getD i false))

/-- The port in SLAVE state (R338), none where there is none. -/
def Dev.slavePort (d : Dev) : Option Nat := (Bits.upTo 4).find? (fun p => (d.net.ports.getD p {}).ptp == 9)

/-- The port in SLAVE or UNCALIBRATED state (R340). -/
def Dev.slaveLike (d : Dev) : Option Nat :=
  (Bits.upTo 4).find? (fun p => (d.net.ports.getD p {}).ptp == 9 || (d.net.ports.getD p {}).ptp == 8)

/-- What the port in SLAVE or UNCALIBRATED state hears of its grandmaster. -/
def Dev.slaveGm (d : Dev) : Option Gm :=
  match d.slaveLike with | some p => (d.net.ports.getD p {}).gm | none => none

/-- VALID: the first step has been made (R328). -/
def Dev.timeValid (d : Dev) : Bool := d.time.state != .unset

/-- HOLDOVER: the state, or a slave whose grandmaster announces clockClass 7 or 52 with timeSource A0h (R338). -/
def Dev.holdover (d : Dev) : Bool :=
  d.time.state == .holdover ||
    (match d.slavePort with
     | some p => (match (d.net.ports.getD p {}).gm with
        | some g => (g.cls == 7 || g.cls == 52) && g.timeSource == 0xA0
        | none => false)
     | none => false)

/-- TIMEFLAGS of STATUS_READ (Table 2.11 byte 16). -/
def Dev.timeFlags (d : Dev) : Nat := flagBits [d.timeValid, d.holdover, d.time.converging]

/-- The unit holds the lease: it is ACTIVE or SOLO (Table 13.1). -/
def Role.inControl : Role → Bool
  | .active => true | .solo => true | _ => false

/-- UNIT of a heartbeat (Table 13.3 byte 8): identity and preference as latched from the Bezel (S19, S20). -/
def Dev.unitByte (d : Dev) : Byte :=
  BitVec.ofNat 8 (flagBits [d.island.bezel.getLsbD 18, d.island.bezel.getLsbD 19])

/-- The severity shown as WORST: the highest in the active table or among the lost ones (R454); 255 is none. -/
def Dev.worst (d : Dev) : Nat :=
  let l := d.faults.active.map Standing.sev ++ (d.faults.lostSev.filter (fun p => d.time.now < p.2)).map Prod.fst
  if l.isEmpty then 255 else l.foldl (fun a b => if a < b then b else a) 0

/-- A fault of severity CRITICAL stands (Table 15.7), queued ones included. -/
def Dev.criticalStands (d : Dev) : Bool := d.worst == 4 || d.faults.queue.any (fun e => e.sev == 4)

/-- A MODE_SET is in progress (R233). -/
def Dev.modeChanging (d : Dev) : Bool := d.solver.modeReq.isSome

/-- An island is not NORMAL (R308). -/
def Dev.islandBusy (d : Dev) : Bool := d.plant.islands.any (fun i => i.state != .normal)

/-- A commit is pending (R66). -/
def Dev.commitPending (d : Dev) : Bool := d.cfg.commit.isSome || d.cfg.applied.isSome

/-- The partner's heartbeat shows a flag (Table 13.3 HFLAGS), while it is present. -/
def Dev.beatFlag (d : Dev) (i : Nat) : Bool :=
  match d.clasp.partner with | some b => d.clasp.partnerHere && b.hflags.getLsbD i | none => false

/-- SYNC of STATUS_READ (Table 2.11 byte 17). -/
def Dev.syncByte (d : Dev) : Nat :=
  flagBits [d.clasp.partnerHere, !d.clasp.role.inControl && !d.clasp.synced,
    d.clasp.partnerHere && d.clasp.role.inControl && !(d.beatFlag 1)]

/-- The life-cycle state lets the unit take control (Table 17.1). -/
def Life.mayControl : Life → Bool
  | .commission => true | .service => true | .maintain => true | _ => false

/-- The health check of the frame (R382): no CRITICAL fault; the handoff succeeded, or the mode is IDLE, or the partner
does not show ELIGIBLE. The supervisor serves its watchdog (a unit that does not is reset, SUPERVISOR_WATCHDOG). -/
def Dev.healthCheck (d : Dev) : Bool :=
  !d.criticalStands && (!d.frame.handoffFailed || d.solver.mode == .idle || !(d.beatFlag 2))

/-- ELIGIBLE (R379). -/
def Dev.eligible (d : Dev) : Bool :=
  !d.criticalStands && d.life.state.mayControl && d.clasp.role != .ineligible &&
    (if d.clasp.lease then d.healthCheck else d.clasp.synced)

/-- HFLAGS of a heartbeat (Table 13.3 bytes 10-11). -/
def Dev.beatFlags (d : Dev) : Nat :=
  flagBits [d.clasp.lease, d.clasp.synced, d.eligible, d.clasp.returnReq, d.clasp.released, d.modeChanging,
    d.commitPending, d.islandBusy, d.timeValid, d.clasp.feeds.getLsbD 0, d.clasp.feeds.getLsbD 1]

/-- RFLAGS of ROLE_READ (Table 13.8 byte 3). -/
def Dev.roleFlags (d : Dev) : Nat :=
  flagBits [d.clasp.lease, d.clasp.synced, d.beatFlag 1, d.clasp.returnReq, d.clasp.returnSuspended, d.clasp.clash,
    d.clasp.secondSeen, d.clasp.orphan]

/-- LINKS of ROLE_READ (Table 13.8 byte 4). -/
def Dev.linkFlags (d : Dev) : Nat :=
  flagBits [(d.clasp.lanes.getD 0 {}).up, (d.clasp.lanes.getD 1 {}).up, d.clasp.ownIn, d.clasp.ownOut]

/-- NS_CAUSE: the lowest standing cause of Table 13.5, 0 where none stands. -/
def Dev.nsCause (d : Dev) : Nat := ((Bits.upTo 10).find? (fun i => i != 0 && d.clasp.causes.getLsbD i)).getD 0

end Sys2Proof.Machine
end

