-- ==== Sys2Proof/Machine/Ops.lean ====
section
/-! DEFINITION. Machine/Ops.lean: the operations that the blocks share: the counter and device time, the queues of
Table 1.4, events on their way to Locket and the fault manager, the fence, points of the signal image, replies. -/

namespace Sys2Proof.Machine

open Sys2Proof

/-! ### Time (R13, R14, R320, R321) -/

/-- The raw counter C (R320). -/
def Dev.c (d : Dev) : Nat := (d.time.now - d.time.epoch) / 2 * 2

/-- Device time T = floor(C + O + ρ × (C − A) × 2^−48) at a counter value (R321), as an integer. -/
def Dev.devAtI (d : Dev) (c : Nat) : Int :=
  ((c : Int) * 2 ^ 48 + d.time.off * 2 ^ 32 + d.time.rho * ((c : Int) - (d.time.anchor : Int))) / 2 ^ 48

/-- Device time now, ns. -/
def Dev.dev (d : Dev) : Nat := (d.devAtI d.c).toNat

/-- Short time now (R324). -/
def Dev.short (d : Dev) : Word := BitVec.ofNat 32 d.dev

/-- Short time at an instant of the sender's time line, by the offset and rate in force. -/
def Dev.shortAt (t : Nat) (d : Dev) : Word := BitVec.ofInt 32 (d.devAtI ((t - d.time.epoch) / 2 * 2))

/-- The instant of a command: the sender's time line never runs backward (notes/assumptions/2.md). -/
def Dev.advance (t : Nat) (d : Dev) : Dev :=
  { d with time := { d.time with now := if d.time.now < t then t else d.time.now } }

/-- Device time since t0 of the frame, ns. -/
def Dev.sinceT0 (d : Dev) : Nat := d.dev - d.frame.t0

/-- The frame number of a device time (R10). -/
def frameNo (t : Nat) : Nat := t / 20000000 % 4294967296

/-- The number of the frame that the next tick starts on the numbering in force; a step frame skips numbers (R28). -/
def Dev.nextNo (d : Dev) : Nat := frameNo d.frame.nextTick

/-- Device time of the last sub-tick boundary: the last whole millisecond, but t0 while none has passed since, or where R28
omits it (R11). -/
def Dev.boundary (d : Dev) : Nat :=
  let b := d.dev / 1000000 * 1000000
  if b < d.frame.t0 || (d.frame.isStep && decide (b < d.frame.t0 + 500000)) then d.frame.t0 else b

/-- Raw time from an instant to the last sub-tick boundary: what is checked at sub-tick boundaries is judged there and not
between them (R11, R14). -/
def Dev.boundaryAge (from' : Nat) (d : Dev) : Nat := d.time.now - (d.dev - d.boundary) - from'

/-- The next value of the free-value counter. -/
def Dev.fresh (d : Dev) : Dev := { d with free := d.free + 1 }

/-- Something leaves the module. -/
def Dev.emit (o : Out) (d : Dev) : Dev := { d with out := o :: d.out }

/-! ### The queues of Table 1.4 (R33 to R36) -/

/-- The depth of a queue (Table 1.4). -/
def queueDepth (id : Nat) : Nat :=
  if id = 2 then 256 else if id = 3 then 32 else if 4 ≤ id ∧ id ≤ 0x0B then 32 else 64

/-- The idle time of a queue in ns, 0 where the notice is off (Table 1.3). -/
def Dev.idleTime (d : Dev) (id : Nat) : Nat :=
  1000 * d.parN 2 (if id < 4 then 0x10 + id else if id ≤ 0x0B then 0x14 else if id ≤ 0x13 then 0x15
    else if id ≤ 0x1B then 0x16 else 0x17)

/-- The control word of a queue. -/
def Dev.q (d : Dev) (id : Nat) : QCtl := Bits.get (fun _ => ({} : QCtl)) d.cmd.queues id

/-- A queue's control word replaced. -/
def Dev.setQ (id : Nat) (c : QCtl) (d : Dev) : Dev :=
  { d with cmd := { d.cmd with queues := Bits.put (fun _ => ({} : QCtl)) d.cmd.queues id c } }

/-- Entries held, by the pointers. -/
def QCtl.held (c : QCtl) : Nat := c.wr - c.rd

/-- The duplicate pointers agree (R34). -/
def QCtl.agree (c : QCtl) : Bool := c.rd == c.rd2 && c.wr == c.wr2

/-- The contents of a queue are lost (R34). The requests of the command queue end TIMEOUT. -/
def Dev.dropContents (id : Nat) (d : Dev) : Dev :=
  if id = 0 then
    { d with cmd := { d.cmd with tags := d.cmd.tags.map (fun p =>
        if p.started then p else { p with started := true, done := some { status := stTimeout } }) } }
  else if id = 1 then { d with cmd := { d.cmd with replyQ := [] } }
  else if id = 2 then { d with locket := { d.locket with front := [] } }
  else if id = 3 then { d with faults := { d.faults with queue := [] } }
  else if id ≤ 0x0B then
    { d with can := { d.can with ctrls := Bits.modAt d.can.ctrls (id - 4) (fun k => { k with txq := [] }) } }
  else if id ≤ 0x13 then
    { d with can := { d.can with ctrls := Bits.modAt d.can.ctrls (id - 0x0C) (fun k => { k with rxq := [] }) } }
  else if id ≤ 0x1B then { d with net := { d.net with launch := Bits.setAt d.net.launch (id - 0x14) [] } }
  else { d with acq := { d.acq with fifos := Bits.setAt d.acq.fifos (id - 0x1C) [] } }

/-- An access compares the pointers; on a mismatch the queue is emptied, both pointer pairs are set to zero and the
overrun bit is set (R34). The list names the events that follow: code and queue ID. DESIGN CHOICE: a mismatch that sets
the overrun bit for the first time raises 0107h alone and not 0108h beside it (notes/assumptions/95.md). -/
def Dev.qCheck (id : Nat) (d : Dev) : Dev × List (Nat × Nat) :=
  if (d.q id).agree then (d, [])
  else ((d.dropContents id).setQ id { (d.q id) with rd := 0, wr := 0, rd2 := 0, wr2 := 0, overrun := true },
        [(0x0107, id)])

/-- A write to a queue (R33): whether it entered, and the events that follow. -/
def Dev.qPush (id : Nat) (d : Dev) : Bool × Dev × List (Nat × Nat) :=
  let (d, ev) := d.qCheck id
  let c := d.q id
  if queueDepth id ≤ c.held then
    (false, d.setQ id { c with overrun := true }, if c.overrun then ev else ev ++ [(0x0108, id)])
  else
    (true, d.setQ id { c with wr := c.wr + 1, wr2 := c.wr + 1,
                              lastNonEmpty := if c.held = 0 then d.time.now else c.lastNonEmpty }, ev)

/-- A read of n entries: the pointers move, and the idle notice is re-armed (R35). -/
def Dev.qRead (id n : Nat) (d : Dev) : Dev × List (Nat × Nat) :=
  let (d, ev) := d.qCheck id
  let c := d.q id
  let k := if n < c.held then n else c.held
  (d.setQ id { c with rd := c.rd + k, rd2 := c.rd + k, lastRead := d.time.now, noticed := false }, ev)

/-- Entries leave a queue without a read of its reader (withdrawn or discarded entries): an access too, which compares. -/
def Dev.qDrop (id n : Nat) (d : Dev) : Dev × List (Nat × Nat) :=
  let (d, ev) := d.qCheck id
  let c := d.q id
  let k := if n < c.held then n else c.held
  (d.setQ id { c with rd := c.rd + k, rd2 := c.rd + k }, ev)

/-! ### Locket's record of an occurrence (R461 to R468) -/

/-- Year, month and day of a day number counted from 1970-01-01. -/
def civil (days : Nat) : Nat × Nat × Nat :=
  let z := days + 719468
  let era := z / 146097
  let doe := z % 146097
  let yoe := (doe - doe / 1460 + doe / 36524 - doe / 146096) / 365
  let doy := doe - (365 * yoe + yoe / 4 - yoe / 100)
  let mp := (5 * doy + 2) / 153
  let day := doy - (153 * mp + 2) / 5 + 1
  let mon := if mp < 10 then mp + 3 else mp - 9
  (yoe + era * 400 + (if mon ≤ 2 then 1 else 0), mon, day)

/-- The packed calendar time of R462: milliseconds, second label, and the UTC second it belongs to. -/
def packCal (ms sec utc : Nat) : DWord :=
  let (y, mo, da) := civil (utc / 86400)
  BitVec.ofNat 64 (ms + sec * 2 ^ 10 + (utc / 60 % 60) * 2 ^ 16 + (utc / 3600 % 24) * 2 ^ 22 + da * 2 ^ 27 +
    mo * 2 ^ 32 + y * 2 ^ 36)

/-- TAI − UTC in force: the one learned, or the last one learned, kept in MRAM (R463). -/
def Dev.utcOffset (d : Dev) : Int := if d.pps.utcValid then d.pps.utcOff else d.nvm.utcOff

/-- CAL_TIME now (R462): the raw counter while time is UNSET. -/
def Dev.calTime (d : Dev) : DWord :=
  if d.timeValid then
    let s := d.dev / 1000000000
    let ms := d.dev / 1000000 % 1000
    let utc := ((s : Int) - d.utcOffset).toNat
    if d.pps.leap = 1 ∧ s + 1 = d.pps.leapAt then packCal ms 60 (utc - 1) else packCal ms (utc % 60) utc
  else BitVec.ofNat 64 d.c

/-- Operating seconds now (R463): the count as read at power-up and the whole seconds powered since. -/
def Dev.opSeconds (d : Dev) : Nat := d.life.opBase + (d.time.now - d.life.poweredAt) / 1000000000

/-- The record of an occurrence but its sequence number (Table 16.1). -/
def Dev.record (kind code sev inst : Nat) (data : List Byte) (d : Dev) : Rec :=
  { cal := d.calTime, opSec := d.opSeconds, cycles := d.nvm.cycles, code := code,
    source := kind * 4096 + inst % 4096, sev := sev,
    lflags := BitVec.ofNat 8 (flagBits [!d.timeValid, d.holdover, d.timeValid && !d.pps.utcValid]),
    data := Bits.fit 8 data }

/-- The override of a code in table LOCKET (R479): its limit word. -/
def Dev.override (d : Dev) (code : Nat) : Option Word :=
  match (Bits.upTo 32).find? (fun e => d.parN 0x34 (0x10 + 2 * e) == code && code != 0) with
  | some e => some (d.par 0x34 (0x11 + 2 * e))
  | none => none

/-- Rate units that a code gains per tick (R465). -/
def Dev.rateOf (d : Dev) (code : Nat) : Nat :=
  match d.override code with | some w => w.toNat % 65536 | none => d.parN 0x34 1

/-- Capacity of a code's bucket in units (R465). -/
def Dev.capOf (d : Dev) (code : Nat) : Nat :=
  50 * (match d.override code with | some w => w.toNat / 65536 % 256 | none => d.parN 0x34 2)

/-- The bucket of a code. -/
def Dev.bucket (d : Dev) (code : Nat) : Bucket :=
  match d.locket.buckets.find? (fun p => p.1 == code) with
  | some p => p.2
  | none => { units := d.locket.base }

/-- A code's bucket replaced. -/
def Dev.setBucket (code : Nat) (b : Bucket) (d : Dev) : Dev :=
  { d with locket := { d.locket with buckets := Bits.putBy (fun p => p.1 == code) (code, b) d.locket.buckets } }

/-- An entry goes to the front queue; on a full queue its occurrence is counted in the loss latch (R468). -/
def Dev.frontPush (r : Rec) (d : Dev) : Dev × List (Nat × Nat) :=
  let (ok, d, ev) := d.qPush 2
  if ok then ({ d with locket := { d.locket with front := d.locket.front ++ [r] } }, ev)
  else ({ d with locket := { d.locket with
            lostCount := d.locket.lostCount + 1,
            lostFirst := match d.locket.lostFirst with | some x => some x | none => some r } }, ev)

/-- An occurrence is suppressed and counted (R465, R467). -/
def Dev.suppress (r : Rec) (d : Dev) : Dev :=
  let b := d.bucket r.code
  d.setBucket r.code { b with
    suppressed := b.suppressed + 1, maxSev := if b.maxSev < r.sev then r.sev else b.maxSev, last := some r,
    firstAt := if b.suppressed = 0 then d.time.now else b.firstAt, lastAt := d.time.now }

/-- The priority lane takes CRITICAL, 0D12h and markers (R464). -/
def Rec.priority (r : Rec) : Bool := r.sev == 4 || r.code == 0x0D12 || (decide (0x1080 ≤ r.code) && decide (r.code ≤ 0x10FE))

/-- The entries of one code in the front queue (R466). -/
def Dev.frontHas (d : Dev) (code : Nat) : Nat := (d.locket.front.filter (fun e => e.code == code)).length

/-- An occurrence on its way into Locket (R464 to R468): what the full lane sends on is exempt from the rate limit but not
from R466. A RETIRED module records nothing (R477). -/
def Dev.locketTake (r : Rec) (d : Dev) : Dev × List (Nat × Nat) :=
  if d.life.state = .retired then (d, [])
  else if r.priority then
    if d.locket.lane.length < 8 then
      ({ d with locket := { d.locket with lane := d.locket.lane ++ [{ r with lflags := r.lflags ||| 0x10 }] } }, [])
    else if d.frontHas r.code < 32 then d.frontPush r
    else (d.suppress r, [])
  else
    let b := d.bucket r.code
    if b.suppressed != 0 || decide (32 ≤ d.frontHas r.code) || decide (b.units < 50) then (d.suppress r, [])
    else (d.setBucket r.code { b with units := b.units - 50 }).frontPush r

/-! ### The fault manager's entry (R452, R456, R530) -/

/-- The ending events of Table 15.12: each with the codes it ends and the divisor of the instance match; 0 matches
every standing entry of the code. -/
def enders : List (Nat × List (Nat × Nat)) :=
  [(0x0302, [(0x0301, 1)]), (0x0405, [(0x0404, 1), (0x0409, 16)]), (0x0408, [(0x0407, 1)]),
   (0x0502, [(0x0501, 1), (0x050C, 3)]), (0x0602, [(0x0601, 1)]), (0x0604, [(0x0603, 1), (0x0605, 1)]),
   (0x0607, [(0x0606, 1)]), (0x060F, [(0x060B, 0)]), (0x0705, [(0x0704, 0)]), (0x0802, [(0x0801, 1)]),
   (0x0903, [(0x0902, 1)]), (0x0A04, [(0x0A01, 1)]), (0x0A08, [(0x0A07, 1)]),
   (0x0B05, [(0x0B03, 0), (0x0B04, 0)]), (0x0B06, [(0x0B07, 0)]), (0x0B0A, [(0x0B09, 1)])] ++
  [(0x0B0C, [(0x0B0B, 0)]), (0x0C02, [(0x0C01, 1)]), (0x0C04, [(0x0C03, 1), (0x0C01, 1)]),
   (0x0D06, [(0x0D05, 0)]), (0x0D08, [(0x0D07, 1)]), (0x0D0A, [(0x0D09, 0)]), (0x0D11, [(0x0D10, 1)]),
   (0x0F02, [(0x0F01, 0)]), (0x0F04, [(0x0F03, 0)]), (0x0F06, [(0x0F05, 1)]), (0x0F0A, [(0x0F0B, 1)]),
   (0x1004, [(0x1003, 0), (0x1002, 0)]), (0x1103, [(0x1102, 0)]), (0x1202, [(0x1201, 1)]), (0x1205, [(0x1204, 0)])]

/-- What an event ends (Table 15.12). -/
def endsOf (code : Nat) : List (Nat × Nat) :=
  match enders.find? (fun p => p.1 == code) with | some p => p.2 | none => []

/-- An ending event ends a standing fault (R530). -/
def endsFault (code inst : Nat) (s : Standing) : Bool :=
  (endsOf code).any (fun p => p.1 == s.code &&
    (p.2 == 0 || decide (s.source % 4096 = inst / p.2)))

/-- An event enters the fault queue where it is a fault or ends one (R452); equal entries merge (R456). -/
def Dev.faultTake (code source sev : Nat) (d : Dev) : Dev × List (Nat × Nat) :=
  if sev = 0 && (endsOf code).isEmpty then (d, [])
  else if d.faults.queue.any (fun e => e.code == code && e.source == source) then
    ({ d with faults := { d.faults with queue := d.faults.queue.map (fun e =>
        if e.code == code && e.source == source then { e with count := e.count + 1, seen := d.time.now } else e) } }, [])
  else
    let (ok, d, ev) := d.qPush 3
    if ok then
      let e : FaultEnt := { code := code, source := source, sev := sev, seen := d.time.now }
      ({ d with faults := { d.faults with queue := d.faults.queue ++ [e] } }, ev)
    else ({ d with faults := { d.faults with latch := d.faults.latch + 1, lost := d.faults.lost + 1 } }, ev)

/-! ### The fence (R383) -/

/-- The lease timer still runs: launch instants lie strictly before its end (R383). -/
def Dev.leaseLive (d : Dev) : Bool := d.clasp.lease && decide (d.time.now < d.clasp.leaseAt)

/-- A cause of Table 13.5 that makes the unit INELIGIBLE stands: 1, 2, 8, 9 (a suspended cause 9 is not set). -/
def causesIneligible (c : BitVec 16) : Bool := c &&& 0x0306 != 0

/-- The role of a unit that is not in control (R374). -/
def Dev.idleRole (d : Dev) : Role :=
  if causesIneligible d.clasp.causes || !d.life.state.mayControl || d.clasp.waiting then .ineligible else .standby

/-- Pending thruster buffers of a controller are withdrawn (R383). -/
def CanCtrl.withdraw (k : CanCtrl) : CanCtrl := { k with bufs := k.bufs.filter (fun p => decide (24 ≤ p.1)) }

/-- An expiry fence waits for its acknowledgement; every other fence releases at once (R384, R386). -/
def Dev.fenceCore (cause : Nat) (d : Dev) : Dev :=
  { d with
    clasp := { d.clasp with
      lease := false, ownOut := false, twoOwners := false, role := d.idleRole, roleSince := d.frame.number,
      fenceAt := d.time.now, fenceCause := cause, returnReq := false, claimDue := false,
      ackSince := if cause = 1 then some d.time.now else none,
      releaseUntil := if cause = 1 then none else some (d.time.now + 40000000),
      released := if cause = 1 then d.clasp.released else true,
      takeBack := some 0, releasing := match d.clasp.releasing with | .due _ none => .no | r => r },
    can := { d.can with ctrls := d.can.ctrls.map CanCtrl.withdraw },
    net := { d.net with launch := d.net.launch.map (fun q => q.filter (fun e => e.thrusters == 0)) },
    frame := { d.frame with queued := 0 } }

/-- The RELEASE message (Table 13.12) on both lanes. -/
def Dev.sendRelease (d : Dev) : Dev :=
  d.emit (.lane (laneMessage 2 d.frame.number 0 0 1
    (Bits.le 1 d.clasp.fenceCause ++ [d.unitByte, 0, 0] ++ Bits.le 4 (d.shortAt d.clasp.fenceAt).toNat)))

/-- The launch queues after the entries of thruster records have been discarded (R383), with the events of the accesses. -/
def Dev.fenceQueues (n : List Nat) (d : Dev) : Dev × List (Nat × Nat) :=
  (Bits.upTo 8).foldl (fun (x : Dev × List (Nat × Nat)) q =>
    let y := x.1.qDrop (0x14 + q) (n.getD q 0)
    (y.1, x.2 ++ y.2)) (d, [])

/-- The severity of the queue events (Table 1.5). -/
def queueEventSev (code : Nat) : Nat := if code = 0x0107 then 3 else 1

/-- The fence with what it sends and the events it raises: code, severity, instance, data (R383, R386). -/
def Dev.fenceWith (cause : Nat) (d : Dev) : Dev × List (Nat × Nat × Nat × List Byte) :=
  let old := d.clasp.role
  let n := d.net.launch.map (fun q => (q.filter (fun e => e.thrusters != 0)).length)
  let (d1, qs) := (d.fenceCore cause).fenceQueues n
  let d2 := if cause = 1 then d1 else d1.sendRelease
  let ev := qs.map (fun (e : Nat × Nat) => (e.1, queueEventSev e.1, e.2, Bits.le 1 e.2))
  let role := (0x0D01, 0, 0, Bits.le 1 old.code ++ Bits.le 1 d2.clasp.role.code ++ Bits.le 4 d.frame.number)
  (d2, ev ++ (if cause = 1 then [(0x0D02, 1, 0, Bits.le 4 d.frame.number), role]
       else [(0x0D03, 0, 0, Bits.le 1 cause), role]))

/-! ### Raising an event (R452, R453, R464) -/

/-- A probe that waits for an event with this code (trigger kind 4, R291). -/
def Probe.onEvent (code : Nat) (p : Probe) : Probe :=
  if (p.state == 1 || p.state == 2) && Bits.byteAt p.payload 1 == 4 && Bits.at' p.payload 20 2 == code then
    { p with hit := true }
  else p

/-- An event is raised: it reaches Locket and, where it is a fault or ends one, the fault manager; a CRITICAL one fences
a unit that holds the lease (R453). The fuel bounds the queue events that a raise itself sets off. -/
def Dev.raiseN : Nat → Nat → Nat → Nat → Nat → List Byte → Dev → Dev
  | 0, _, _, _, _, _, d => d
  | fuel + 1, kind, code, sev, inst, data, d =>
    let r := d.record kind code sev inst data
    let (d, e1) := d.locketTake r
    let (d, e2) := d.faultTake code r.source sev
    let d := (e1 ++ e2).foldl (fun x e => Dev.raiseN fuel 0 e.1 (queueEventSev e.1) e.2 (Bits.le 1 e.2) x) d
    let d := { d with probes := d.probes.map (fun p => p.onEvent code) }
    if sev = 4 && d.clasp.lease then
      let (d, ev) := d.fenceWith 2
      ev.foldl (fun x e => Dev.raiseN fuel 0 e.1 e.2.1 e.2.2.1 e.2.2.2 x) d
    else d

/-- An event of a block with its instance (SOURCE kind 0h). -/
def Dev.raiseI (code sev inst : Nat) (data : List Byte) (d : Dev) : Dev := d.raiseN 4 0 code sev inst data

/-- An event of a block with instance 0. -/
def Dev.raise (code sev : Nat) (data : List Byte) (d : Dev) : Dev := d.raiseI code sev 0 data

/-- The events of a queue access. -/
def Dev.raiseQ (ev : List (Nat × Nat)) (d : Dev) : Dev :=
  ev.foldl (fun x e => x.raiseI e.1 (queueEventSev e.1) e.2 (Bits.le 1 e.2)) d

/-- A fence of the unit that holds the lease (R383); without the lease nothing happens. -/
def Dev.fence (cause : Nat) (d : Dev) : Dev :=
  if d.clasp.lease then
    let (d, ev) := d.fenceWith cause
    ev.foldl (fun x e => x.raiseI e.1 e.2.1 e.2.2.1 e.2.2.2) d
  else d

/-- The entry of a standing fault ends by a state its owning chapter states (R454); an occurrence that still waits in the
fault queue leaves it. -/
def Dev.endFault (code inst : Nat) (d : Dev) : Dev :=
  let gone := fun (c s : Nat) => c == code && s % 4096 == inst
  let n := (d.faults.queue.filter (fun s => gone s.code s.source)).length
  let (d, ev) := if n = 0 then (d, []) else d.qDrop 3 n
  let d := { d with faults := { d.faults with
      active := d.faults.active.filter (fun s => !(gone s.code s.source)),
      held := d.faults.held.filter (fun s => !(gone s.1.code s.1.source)),
      queue := d.faults.queue.filter (fun s => !(gone s.code s.source)) } }
  d.raiseQ ev

/-! ### Points of the signal image (R78 to R85) -/

/-- Insertion into a rising list of numbers. -/
def insNat (k : Nat) : List Nat → List Nat
  | [] => [k]
  | j :: m => if k < j then k :: j :: m else if j = k then j :: m else j :: insNat k m

/-- The 16 bytes of a record (Table 3.1). -/
def Point.bytes (p : Point) : List Byte :=
  Bits.le 8 p.value.toNat ++ Bits.le 4 p.stamp.toNat ++ [p.quality, p.typ] ++ Bits.le 2 p.source.toNat

/-- A record read from 16 bytes. -/
def pointOf (bs : List Byte) : Point :=
  { value := BitVec.ofNat 64 (Bits.at' bs 0 8), stamp := Bits.wordAt bs 8, quality := bs.getD 12 0, typ := bs.getD 13 0,
    source := BitVec.ofNat 16 (Bits.at' bs 14 2) }

/-- A record with the bits of a mask turned over. -/
def Point.flip (m : Nat) (p : Point) : Point := pointOf (List.zipWith (fun a b => a ^^^ b) p.bytes (Bits.le 16 m))

/-- The error-correcting code corrects one wrong bit; with more it can only tell (R104). -/
def uncorrectable (m : Nat) : Bool := decide (2 ≤ ((Bits.upTo 128).filter (fun i => m.testBit i)).length)

/-- The bits that stand wrong and unfound in a record. -/
def Dev.struckAt (d : Dev) (i : Nat) : Nat := Bits.get (fun _ => 0) d.image.struck i

/-- The record that a reader gets of the stored record p: one with an uncorrectable error reads BAD, its other bytes as they
are read; one wrong bit is corrected (R104). -/
def Dev.asRead (d : Dev) (i : Nat) (p : Point) : Point :=
  let m := d.struckAt i
  if d.image.bad.contains i || uncorrectable m then { (if m = 0 then p else p.flip m) with quality := 3 } else p

/-- The record held at an index, the live one, as it is read. -/
def Dev.pt (d : Dev) (i : Nat) : Point := d.asRead i (Bits.get (fun _ => ({} : Point)) d.image.live i)

/-- The record of the snapshot taken at t0 (R17). -/
def Dev.snapPt (d : Dev) (i : Nat) : Point := Bits.get (fun _ => ({} : Point)) d.image.snap i

/-- Points of a subscribe context (R92): the ranges of a point stream, the targets of a fixed layout. -/
def flowPoints (payload : List Byte) : List Nat :=
  let n := Bits.byteAt payload 33
  if Bits.byteAt payload 1 = 0 then
    (Bits.upTo n).flatMap (fun e =>
      (Bits.upTo (Bits.at' payload (40 + 8 * e) 2)).map (fun k => Bits.at' payload (36 + 8 * e) 4 + k))
  else (Bits.upTo n).map (fun e => Bits.at' payload (40 + 8 * e) 4)

/-- Whether a FLOW_OPEN payload covers an index. -/
def flowCovers (payload : List Byte) (i : Nat) : Bool :=
  let n := Bits.byteAt payload 33
  if Bits.byteAt payload 1 = 0 then
    (Bits.upTo n).any (fun e => decide (Bits.at' payload (36 + 8 * e) 4 ≤ i) &&
      decide (i < Bits.at' payload (36 + 8 * e) 4 + Bits.at' payload (40 + 8 * e) 2))
  else (Bits.upTo n).any (fun e => Bits.at' payload (40 + 8 * e) 4 == i)

/-- The open subscribe context that claims an index (R84). -/
def Dev.claimant (d : Dev) (i : Nat) : Option Nat :=
  (d.flows.ctxs.find? (fun p => p.2.state != 0 && Bits.byteAt p.2.payload 0 == 0 && flowCovers p.2.payload i)).map Prod.fst

/-- An enabled CAN receive mapping owns the index (R369). -/
def Dev.mapped (d : Dev) (i : Nat) : Option Nat :=
  ((d.cfg.committed.filter (fun p => p.1 / 65536 == 0x24 && decide (0x800 ≤ p.1 % 65536) && p.1 % 4 == 2 &&
    p.2.toNat == i)).map (fun p => (p.1 % 65536 - 0x800) / 4)).find? (fun e => (d.par 0x24 (0x800 + 4 * e)).getLsbD 15)

/-- An index of the assignable ranges (Table 3.5). -/
def assignable (i : Nat) : Bool := (decide (5632 ≤ i) && decide (i ≤ 6143)) || (decide (16384 ≤ i) && decide (i ≤ 131071))

/-- The index is host-owned (R84). -/
def Dev.hostOwned (d : Dev) (i : Nat) : Bool :=
  decide (16384 ≤ i) && decide (i ≤ 131071) && (d.claimant i).isNone && (d.mapped i).isNone

/-- The index is reserved (R83, R84). -/
def Dev.reserved (d : Dev) (i : Nat) : Bool :=
  (decide (512 ≤ i) && decide (i ≤ 1023)) || (decide (6656 ≤ i) && decide (i ≤ 16383)) || decide (131072 ≤ i) ||
    (decide (5632 ≤ i) && decide (i ≤ 6143) && (d.claimant i).isNone && (d.mapped i).isNone)

/-- The unit in control marks an assignable point whose record changes, for the mirror (R103). -/
def Dev.markPt (i : Nat) (d : Dev) : Dev :=
  if assignable i && d.clasp.role.inControl && (d.mapped i).isNone then
    { d with image := { d.image with marks := insNat i d.image.marks } }
  else d

/-- A record is written as one unit. The owner's write ends an uncorrectable mark (R104), and the unit in control marks
an assignable point that changes for the mirror (R103). -/
def Dev.setPt (i : Nat) (p : Point) (d : Dev) : Dev :=
  let d := if p = Bits.get (fun _ => ({} : Point)) d.image.live i then d else d.markPt i
  { d with image := { d.image with
      live := Bits.put (fun _ => ({} : Point)) d.image.live i p,
      bad := d.image.bad.filter (fun j => j != i),
      struck := Bits.put (fun _ => 0) d.image.struck i 0,
      watches := d.image.watches.map (fun w => if w.index = i then { w with wrote := true } else w) } }

/-- A value of Table 3.2 in bytes 0-3, zero in bytes 4-7. -/
def val32 (w : Word) : DWord := w.zeroExtend 64

/-- A FIX32 value: raw value and fraction bits. -/
def valFix (n : Nat) (raw : Int) : DWord := (Bits.word32 raw).zeroExtend 64 ||| (BitVec.ofNat 64 n <<< 32)

/-- A block writes one of its points: block code as SOURCE (Table 3.4). -/
def Dev.post (block i typ : Nat) (value : DWord) (stamp : Word) (quality : Nat) (d : Dev) : Dev :=
  d.setPt i { value := value, stamp := stamp, quality := BitVec.ofNat 8 quality, typ := BitVec.ofNat 8 typ,
              source := BitVec.ofNat 16 block }

/-- UINT32 point. -/
def Dev.postU (block i n : Nat) (stamp : Word) (d : Dev) : Dev := d.post block i 3 (val32 (BitVec.ofNat 32 n)) stamp 0

/-- INT32 point. -/
def Dev.postI (block i : Nat) (v : Int) (stamp : Word) (d : Dev) : Dev := d.post block i 2 (val32 (Bits.word32 v)) stamp 0

/-- FIX32 point. -/
def Dev.postF (block i n : Nat) (raw : Int) (stamp : Word) (d : Dev) : Dev := d.post block i 4 (valFix n raw) stamp 0

/-- BOOL point. -/
def Dev.postB (block i : Nat) (b : Bool) (stamp : Word) (d : Dev) : Dev :=
  d.post block i 1 (val32 (BitVec.ofNat 32 (Bits.b2n b))) stamp 0

/-- The rank of a quality (Table 3.3). -/
def qRank (q : Nat) : Nat :=
  if q = 0 then 0 else if q = 1 then 4 else if q = 2 then 1 else if q = 3 then 5 else if q = 4 then 2 else 3

/-- The module degrades a point: its quality is written only if it ranks higher (R80). -/
def Dev.degrade (i q : Nat) (d : Dev) : Dev :=
  let p := d.pt i
  if qRank p.quality.toNat < qRank q then d.setPt i { p with quality := BitVec.ofNat 8 q } else d

/-! ### Replies (R41, R44, R50) -/

/-- A host interrupt: the status bit, and the vector where it is not masked (R51). -/
def Dev.irq (v : Nat) (d : Dev) : Dev :=
  let p := d.cmd.trans.pcie
  let d := { d with cmd := { d.cmd with trans := { d.cmd.trans with
    pcie := { p with irqStatus := p.irqStatus ||| BitVec.ofNat 3 (2 ^ v) } } } }
  if p.irqMask.getLsbD v then d else d.emit (.irq v)

/-- A transport error is counted and raised (event 0205h). -/
def Dev.transportError (tr : Transport) (cause n : Nat) (d : Dev) : Dev :=
  let k := 8 * trCode tr + cause
  let c := Bits.get (fun _ => 0) d.cmd.trans.errs k + n
  let d := { d with cmd := { d.cmd with trans := { d.cmd.trans with
    errs := Bits.put (fun _ => 0) d.cmd.trans.errs k c } } }
  d.raise 0x0205 1 (Bits.le 1 (trCode tr) ++ Bits.le 1 cause ++ Bits.le 4 c)

/-- The rings can be used: enabled by field and register, the unit ready (R51, R495). -/
def Dev.ringUp (d : Dev) : Bool := d.parB 1 0x20 && d.cmd.trans.pcie.enable && d.life.ready

/-- Where slot n of a ring of `slots` slots lies in host memory (R52). -/
def slotAddr (lo hi slots n : Word) : Nat := lo.toNat + hi.toNat * 2 ^ 32 + n.toNat % slots.toNat * 16416

/-- UDP is up: enabled, and one of its interfaces has an enabled port with link (Table 2.7). -/
def Dev.udpUp (d : Dev) : Bool :=
  d.parB 1 0x22 && ((Bits.upTo 2).any (fun i => (d.par 1 0x24).getLsbD i &&
    (d.net.ports.getD (2 + i) {}).enabled && (d.net.ports.getD (2 + i) {}).link))

/-- A transport is down: its replies cannot be delivered (R50). -/
def Dev.transportDown (d : Dev) : Transport → Bool
  | .pcie => !(d.parB 1 0x20 && d.cmd.trans.pcie.enable)
  | .spi => !(d.parB 1 0x21) || d.hw.vioOut.getLsbD 2
  | .udp => !d.udpUp

/-- A tag is free again (R44). -/
def Dev.freeTag (tag : BitVec 6) (d : Dev) : Dev :=
  { d with cmd := { d.cmd with tags := d.cmd.tags.filter (fun p => p.req.tag != tag) } }

/-- A reply enters the reply queue, or is held until space (Table 1.4); a final one frees its tag once queued (R44). -/
def Dev.queueReply (r : Reply) (d : Dev) : Dev :=
  if d.cmd.held.isEmpty then
    let (ok, d, ev) := d.qPush 1
    let d := if ok then { d with cmd := { d.cmd with replyQ := d.cmd.replyQ ++ [r] } }
             else { d with cmd := { d.cmd with held := [r] } }
    let d := if ok && r.final then d.freeTag r.tag else d
    d.raiseQ ev
  else { d with cmd := { d.cmd with held := d.cmd.held ++ [r] } }

/-- The reply of a request: its flags, status, argument and payload (R41). -/
def Dev.answer (op : Byte) (q : Req) (rflags : Byte) (status rarg : Half) (payload : List Byte) (d : Dev) : Dev :=
  d.queueReply { src := q.src, bytes := replyBytes op q.tag rflags status rarg payload,
                 final := rflags.getLsbD 0, op := op, tag := q.tag, hcrc := q.hcrc op, pcrc := q.pcrc }

/-- One reply leaves, stays, or is dropped because its transport is down (R50, R52, R55). True: it has left the queue. -/
def Dev.deliverOne (r : Reply) (d : Dev) : Bool × Dev :=
  if d.transportDown r.src.tr then (true, d.transportError r.src.tr 2 1)
  else match r.src.tr with
    | .spi => (false, d)
    | .udp =>
      let d := d.emit (.udpReply r.src.ip r.src.port r.bytes)
      (true, if r.final then { d with cmd := { d.cmd with trans := { d.cmd.trans with
          kept := d.cmd.trans.kept ++ [{ reply := r, expires := d.time.now + 1000000 * d.parN 1 0x29 }] } } } else d)
    | .pcie =>
      let p := d.cmd.trans.pcie
      if d.ringUp && !p.rplError && p.rplSlots != 0 && decide ((p.rplProducer - p.rplConsumer).toNat < p.rplSlots.toNat) then
        let d := { d with cmd := { d.cmd with trans := { d.cmd.trans with
          pcie := { p with rplProducer := p.rplProducer + 1 } } } }
        (true, (d.emit (.pcieReply (slotAddr p.rplBaseLo p.rplBaseHi p.rplSlots p.rplProducer) r.bytes)).irq 0)
      else (false, d)

/-- Replies leave the queue in order, each as its transport allows; one that waits holds up only its own transport. -/
def Dev.deliverAll : List Reply → List Reply → Dev → Dev
  | [], kept, d => { d with cmd := { d.cmd with replyQ := kept } }
  | r :: rs, kept, d =>
    if kept.any (fun k => k.src.tr == r.src.tr) then Dev.deliverAll rs (kept ++ [r]) d
    else
      let (gone, d) := d.deliverOne r
      if gone then
        let (d, ev) := d.qRead 1 1
        Dev.deliverAll rs kept (d.raiseQ ev)
      else Dev.deliverAll rs (kept ++ [r]) d

/-- The reply queue is read by the transports that can take a reply; an access that finds the pointers apart loses the
replies (R34). -/
def Dev.deliver (d : Dev) : Dev :=
  if d.cmd.replyQ.isEmpty then d
  else
    let (d, ev) := d.qCheck 1
    let d := d.raiseQ ev
    Dev.deliverAll d.cmd.replyQ [] d

/-! ### Completion of requests (R45, R75) -/

/-- The pending request of a tag. -/
def Dev.pend (d : Dev) (tag : BitVec 6) : Option Pend := d.cmd.tags.find? (fun p => p.req.tag == tag)

/-- A pending request changed. -/
def Dev.modPend (tag : BitVec 6) (f : Pend → Pend) (d : Dev) : Dev :=
  { d with cmd := { d.cmd with tags := d.cmd.tags.map (fun p => if p.req.tag == tag then f p else p) } }

/-- A request has its final reply, which leaves when no earlier request holds its resource (R46). -/
def Dev.finish (tag : BitVec 6) (f : Fin) (d : Dev) : Dev :=
  d.modPend tag (fun p => match p.done with | some _ => p | none => { p with done := some f })

/-- The numbers of the DONE bits (Table 2.13): a member's own identifier; for flow contexts, which go beyond 63, a member's
place among the members in ascending context (DESIGN CHOICE, notes/assumptions/96.md). -/
def doneBits (kind : Nat) (ms : List (Nat × Half)) : Nat :=
  Bits.bitsOf ((ms.zipIdx.filter (fun m => m.1.2 == stOk)).map (fun m => if kind = 3 then m.2 else m.1.1))

/-- The PARTIAL payload (Table 2.13): at most 64 members. -/
def partialPayload (kind : Nat) (ms : List (Nat × Half)) : List Byte :=
  let ms := ms.take 64
  Bits.pad4 (Bits.le 1 ms.length ++ Bits.le 1 kind ++ [0, 0] ++ Bits.le 8 (doneBits kind ms) ++
    ms.flatMap (fun m => Bits.le 2 m.2.toNat))

/-- The final reply of a fan-out whose members all have a result, in ascending member (R75). -/
def fanFin (kind : Nat) (ms : List (Nat × Half)) (okRarg : Half) (okPayload : List Byte) : Fin :=
  let bad := ms.filter (fun m => m.2 != stOk)
  if bad.isEmpty then { status := stOk, rarg := okRarg, payload := okPayload }
  else if bad.length = ms.length then { status := (ms.head?.map Prod.snd).getD stTimeout }
  else { status := stPartial, rarg := BitVec.ofNat 16 bad.length, payload := partialPayload kind ms }

/-- Event 0204h of a PARTIAL result (Table 2.14). -/
def Dev.partialEvent (op : Byte) (kind : Nat) (ms : List (Nat × Half)) (d : Dev) : Dev :=
  d.raise 0x0204 0 ([op] ++ Bits.le 1 (ms.filter (fun m => m.2 != stOk)).length ++ Bits.le 4 (doneBits kind ms))

/-- A fan-out ends: its final reply, with 0204h where it is PARTIAL. -/
def Dev.finishFan (tag : BitVec 6) (op : Byte) (kind : Nat) (ms : List (Nat × Half)) (d : Dev) : Dev :=
  let f := fanFin kind ms 0 []
  let d := d.finish tag f
  if f.status = stPartial then d.partialEvent op kind ms else d

/-- A member of a fan-out has its result; with the last one the request ends (R75). -/
def Dev.member (tag : BitVec 6) (kind m : Nat) (st : Half) (d : Dev) : Dev :=
  let d := d.modPend tag (fun p => { p with members := p.members.map (fun x =>
    if x.1 == m && x.2.isNone then (x.1, some st) else x) })
  match d.pend tag with
  | none => d
  | some p =>
    if p.done.isSome || p.members.any (fun x => x.2.isNone) then d
    else d.finishFan tag p.op kind (p.members.map (fun x => (x.1, x.2.getD stTimeout)))

/-! ### The answer of an operation (Table 2.4 steps 7 and 8, R45) -/

/-- How a started request is answered: at once; ACCEPTED with a limit in ns (R48); ACCEPTED and standing (R90); or as a
fan-out over members with the results already known (R75), `kind` as in Table 2.13. -/
inductive Ans where
  | fin (f : Fin)
  | defer (limit : Option Nat)
  | stand
  | fan (kind : Nat) (members : List (Nat × Option Half)) (limit : Option Nat)
deriving DecidableEq, Repr

/-- An operation's answer and the state it leaves. -/
structure OpRes where
  dev : Dev
  ans : Ans

/-- Refused with a status and its argument: nothing has changed. -/
def refuse (d : Dev) (status : Half) (rarg : Nat := 0) : OpRes :=
  { dev := d, ans := .fin { status := status, rarg := BitVec.ofNat 16 rarg } }

/-- OK with a payload. -/
def reads (d : Dev) (payload : List Byte) : OpRes := { dev := d, ans := .fin { status := stOk, payload := payload } }

/-- OK with an argument. -/
def done (d : Dev) (rarg : Nat := 0) (payload : List Byte := []) : OpRes :=
  { dev := d, ans := .fin { status := stOk, rarg := BitVec.ofNat 16 rarg, payload := payload } }

/-- ACCEPTED, to be finished later. -/
def deferred (d : Dev) (limit : Option Nat) : OpRes := { dev := d, ans := .defer limit }

/-! ### Fields of foreign frames (R94, R369) -/

/-- A field of a payload: byte offset, type code, fraction bits or bit number, byte order. None: the frame is too short. -/
def readField (bs : List Byte) (off typ n : Nat) (big : Bool) : Option DWord :=
  if typ = 1 then
    if off < bs.length then some (val32 (BitVec.ofNat 32 (Bits.b2n ((bs.getD off 0).getLsbD n)))) else none
  else if off + 4 ≤ bs.length then
    let raw := (bs.drop off).take 4
    let w := Bits.fromLe (if big then raw.reverse else raw)
    some (if typ = 4 then valFix n (BitVec.ofNat 32 w).toInt else val32 (BitVec.ofNat 32 w))
  else none

end Sys2Proof.Machine
end

