-- ==== Sys2Proof/Machine/Locket.lean ====
section
/-! DEFINITION. Machine/Locket.lean: the store, its commits, reading, markers and erase (16). -/

namespace Sys2Proof.Machine

open Sys2Proof

/-- Slots that ordinary records may take (R470). -/
def ordinarySlots : Nat := 1572800
/-- All slots (R470). -/
def allSlots : Nat := 1572864

/-- Slots in use. -/
def LocketStore.used (s : LocketStore) : Nat := s.committed + 1 - s.firstHeld

/-- A record written in the next slot takes the next sequence number (R469). -/
def LocketStore.append (r : Rec) (s : LocketStore) : LocketStore :=
  { s with records := s.records ++ [{ seq := s.committed + 1, entry := r }], committed := s.committed + 1 }

/-- An entry that may use the reserve: a CRITICAL one of the priority lane, or 0D12h (R470). -/
def Rec.reserve (r : Rec) : Bool := (r.lflags.getLsbD 4 && r.sev == 4) || r.code == 0x0D12

/-- A refused entry is counted (R470). -/
def LocketStore.refuseOne (s : LocketStore) : LocketStore := { s with refused := Bits.sat 0xFFFFFFFF (s.refused + 1) }

/-- The store replaced. -/
def Dev.setStore (s : LocketStore) (d : Dev) : Dev := { d with nvm := { d.nvm with store := s } }

/-- A write when the store is full: the reserve, or refused (R470). -/
def Dev.storeFull (r : Rec) (d : Dev) : Dev :=
  let s := d.nvm.store
  if r.reserve && decide (s.reserveUsed < 63) then
    d.setStore { s.append r with reserveUsed := s.reserveUsed + 1 }
  else d.setStore s.refuseOne

/-- 1002h, once, when the slots in use exceed NEAR_FULL (R471). -/
def Dev.nearFull (d : Dev) : Dev :=
  let s := d.nvm.store
  if !s.nearFullRaised && decide (d.parN 0x34 3 * ordinarySlots < 100 * s.used) then
    (d.setStore { s with nearFullRaised := true }).raise 0x1002 1 (Bits.le 4 s.used)
  else d

/-- One entry is written to the store (R469 to R471): the FULL record first where slot 1,572,800 is next. -/
def Dev.storeWrite (r : Rec) (d : Dev) : Dev :=
  let s := d.nvm.store
  if s.full then d.storeFull r
  else if ordinarySlots ≤ s.used then
    let d := d.setStore { s.append (d.record 0 0x1003 1 0 []) with full := true }
    let (d, ev) := d.faultTake 0x1003 0 1
    (d.raiseQ ev).storeFull r
  else
    (d.setStore (s.append r)).nearFull

/-- The priority lane is written, oldest first (R464). -/
def Dev.laneWrite (d : Dev) : Dev :=
  d.locket.lane.foldl (fun x r => x.storeWrite r) { d with locket := { d.locket with lane := [] } }

/-- Entries leave the front queue for the store in order, at most n; what a write raises joins the same queue (R469). -/
def Dev.locketDrain : Nat → Dev → Dev
  | 0, d => d
  | n + 1, d =>
    match d.locket.front with
    | [] => d
    | r :: rest =>
      let (d, ev) := d.qRead 2 1
      if !ev.isEmpty then d.raiseQ ev
      else Dev.locketDrain n (({ d with locket := { d.locket with front := rest } } : Dev).storeWrite r)

/-- The tail slot's commits from the front queue, at most n (R469); a full store empties the queue (R470). -/
def Dev.locketCommit (n : Nat) (d : Dev) : Dev :=
  ({ d with locket := { d.locket with broughtForward := false } } : Dev).locketDrain n

/-- The summary of a code's suppressed occurrences (R467). -/
def summaryOf (b : Bucket) (r : Rec) : Rec :=
  { r with sev := b.maxSev, lflags := r.lflags ||| 0x08,
           data := Bits.le 4 b.suppressed ++ Bits.le 4 ((b.lastAt - b.firstAt) / 1000000) }

/-- The bucket's tick: refill, then a waiting summary (R465, R467, Table 16.5). -/
def Dev.bucketTick (code : Nat) (d : Dev) : Dev :=
  let b := d.bucket code
  let b := { b with units := Bits.sat (d.capOf code) (b.units + d.rateOf code) }
  match b.last with
  | some r =>
    if 0 < b.suppressed ∧ 50 ≤ b.units ∧ d.frontHas code < 32 ∧ d.locket.front.length < 256 then
      let d := d.setBucket code { units := b.units - 50 }
      let (d, ev) := d.frontPush (summaryOf b r)
      d.raiseQ ev
    else d.setBucket code b
  | none => d.setBucket code b

/-- Every bucket's tick (R465). -/
def Dev.locketTick (d : Dev) : Dev :=
  let d := { d with locket := { d.locket with
    markers := 0, base := Bits.sat (50 * d.parN 0x34 2) (d.locket.base + d.parN 0x34 1) } }
  (d.locket.buckets.map Prod.fst).foldl (fun x c => x.bucketTick c) d

/-- The codes that overrides name get buckets of their own, with the units they hold. -/
def Dev.listOverrides (d : Dev) : Dev :=
  (Bits.upTo 32).foldl (fun x e =>
    let c := x.parN 0x34 (0x10 + 2 * e)
    if c = 0 then x else x.setBucket c (x.bucket c)) d

/-- Every bucket starts full at start-up (R465). -/
def Dev.locketStart (d : Dev) : Dev :=
  let d := { d with locket := { d.locket with buckets := [], base := 50 * d.parN 0x34 2 } }
  (Bits.upTo 32).foldl (fun x e =>
    let c := x.parN 0x34 (0x10 + 2 * e)
    if c = 0 then x else x.setBucket c { units := x.capOf c }) d

/-- After a commit of table LOCKET every bucket keeps its units, capped at the new capacity (R479). -/
def Dev.locketCap (d : Dev) : Dev :=
  let d := d.listOverrides
  ({ d with locket := { d.locket with
      base := Bits.sat (50 * d.parN 0x34 2) d.locket.base,
      buckets := d.locket.buckets.map (fun p => (p.1, { p.2 with units := Bits.sat (d.capOf p.1) p.2.units })) } } : Dev).nearFull

/-- LOST_RECORD: the loss latch enters the front queue once an entry is free (R468). -/
def Dev.lostRecord (d : Dev) : Dev :=
  match d.locket.lostFirst with
  | some f =>
    if 0 < d.locket.lostCount ∧ d.locket.front.length < 256 then
      let r : Rec := { f with code := 0x1001, source := 0, sev := 1, lflags := f.lflags &&& 0x07,
                              data := Bits.le 4 d.locket.lostCount ++ [1, 0, 0, 0] }
      let d := { d with locket := { d.locket with lostCount := 0, lostFirst := none } }
      let (d, ev) := d.frontPush r
      let d := d.raiseQ ev
      let (d, ev) := d.faultTake 0x1001 0 1
      d.raiseQ ev
    else d
  | none => d

/-- Records found uncorrectable are marked, and each raises 1005h once (R472). -/
def Dev.recordsBad (bad : List Nat) (d : Dev) : Dev :=
  let s := d.nvm.store
  let new := (s.records.filter (fun x => bad.contains x.seq && !x.corrupt)).map Stored.seq
  let d := d.setStore { s with
    struck := s.struck.filter (fun x => !bad.contains x),
    records := s.records.map (fun x => if bad.contains x.seq then { x with corrupt := true } else x) }
  new.foldl (fun x q => x.raise 0x1005 3 (Bits.le 4 q)) d

/-- LOCKET_SCRUB: the whole store is read (R472). -/
def Dev.locketScrub (bad : List Nat) (d : Dev) : Dev := d.recordsBad (bad ++ d.nvm.store.struck)

/-- Slots that have gone wrong since the last tick, unread so far (R472). -/
def Dev.locketStrike (l : List Nat) (d : Dev) : Dev :=
  let s := d.nvm.store
  d.setStore { s with struck := s.struck ++ (s.records.filter (fun x => l.contains x.seq && !s.struck.contains x.seq)).map Stored.seq }

/-- OP_SECONDS_WRITE (R463). -/
def Dev.opWrite (d : Dev) : Dev := { d with nvm := { d.nvm with opWritten := d.opSeconds } }

/-! ### Reading (R473 to R475) -/

/-- A record in the native format (Table 16.1). -/
def Stored.native (x : Stored) : List Byte :=
  let r := x.entry
  Bits.le 4 x.seq ++ Bits.le 8 r.cal.toNat ++ Bits.le 4 r.opSec ++ Bits.le 2 r.cycles ++ Bits.le 2 r.code ++
    Bits.le 2 r.source ++ Bits.le 1 r.sev ++ [if x.corrupt then r.lflags ||| 0x20 else r.lflags] ++ Bits.fit 8 r.data

/-- HT_LEVEL (Table 16.4). -/
def htLevel (sev : Nat) : Nat := if sev = 0 then 0 else if sev = 1 then 1 else if sev ≤ 3 then 2 else 3

/-- A record in the HT-300 format (Table 16.4). -/
def Stored.ht300 (x : Stored) : List Byte :=
  let r := x.entry
  let b := Bits.le 4 r.opSec ++ Bits.le 2 r.cycles ++ Bits.le 2 r.code ++ Bits.le 1 (htLevel r.sev) ++
    Bits.le 1 (flagBits [r.lflags.getLsbD 0, r.lflags.getLsbD 3]) ++ Bits.fit 8 r.data ++ Bits.le 2 x.seq ++ [0, 0]
  b ++ Bits.le 2 (b.foldl (fun a c => a + c.toNat) 0)

/-- The largest EVENT_READ count (Table 16.2). -/
def maxEvents (tr : Transport) (format : Nat) : Nat :=
  match tr with
  | .udp => if format = 0 then 43 else 57
  | _ => if format = 0 then 511 else 681

/-- The records taken from those examined: at most `n` of at least the severity; with them the records examined. -/
def takeEvents (sev : Nat) : List Stored → Nat → List Stored × Nat
  | [], _ => ([], 0)
  | x :: xs, n =>
    if n = 0 then ([], 0)
    else if sev ≤ x.entry.sev then
      let (l, k) := takeEvents sev xs (n - 1)
      (x :: l, k + 1)
    else
      let (l, k) := takeEvents sev xs n
      (l, k + 1)

/-- The sequence number a read starts at: TARGET, but FIRST_HELD where that lies before it (R474). -/
def LocketStore.readFrom (s : LocketStore) (seq : Nat) : Nat :=
  ((s.firstHeld : Int) + Bits.clampI 0 (2 ^ 31) (Bits.diff32 seq s.firstHeld)).toNat

/-- The records that a read from a sequence number may examine (R474). -/
def LocketStore.window (s : LocketStore) (seq : Nat) : List Stored :=
  (s.records.filter (fun x => decide (s.readFrom seq ≤ x.seq))).take 4096

/-- The payload of EVENT_READ from a sequence number: at most n records of severity sev or above (R473 to R475). -/
def LocketStore.readout (s : LocketStore) (seq n fmt sev : Nat) : List Byte :=
  let before := decide (Bits.diff32 seq s.firstHeld < 0)
  let start := s.readFrom seq
  let (l, k) := takeEvents sev (s.window seq) n
  let flags := flagBits [s.full, before, fmt == 1, decide (0 < s.reserveUsed)]
  Bits.le 4 s.firstHeld ++ Bits.le 4 s.committed ++ Bits.le 4 (start + k) ++ Bits.le 2 l.length ++
    Bits.le 1 flags ++ Bits.le 1 (100 * s.used / allSlots) ++ Bits.le 4 s.refused ++ Bits.zeros 4 ++
    l.flatMap (fun x => if fmt = 0 then x.native else x.ht300)

/-- EVENT_READ (R473, R474). -/
def Dev.eventReadOp (r : Req) (d : Dev) : OpRes :=
  let n := Bits.at' r.payload 0 2
  let fmt := Bits.byteAt r.payload 2
  let sev := Bits.byteAt r.payload 3
  if 1 < fmt ∨ 4 < sev then refuse d stRange
  else if maxEvents r.src.tr fmt < n then
    refuse d stBadLength (24 + maxEvents r.src.tr fmt * (if fmt = 0 then 32 else 24))
  else
    let n := if n = 0 then maxEvents r.src.tr fmt else n
    let seen := (d.nvm.store.window r.tgt).take (takeEvents sev (d.nvm.store.window r.tgt) n).2
    let d := d.recordsBad (d.nvm.store.struck.filter (fun q => seen.any (fun x => x.seq == q)))
    reads d (d.nvm.store.readout r.tgt n fmt sev)

/-! ### Markers and erase (R476, R477) -/

/-- A marker is written through the priority lane, whose older entries go first (R464, R476). -/
def Dev.eventMarkOp (r : Req) (d : Dev) : OpRes :=
  let code := r.tgt
  if code < 0x1080 ∨ 0x10FE < code then refuse d stRange
  else if d.nvm.store.full || decide (16 ≤ d.locket.markers) then refuse d stBusy
  else
    let d := d.laneWrite
    let m := { d.record 2 code 0 (trCode r.src.tr) r.payload with lflags := (d.record 2 code 0 0 []).lflags ||| 0x10 }
    let d := d.storeWrite m
    if d.nvm.store.full then refuse d stBusy
    else
    let d := { d with locket := { d.locket with markers := d.locket.markers + 1 } }
    done d (d.nvm.store.committed % 65536)

/-- The erase of the store (R477): `permit` is the latched ERASE_PERMIT. -/
def Dev.eventEraseOp (permit : Bool) (r : Req) (d : Dev) : OpRes :=
  let s := d.nvm.store
  if d.life.state ≠ .maintain then refuse d stLife 3
  else if !permit then refuse d stSealed
  else if Bits.at' r.payload 0 4 != s.firstHeld % 2 ^ 32 || Bits.at' r.payload 4 4 != s.committed % 2 ^ 32 then refuse d stRange
  else
    let s1 : LocketStore := { firstHeld := s.committed + 1, committed := s.committed }
    let e := d.record 0 0x1004 0 0 (Bits.le 4 s.firstHeld ++ Bits.le 4 s.committed)
    let s2 := s1.append e
    let s3 := if s.refused = 0 then s2
      else s2.append (d.record 0 0x1001 1 0 (Bits.le 4 s.refused ++ [2]))
    let d := d.setStore s3
    let (d, ev) := d.faultTake 0x1004 0 0
    let d := d.raiseQ ev
    let (d, ev) := if s.refused = 0 then (d, []) else d.faultTake 0x1001 0 1
    done (d.raiseQ ev) (s2.committed % 65536)

end Sys2Proof.Machine
end

