-- ==== Sys2Proof/Machine/Health.lean ====
section
/-! DEFINITION. Machine/Health.lean: temperature sites and the diode, throttling, thermal shutdown, self-test, the fault
manager, the thermal record and the health points (15). Temperatures are in 1/16 °C. -/

namespace Sys2Proof.Machine

open Sys2Proof

/-- A site. -/
def Dev.site (d : Dev) (s : Nat) : Site := d.health.sites.getD s {}

/-- A site changed. -/
def Dev.modSite (s : Nat) (f : Site → Site) (d : Dev) : Dev :=
  { d with health := { d.health with sites := Bits.modAt d.health.sites s f } }

/-- Sites that have failed, rising. -/
def Dev.failedSites (d : Dev) : List Nat := (Bits.upTo 24).filter (fun s => (d.site s).failed.isSome)

/-- Sites that are valid, rising. -/
def Dev.validSites (d : Dev) : List Nat := (Bits.upTo 24).filter (fun s => (d.site s).failed.isNone)

/-- A reading as INT16, 8000h where there is none. -/
def temp16 (t : Option Int) : List Byte := match t with | some x => Bits.leI 2 x | none => Bits.le 2 0x8000

/-- A site fails (R435 to R437): event 0F05h. -/
def Dev.failSite (s cause : Nat) (d : Dev) : Dev :=
  if (d.site s).failed.isSome then d
  else
    let d := if d.failedSites.isEmpty then { d with health := { d.health with recheckAt := d.time.now } } else d
    let d := d.modSite s (fun x => { x with failed := some cause, failedAt := d.time.now, hotAgo := none })
    d.raiseI 0x0F05 2 s (Bits.le 1 s ++ Bits.le 1 cause ++ temp16 (d.site s).last ++ temp16 d.health.diode)

/-- A test in progress is ABORTED (R449). -/
def Dev.abortTest (d : Dev) : Dev :=
  match d.health.test with
  | some t =>
    if t.running && !t.done then
      { d with health := { d.health with
          test := none, tests := Bits.modAt d.health.tests t.domain (fun (r : TestRec) => { r with result := 3 }) } }
    else d
  | none => d

/-- The shutdown is decided (R442, R443): the record goes straight to MRAM; a CRITICAL event fences at raise. -/
def Dev.shutdown (site : Nat) (reading : Option Int) (d : Dev) : Dev :=
  if d.health.decided.isSome then d
  else
    let d := d.abortTest
    let d := { d with
      health := { d.health with decided := some d.time.now, diodeUse := .none, restartOk := d.parB 0x30 5 },
      nvm := { d.nvm with shutdowns := d.opSeconds :: d.nvm.shutdowns, shutdownsAll := d.nvm.shutdownsAll + 1 } }
    (d.raiseI 0x0F08 4 (if site < 24 then site else 0)
      (Bits.le 1 site ++ temp16 reading ++ temp16 d.health.diode)).laneWrite

/-! ### Site readings (R434, R435, R442) -/

/-- The reading of a counted frequency (R434), held to 1/16 °C toward minus infinity. -/
def Dev.siteTemp (d : Dev) (s hz : Nat) : Int :=
  let f25 := d.parN 0x30 (0x10 + 4 * s)
  let slope := d.parI 0x30 (0x11 + 4 * s)
  let num := 16 * ((hz : Int) - 1000 * (f25 : Int))
  400 + (if slope < 0 then (-num) / (-slope) else num / slope)

/-- One reading of one site (R434, R435). -/
def Dev.readSite (s hz : Nat) (d : Dev) : Dev :=
  let t := d.siteTemp s hz
  let x := d.site s
  let jump := match x.last with | some l => decide (64 < Bits.absI (t - l)) | none => false
  let badR := hz = 0 || decide (t < -800) || decide (2400 < t) || jump
  let d := d.modSite s (fun x => { x with
    sum := x.sum + t, count := x.count + 1, last := some t, streak := if badR then x.streak + 1 else 0,
    plausibleSince := if badR || x.last.isNone then d.time.now else x.plausibleSince })
  if 3 ≤ (d.site s).streak then d.failSite s 1 else d

/-- The valid sites whose reading of this sub-tick is at least 125 °C. -/
def Dev.hotSites (d : Dev) : List Nat :=
  d.validSites.filter (fun s => match (d.site s).last with | some t => decide (2000 ≤ t) | none => false)

/-- The age of a site's hot reading at the end of a sub-tick: it counts for the two that follow (R442). -/
def nextHot (hot : Bool) : Option Nat → Option Nat
  | some 0 => some 1
  | _ => if hot then some 0 else none

/-- With the diode failed: two valid sites within 2 ms decide, a lone one fails (R442). -/
def Dev.hotNoDiode (hot : List Nat) (d : Dev) : Dev :=
  let recent := d.validSites.filter (fun s => (d.site s).hotAgo.isSome || hot.contains s)
  if 2 ≤ recent.length then
    let s := hot.headD (recent.headD 0)
    d.shutdown s (d.site s).last
  else d.validSites.foldl (fun x s => if (x.site s).hotAgo = some 1 then x.failSite s 2 else x) d

/-- The hot readings of a sub-tick are noted for the two that follow. -/
def Dev.noteHot (hot : List Nat) (d : Dev) : Dev :=
  { d with health := { d.health with
      sites := d.health.sites.zipIdx.map (fun (x : Site × Nat) =>
        { x.1 with hotAgo := if x.1.failed.isSome then none else nextHot (hot.contains x.2) x.1.hotAgo }) } }

/-- A hot site has the diode read (R442): its conversion starts at this boundary, or once the one that runs has completed
(notes/assumptions/46.md). -/
def Dev.askDiode (s : Nat) (d : Dev) : Dev :=
  match (d.site s).last with
  | none => d
  | some t =>
    match d.health.diodeUse with
    | .none => { d with health := { d.health with diodeUse := .arbiter s t } }
    | .arbiter _ _ => d
    | _ => { d with health := { d.health with arbNext := some (s, t) } }

/-- TEMP_SITE_READING of every site in a sub-tick, and what a reading of 125 °C sets off (R442). -/
def Dev.readSites (hz : List Nat) (d : Dev) : Dev :=
  let d := (Bits.upTo 24).foldl (fun x s => x.readSite s (hz.getD s 0)) d
  if d.health.decided.isSome then d
  else
    let hot := d.hotSites
    let d := if d.health.diodeFailed then d.hotNoDiode hot
      else match hot with
        | [] => d
        | s :: _ => d.askDiode s
    d.noteHot hot

/-! ### Diode checks (R436, R437, R442) -/

/-- A site agrees with a diode reading within 8 °C. -/
def Dev.agrees (d : Dev) (s : Nat) (t : Int) : Bool :=
  match (d.site s).last with
  | some l => decide (Bits.absI (l - (t + d.parI 0x30 (0x12 + 4 * s))) ≤ 128)
  | none => true

/-- The verdict of a diode check on one site (R436, R437). -/
def Dev.checkSite (t : Int) (d : Dev) (s : Nat) : Dev :=
  match (d.site s).failed with
  | none => if d.agrees s t then d else d.failSite s 2
  | some _ =>
    if d.agrees s t && decide (1000000000 * d.parN 0x30 2 ≤ d.time.now - (d.site s).plausibleSince) &&
        (d.site s).streak == 0 then
      let secs := (d.time.now - (d.site s).failedAt) / 1000000000
      (d.modSite s (fun x => { x with failed := none })).raiseI 0x0F06 0 s (Bits.le 1 s ++ Bits.le 4 secs)
    else d

/-- A conversion's result (R436): it fails the diode, or it is good and judges the sites. -/
def Dev.diodeResult (reading : Option Int) (d : Dev) : Dev :=
  let use := d.health.diodeUse
  let ok := match reading with | some t => decide (-800 ≤ t) && decide (t ≤ 2400) | none => false
  let next : DiodeUse := match d.health.arbNext with
    | some (s, r) => if (d.site s).failed.isNone then .arbiter s r else .none
    | none => .none
  let d := { d with health := { d.health with diodeUse := next, arbNext := none, recheckAt := d.time.now } }
  match reading, ok with
  | some t, true =>
    let was := d.health.diodeFailed
    let d := { d with health := { d.health with diode := some t, diodeAt := d.time.now, diodeFailed := false } }
    let d := if was then d.endFault 0x0F07 0 else d
    let near := fun (s : Nat) (r : Int) => decide (Bits.absI (r - (t + d.parI 0x30 (0x12 + 4 * s))) ≤ 128)
    let d0 := d
    let d := (Bits.upTo 24).foldl (fun x s => x.checkSite t s) d
    match use with
    | .arbiter s r =>
      if (d0.site s).failed.isNone && near s r then d.shutdown s (some r)
      else
        let d := if (d0.site s).failed.isNone then d.failSite s 2 else d
        if 2000 ≤ t then d.shutdown 0xFF none else d
    | _ => if 2000 ≤ t then d.shutdown 0xFF none else d
  | _, _ =>
    let d := { d with health := { d.health with diodeFailed := true, diode := reading, diodeAt := d.time.now } }
    d.raise 0x0F07 3 (temp16 reading)

/-- DIODE_CONVERSION_COMPLETE (R436): a conversion in progress completes. -/
def Dev.diodeComplete (reading : Option Int) (d : Dev) : Dev :=
  if d.health.diodeUse = .none then d
  else
    let d := d.diodeResult reading
    match d.health.test with
    | some t => if t.running && !t.done then { d with health := { d.health with
        tests := Bits.modAt d.health.tests t.domain (fun r => { r with
          diode := match reading with | some x => BitVec.ofInt 16 x | none => 0x8000 }) } } else d
    | none => d

/-- DIODE_RECHECK (R436): RECHECK_PERIOD while a site is failed, 1 s while more than 12 are. -/
def Dev.diodeRecheck (d : Dev) : Dev :=
  let n := d.failedSites.length
  let period := if 12 < n then 1000000000 else 1000000000 * d.parN 0x30 2
  if 0 < n ∧ period ≤ d.time.now - d.health.recheckAt ∧ d.health.diodeUse = .none then
    { d with health := { d.health with diodeUse := .check } }
  else d

/-! ### The throttle (R438 to R440) -/

/-- The frame temperatures T_k and rates r_k at a tick (R434): r_k in 1/256 °C/s over 25 frames. -/
def Dev.frameTemps (d : Dev) : Dev :=
  { d with health := { d.health with sites := d.health.sites.map (fun x =>
      if x.count = 0 then x
      else
        let t := x.sum / (x.count : Int)
        let r := match x.hist[24]? with | some o => 32 * (t - o) | none => 0
        { x with sum := 0, count := 0, tk := t, rk := r, hist := (t :: x.hist).take 25 }) } }

/-- x_rate (R438): r in 1/256 °C/s. -/
def xRateOf (r : Int) : Nat := if 512 < r then (Bits.clampI 0 100 (Bits.ceilDiv (40 * (r - 512)) 256)).toNat else 0

/-- x_abs (R438): T in 1/16 °C. -/
def xAbsOf (t : Int) : Nat := if 1600 < t then (Bits.clampI 0 100 (Bits.ceilDiv (20 * (t - 1600)) 16)).toNat else 0

/-- THROTTLE_UPDATE (R438 to R440). -/
def Dev.throttle (d : Dev) : Dev :=
  let d := d.frameTemps
  let v := d.validSites
  let pick := fun (key : Site → Int) => v.foldl (fun (b : Option Nat) s =>
    match b with
    | none => some s
    | some q => if key (d.site q) < key (d.site s) then some s else some q) none
  let hot := pick Site.tk
  let fast := pick Site.rk
  let tMax := match hot with | some s => (d.site s).tk | none => 0
  let rMax := match fast with | some s => (d.site s).rk | none => 0
  let xr := if fast.isSome then xRateOf rMax else 0
  let xa := if hot.isSome then xAbsOf tMax else 0
  let xf := if d.failedSites.isEmpty then 0 else 100
  let target := Nat.max (Nat.max xr xa) xf
  let h := d.health
  let falls := decide (target < h.x) && decide (1000000000 ≤ (d.time.now - h.xMark) * d.parN 0x30 1)
  let x := if h.x ≤ target then target else if falls then h.x - 1 else h.x
  let d := { d with health := { h with
    x := x, xTarget := target, xRate := xr, xAbs := xa, rMax := rMax, tMax := tMax, hotSite := hot.getD 0xFF,
    xMark := if x = target || falls then d.time.now else h.xMark,
    xStart := if h.x = 0 then d.time.now else h.xStart,
    xHigh := if h.x = 0 then x else Nat.max h.xHigh x,
    calmSince := if 256 < rMax then none else match h.calmSince with | some t => some t | none => some d.time.now } }
  let d := if h.x = 0 && x != 0 then
      d.raise 0x0F03 1 (Bits.le 1 x ++ Bits.le 1 (if xr = target then 1 else if xa = target then 2 else 3))
    else if h.x != 0 && x = 0 then
      d.raise 0x0F04 0 (Bits.le 4 ((d.time.now - h.xStart) / 1000000) ++ Bits.le 1 h.xHigh)
    else d
  if 256 < rMax && !h.alert then
    ({ d with health := { d.health with alert := true, alertAt := d.time.now } }).raise 0x0F01 1
      (Bits.le 1 (fast.getD 0) ++ Bits.leI 2 (Bits.clampI (-32768) 32767 rMax))
  else d

/-- RATE_ALERT_CLEAR (R440). -/
def Dev.alertClear (d : Dev) : Dev :=
  match d.health.calmSince with
  | some t =>
    if d.health.alert && decide (10000000000 ≤ d.time.now - t) then
      ({ d with health := { d.health with alert := false } }).raise 0x0F02 0 (Bits.le 4 ((d.time.now - d.health.alertAt) / 1000000))
    else d
  | none => d

/-! ### Self-test (R445 to R451) -/

/-- The partner's heartbeat of the frame before f lets SERVICE test in frame f (Table 15.5). -/
def Dev.testPartnerOk (d : Dev) (f : Nat) : Bool :=
  match d.clasp.partner with
  | some b => (b.frame + 1) % 2 ^ 32 == f && b.hflags.getLsbD 0 && b.role == 0 && (b.worst == 255 || decide (b.worst ≤ 1))
  | none => false

/-- The permissions of Table 15.5 for a test in frame f: none where it is allowed. -/
def Dev.testRefusal (d : Dev) (f : Nat) (busy : Bool) : Option (Half × Nat) :=
  let byState : Option (Half × Nat) := match d.life.state with
    | .factory => some (stLife, 1)
    | .retired => some (stLife, 1)
    | .service =>
      if d.clasp.role = .standby && d.clasp.synced && d.testPartnerOk f then none else some (stRole, 1)
    | _ => if d.clasp.role.inControl && d.solver.mode != .idle then some (stLife, 0x100) else none
  match byState with
  | some x => some x
  | none => if d.health.x != 0 then some (stThrottled, d.health.x) else if busy then some (stBusy, 0) else none

/-- SELFTEST_RUN (R446). -/
def Dev.selftestRunOp (tag : BitVec 6) (r : Req) (d : Dev) : OpRes :=
  if 4 < r.tgt then refuse d stRange
  else match d.testRefusal d.nextNo d.health.test.isSome with
    | some (s, a) => refuse d s a
    | none =>
      deferred { d with health := { d.health with
        test := some { domain := r.tgt, frame := d.nextNo, tag := some tag } } } (some 200000000)

/-- A domain is under test. -/
def Dev.testing (d : Dev) (dom : Nat) : Bool :=
  match d.health.test with | some t => t.running && !t.done && t.domain == dom | none => false

/-- A domain is the one of this frame's test, finished or not (work forgone in frame f, Table 15.4). -/
def Dev.testedThisFrame (d : Dev) (dom : Nat) : Bool :=
  match d.health.test with | some t => t.running && t.domain == dom | none => false

/-- The test's request ends. -/
def Dev.endTest (f : Fin) (d : Dev) : Dev :=
  match d.health.test with
  | some t =>
    let d := { d with health := { d.health with test := none } }
    match t.tag with | some g => d.finish g f | none => d
  | none => d

/-- No fault of DEGRADED or more stands: automatic self-test is not paused (Table 15.7). -/
def Dev.autoFree (d : Dev) : Bool := d.worst == 255 || decide (d.worst < 2)

/-- The test of frame f starts (R447): an automatic one counts as run, and the next in the order follows (R450). -/
def Dev.testStart (t : TestRun) (d : Dev) : Dev :=
  let auto := t.tag.isNone
  let d := { d with health := { d.health with
    test := some { t with running := true, frame := d.frame.number }, testHold := 4,
    autoFrom := if auto then d.time.now else d.health.autoFrom,
    autoNext := if auto then (d.health.autoNext + 1) % 5 else d.health.autoNext,
    autoDue := if auto then false else d.health.autoDue,
    tests := Bits.modAt d.health.tests t.domain (fun (r : TestRec) => { r with
      result := 4, runs := Bits.sat 0xFFFF (r.runs + 1), frame := d.frame.number, life := d.life.state.code,
      role := d.clasp.role.code }) } }
  if d.health.diodeUse = .none then { d with health := { d.health with diodeUse := .selftest } } else d

/-- SELFTEST_START at the tick after the request (R446, R447): a time step pending for it moves f on. -/
def Dev.selftestTick (stepPending : Bool) (d : Dev) : Dev :=
  let d := { d with health := { d.health with testHold := d.health.testHold - 1 } }
  match d.health.test with
  | none => d
  | some t =>
    if t.running || stepPending then d
    else match d.testRefusal d.frame.number false with
      | some (s, a) => d.endTest { status := s, rarg := BitVec.ofNat 16 a }
      | none => if t.tag.isNone && !d.autoFree then d.endTest { status := stOk } else d.testStart t

/-- SELFTEST_COMPLETE (R447, R448): the domain passes when its signature and the restore CRC match. -/
def Dev.selftestComplete (r : ScanResult) (d : Dev) : Dev :=
  match d.health.test with
  | some t =>
    if t.running && !t.done then
      let pass := r.restoreOk && r.sigGot == Config.signature t.domain
      let chain : Half := if pass then 0xFFFF else if !r.restoreOk then 0xFFFE else r.failChain
      let d := { d with
        health := { d.health with
          test := some { t with done := true },
          tests := Bits.modAt d.health.tests t.domain (fun x => { x with
            result := if pass then 1 else 2, duration := r.micros, sigGot := r.sigGot, failChain := chain,
            passes := Bits.sat 0xFFFF (x.passes + Bits.b2n pass), fails := Bits.sat 0xFFFF (x.fails + Bits.b2n (!pass)) }) } }
      let d := { d with nvm := { d.nvm with
        failed := if pass then Bits.erase t.domain d.nvm.failed
                  else Bits.insert t.domain (d.health.tests.getD t.domain {}) d.nvm.failed } }
      if pass then d.raiseI 0x0F0A 0 t.domain (Bits.le 1 t.domain ++ Bits.le 4 r.micros)
      else d.raiseI 0x0F0B 4 t.domain (Bits.le 1 t.domain ++ Bits.le 2 chain.toNat ++ Bits.le 4 r.sigGot.toNat)
    else d
  | none => d

/-- At every start-up each domain whose last test failed is reported again (R448; notes/assumptions/82.md). -/
def Dev.failedAgain (d : Dev) : Dev :=
  d.nvm.failed.foldl (fun x p =>
    x.raiseI 0x0F0B 4 p.1 (Bits.le 1 p.1 ++ Bits.le 2 p.2.failChain.toNat ++ Bits.le 4 p.2.sigGot.toNat)) d

/-- The records after a start-up: those of FAIL alone remain, with no run since (R451). -/
def Dev.testsKept (d : Dev) : List TestRec :=
  (Bits.upTo 5).map (fun i => { Bits.get (fun _ => ({} : TestRec)) d.nvm.failed i with runs := 0 })

/-- In the tail slot of f the request of a finished test ends OK (R447). -/
def Dev.selftestTail (d : Dev) : Dev :=
  match d.health.test with
  | some t => if t.done then d.endTest { status := stOk } else d
  | none => d

/-- AUTO_SELFTEST_DUE (R450). -/
def Dev.autoDue (d : Dev) : Dev :=
  let p := d.parN 0x30 4
  if d.life.state = .service && p != 0 && decide (60000000000 * p ≤ d.time.now - d.health.autoFrom) then
    { d with health := { d.health with autoDue := true } }
  else d

/-- A due automatic run is taken when Table 15.5 allows it and no fault pauses it (R450, Table 15.7). -/
def Dev.autoTick (d : Dev) : Dev :=
  if d.health.autoDue && d.life.state = .service && d.parN 0x30 4 != 0 && d.autoFree &&
      (d.testRefusal d.frame.number d.health.test.isSome).isNone then
    { d with health := { d.health with test := some { domain := d.health.autoNext, frame := d.nextNo, tag := none } } }
  else d

/-- The automatic runs start over: at domain 0, the first one AUTO_TEST_PERIOD from now (R450). -/
def Dev.autoRestart (d : Dev) : Dev :=
  { d with health := { d.health with autoNext := 0, autoFrom := d.time.now, autoDue := false } }

/-- SELFTEST_RESULT (Table 15.6). -/
def Dev.selftestRecord (d : Dev) (dom : Nat) : List Byte :=
  let r := d.health.tests.getD dom {}
  Bits.le 1 dom ++ Bits.le 1 r.result ++ Bits.le 2 r.runs ++ Bits.le 4 r.frame ++ Bits.le 4 r.duration ++
    Bits.le 4 (Config.signature dom).toNat ++ Bits.le 4 r.sigGot.toNat ++ Bits.le 2 r.failChain.toNat ++
    Bits.le 2 r.diode.toNat ++ Bits.le 1 r.life ++ Bits.le 1 r.role ++ Bits.le 2 r.passes ++ Bits.le 2 r.fails ++ [0, 0]

/-- SELFTEST_RESULT (R451). -/
def Dev.selftestResultOp (r : Req) (d : Dev) : OpRes :=
  if 4 < r.tgt then refuse d stRange else reads d (d.selftestRecord r.tgt)

/-! ### The fault manager (R452 to R456) -/

/-- The queued entry that is next: the highest severity, oldest first (R455). -/
def nextFault : List FaultEnt → Option FaultEnt
  | [] => none
  | e :: es => match nextFault es with
    | some x => if e.sev < x.sev then some x else some e
    | none => some e

/-- Removal of the first equal entry. -/
def dropFault (e : FaultEnt) : List FaultEnt → List FaultEnt
  | [] => []
  | x :: xs => if x = e then xs else x :: dropFault e xs

/-- The lowest severity in the table. -/
def lowestSev (l : List Standing) : Nat := l.foldl (fun a s => if s.sev < a then s.sev else a) 4

/-- Removal of the first, that is the oldest, entry of a severity. -/
def dropOldest (sev : Nat) : List Standing → List Standing
  | [] => []
  | x :: xs => if x.sev = sev then xs else x :: dropOldest sev xs

/-- A fault enters the active table (R454): 64 entries keyed by code and source. -/
def Dev.enterFault (e : FaultEnt) (d : Dev) : Dev :=
  let l := d.faults.active
  if l.any (fun s => s.code == e.code && s.source == e.source) then
    { d with faults := { d.faults with active := l.map (fun s =>
        if s.code == e.code && s.source == e.source then
          { s with count := s.count + e.count, last := e.seen, sev := e.sev } else s) } }
  else
    let new : Standing := { code := e.code, source := e.source, sev := e.sev, count := e.count, last := e.seen }
    if l.length < 64 then { d with faults := { d.faults with active := l ++ [new] } }
    else if lowestSev l < e.sev then
      { d with faults := { d.faults with active := dropOldest (lowestSev l) l ++ [new], lost := d.faults.lost + 1 } }
    else
      { d with faults := { d.faults with
          lost := d.faults.lost + 1,
          lostSev := d.faults.lostSev ++ [(e.sev, d.time.now + 1000000000 * d.parN 0x30 3)] } }

/-- The active-fault points (Table 15.9). -/
def Dev.faultPoints (d : Dev) : Dev :=
  let st := BitVec.ofNat 32 d.frame.t0
  let d := d.postU 0xF 6464 (d.worst + 256 * d.faults.active.length + 65536 * d.faults.queue.length) st
  let d := d.postU 0xF 6465 (Bits.sat 0xFFFFFFFF d.faults.lost) st
  (Bits.upTo 64).foldl (fun x i =>
    x.postU 0xF (6480 + i) (match x.faults.active[i]? with
      | some s => s.code + 65536 * s.sev + 16777216 * Bits.sat 255 s.count
      | none => 0) st) d

/-- Step 1 of R453: a fault enters the active table. What a full queue lost is raised once a place is free (R456). -/
def Dev.faultStep1 (e : FaultEnt) (d : Dev) : Dev :=
  let d := if e.sev = 0 then d else d.enterFault e
  let n := d.faults.latch
  if n = 0 then d else ({ d with faults := { d.faults with latch := 0 } }).raise 0x0F0E 3 (Bits.le 4 n)

/-- Step 2 of R453 (Table 15.7): what the entry ends leaves the table. The other actions read the table where they apply. -/
def Dev.faultStep2 (e : FaultEnt) (d : Dev) : Dev :=
  if (endsOf e.code).isEmpty then d
  else { d with faults := { d.faults with
    active := d.faults.active.filter (fun s => !(endsFault e.code (e.source % 4096) s)) } }

/-- A queued entry is of higher severity than this one: it preempts it (R455). -/
def Dev.preempted (e : FaultEnt) (d : Dev) : Bool := d.faults.queue.any (fun x => decide (e.sev < x.sev))

/-- The rest of an entry's steps waits for the next tick (R455). -/
def Dev.holdFault (e : FaultEnt) (step : Nat) (d : Dev) : Dev :=
  { d with faults := { d.faults with held := d.faults.held ++ [(e, step)] } }

/-- FAULT_ENTRY_HANDLED: one entry in its three steps, cut short where a step brings in a higher one; an entry no higher
than one whose steps wait for the tick waits too (R453, R455, R456). -/
def Dev.faultHandled (d : Dev) : Dev :=
  match nextFault d.faults.queue with
  | none => d
  | some e =>
    if d.faults.held.any (fun h => decide (e.sev ≤ h.1.sev)) then d
    else
      let (d, ev) := d.qRead 3 1
      if !ev.isEmpty then d.raiseQ ev
      else
        let d := ({ d with faults := { d.faults with queue := dropFault e d.faults.queue } } : Dev).faultStep1 e
        if d.preempted e then d.holdFault e 2
        else
          let d := d.faultStep2 e
          if d.preempted e then d.holdFault e 3 else d.faultPoints

/-- At a tick the steps that wait are done, the gravest entry's first (R455). -/
def Dev.faultResume (d : Dev) : Dev :=
  let l := d.faults.held
  let d := { d with faults := { d.faults with held := [] } }
  [4, 3, 2, 1, 0].foldl (fun (x : Dev) sev =>
    l.foldl (fun (y : Dev) h =>
      if h.1.sev = sev then (if h.2 = 2 then y.faultStep2 h.1 else y).faultPoints else y) x) d

/-- Codes whose end a chapter states by an event or a state (Table 15.12; 0F07h ends with a good conversion, 0A06h
with the fallback of R303). -/
def hasStatedEnd (code : Nat) : Bool := enders.any (fun p => p.2.any (fun q => q.1 == code)) || code == 0x0F07 || code == 0x0A06

/-- FAULT_HOLD_EXPIRY (R454). -/
def Dev.faultExpire (code source : Nat) (d : Dev) : Dev :=
  let hold := 1000000000 * d.parN 0x30 3
  { d with faults := { d.faults with
      active := d.faults.active.filter (fun s =>
        !(s.code == code && s.source == source && !(hasStatedEnd code) && decide (hold ≤ d.time.now - s.last))),
      lostSev := d.faults.lostSev.filter (fun p => decide (d.time.now < p.2)) } }

/-! ### The thermal record and the points (R457, R458) -/

/-- HFLAGS of THERMAL_READ (Table 15.8). -/
def Dev.hflags (d : Dev) : Nat :=
  flagBits [d.health.alert, !d.failedSites.isEmpty, d.health.diodeFailed,
    (match d.health.diodeUse with | .arbiter _ _ => true | _ => false), decide (d.health.xTarget < d.health.x)]

/-- Shutdowns decided in the last 60 minutes (R444). -/
def Dev.shutdowns60 (d : Dev) : Nat := (d.nvm.shutdowns.filter (fun s => decide (d.opSeconds < s + 3600))).length

/-- The THERMAL_READ record (Table 15.8). -/
def Dev.thermalRecord (d : Dev) : List Byte :=
  let h := d.health
  let age := match h.diode with | some _ => Bits.sat 0xFFFF ((d.time.now - h.diodeAt) / 1000000000) | none => 0xFFFF
  Bits.le 4 d.frame.number ++ Bits.le 1 h.x ++ Bits.le 1 h.xRate ++ Bits.le 1 h.xAbs ++ Bits.le 1 d.hflags ++
    Bits.leI 2 h.tMax ++ Bits.le 1 h.hotSite ++ Bits.le 1 d.failedSites.length ++ temp16 h.diode ++ Bits.le 2 age ++
    Bits.le 4 (Bits.bitsOf d.failedSites) ++ Bits.le 1 d.shutdowns60 ++ Bits.le 3 d.nvm.shutdownsAll ++
    h.sites.flatMap (fun s => Bits.leI 2 s.tk ++ Bits.leI 2 (Bits.clampI (-32768) 32767 s.rk)) ++ Bits.zeros 8

/-- The health points of a tick (Table 15.9): FIX32 with n = 16. -/
def Dev.healthPoints (d : Dev) : Dev :=
  let st := BitVec.ofNat 32 d.frame.t0
  let h := d.health
  let d := d.postU 0xF 6400 (h.x + 256 * h.xRate + 65536 * h.xAbs) st
  let d := d.postU 0xF 6401 d.hflags st
  let d := d.postF 0xF 6402 16 (4096 * h.tMax) st
  let d := d.postF 0xF 6403 16 (256 * h.rMax) st
  let d := match h.diode with
    | some t => d.postF 0xF 6404 16 (4096 * t) st
    | none => d.post 0xF 6404 4 (valFix 16 0) st 3
  let d := d.postU 0xF 6405 (Bits.bitsOf d.failedSites) st
  let d := (Bits.upTo 24).foldl (fun x s =>
    (x.postF 0xF (6408 + s) 16 (4096 * (x.site s).tk) st).postF 0xF (6432 + s) 16 (256 * (x.site s).rk) st) d
  let d := (Bits.upTo 5).foldl (fun x i =>
    x.postU 0xF (6456 + i) ((x.health.tests.getD i {}).result + 65536 * (x.health.tests.getD i {}).fails) st) d
  ({ d with health := { d.health with record := d.thermalRecord } }).faultPoints

end Sys2Proof.Machine
end

