-- ==== Sys2Proof/Machine/TimeBase.lean ====
section
/-! DEFINITION. Machine/TimeBase.lean: the counter, device time, its sources and states, UTC, PPS and PTP (11 R320 to
R340, R351). -/

namespace Sys2Proof.Machine

open Sys2Proof

/-- ±50 ppm in units of 2^−48 (R321). -/
def rhoMax : Int := 14073748835

/-- An offset in ns over a time in s as a rate in units of 2^−48, rounded toward minus infinity. -/
def rateOver (ns : Int) (s : Nat) : Int := ns * 2 ^ 48 / ((s * 1000000000 : Nat) : Int)

/-- Re-anchoring (R322). -/
def Dev.reanchor (d : Dev) : Dev :=
  { d with time := { d.time with
      off := d.time.off + d.time.rho * ((d.c : Int) - (d.time.anchor : Int)) / 2 ^ 32, anchor := d.c } }

/-- ρ = ρ_f + ρ_s within ±50 ppm, the slew term giving way (R329); a change re-anchors first (R322). -/
def Dev.setRate (f s : Int) (d : Dev) : Dev :=
  let f := Bits.clampI (-rhoMax) rhoMax f
  let r := Bits.clampI (-rhoMax) rhoMax (f + s)
  let d := if r = d.time.rho then d else d.reanchor
  { d with time := { d.time with rho := r, rhoF := f, rhoS := r - f } }

/-- The upper bound in ns that IEEE 1588-2019 gives a clockAccuracy; none where it is unknown (R329). -/
def accBound (acc : Nat) : Option Nat :=
  if acc < 0x17 || 0x30 < acc then none
  else if acc ≤ 0x1D then some 1
  else ([3, 10, 25, 100, 250, 1000, 2500, 10000, 25000, 100000, 250000, 1000000, 2500000, 10000000, 25000000,
    100000000, 250000000, 1000000000, 10000000000] : List Nat)[acc - 0x1E]?

/-- The source's own uncertainty (R329). -/
def Dev.sourceUnc (d : Dev) (source : Nat) : Option Nat :=
  if source = 1 then some 5
  else match (d.net.ports.getD (source - 2) {}).gm with
    | some g => (accBound g.acc).map (fun b => b + 8)
    | none => none

/-- The Sync interval in ns. -/
def Dev.syncNs (d : Dev) : Nat := 1000000000 * 16 / 2 ^ (4 - d.parI 0x20 0x15).toNat

/-- The mean of a list of offsets, rounded toward minus infinity; 0 of an empty list. -/
def meanI (l : List Int) : Int := if l.isEmpty then 0 else Bits.sumI l / (l.length : Int)

/-- GNSS is valid (Table 11.1): 50 consecutive latches within 100 ns of their mean. -/
def gnssOk (l : List Int) : Bool :=
  decide (50 ≤ l.length) && l.all (fun x => decide (Bits.absI (x - meanI l) ≤ 100))

/-- PTP is valid (Table 11.1): a SLAVE port with a measured peer delay, 8 Syncs within 1 µs of their mean. -/
def Dev.ptpOk (d : Dev) : Bool :=
  match d.slavePort with
  | some p => (d.net.ports.getD p {}).delay.isSome && decide (8 ≤ d.time.ptpOffs.length) &&
      d.time.ptpOffs.all (fun x => decide (Bits.absI (x - meanI d.time.ptpOffs) ≤ 1000))
  | none => false

/-- The source that R327 chooses: 0 none, 1 GNSS, 2 to 5 the SLAVE port. -/
def Dev.chooseSource (d : Dev) : Nat :=
  let mode := d.parN 0x20 2
  let ptp := if d.parB 0x20 0x10 && d.ptpOk then (match d.slavePort with | some p => 2 + p | none => 0) else 0
  let gnss := if gnssOk d.time.gnssOffs then 1 else 0
  if mode = 1 then gnss else if mode = 2 then ptp else if ptp != 0 then ptp else gnss

/-- Device time less the counter: what steering and steps have put between them. -/
def Dev.steered (d : Dev) : Int := (d.dev : Int) - (d.c : Int)

/-- θ of a source now: the mean over the second with GNSS, the last Sync with PTP (R329), carried from the counter to
device time, so that the module's own slew neither breaks the tests of Table 11.1 nor lags (notes/assumptions/40.md). -/
def Dev.thetaOf (d : Dev) (source : Nat) : Int :=
  (if source = 1 then meanI (d.time.gnssOffs.take 50) else d.time.ptpOffs.head?.getD 0) + d.steered

/-- The source whose first step is taken (R328): while PTP is enabled GNSS waits for STEP_WAIT. -/
def Dev.firstSource (d : Dev) : Nat :=
  let s := d.chooseSource
  if s = 1 && d.parB 0x20 0x10 && !d.time.stepWaitOver then 0 else s

/-- The grandmaster's rate over the last 8 Sync intervals (Table 11.2), toward minus infinity. -/
def Dev.gmRate (d : Dev) : Int :=
  match d.time.ptpStamps.head?, d.time.ptpStamps.getLast? with
  | some (o1, c1), some (o0, c0) =>
    if c0 < c1 then ((o1 - o0) - ((c1 - c0 : Nat) : Int)) * 2 ^ 48 / ((c1 - c0 : Nat) : Int) else d.time.rhoF
  | _, _ => d.time.rhoF

/-- E passes HO_LIMIT; an unknown E counts as above it (R329). -/
def Dev.overLimit (d : Dev) : Bool := match d.time.err with | some e => decide (d.parN 0x20 8 < e) | none => true

/-- The estimate and the steering with a valid source (Table 11.2, R331); after a step the new θ alone decides (R332). -/
def Dev.follow (source : Nat) (stepped : Bool) (d : Dev) : Dev :=
  let th := d.thetaOf source
  let a := (Bits.absI th).toNat
  let old := d.time.state
  let changed := stepped || (d.time.source == 1) != (source == 1) || d.time.source == 0
  let st := if old = .holdover then TimeState.slewing
    else if old = .slewing then (if a < 10 then TimeState.locked else .slewing)
    else if changed && decide (10 ≤ a) then TimeState.slewing
    else if 1000 < a then TimeState.slewing else TimeState.locked
  let d := { d with time := { d.time with
    theta := some th, state := st, source := source, err := (d.sourceUnc source).map (fun u => a + u),
    converging := st == TimeState.slewing && decide (1000 < a), errAtHo := none, hoLimitRaised := false,
    slewSince := if st = TimeState.slewing && old != TimeState.slewing then d.c else d.time.slewSince } }
  let d := if old = TimeState.holdover then d.raise 0x0B05 0 (Bits.leI 4 (Bits.clampI (-2147483648) 2147483647 th) ++ Bits.le 1 source) else d
  let d := if decide (1000 * d.parN 0x20 9 < a) && !d.time.offsetFarRaised then
      ({ d with time := { d.time with offsetFarRaised := true } }).raise 0x0B07 1
        (Bits.leI 4 (Bits.clampI (-2147483648) 2147483647 (th / 1000)))
    else d
  let d := if old = .slewing && st = .locked then
      ({ d with time := { d.time with offsetFarRaised := false } }).raise 0x0B06 0
        (Bits.le 4 ((d.c - d.time.slewSince) / 1000000000))
    else d
  if st = .locked then
    if source = 1 then
      d.setRate (d.time.rhoF + rateOver (-th) (d.parN 0x20 4 * d.parN 0x20 5)) (rateOver (-th) (d.parN 0x20 4))
    else d.setRate d.gmRate ((-th) * 2 ^ 48 / ((8 * d.syncNs : Nat) : Int))
  else d.setRate d.time.rhoF (rateOver (-th) (d.parN 0x20 4))

/-- An aid that may steer in HOLDOVER: REF10_IN, otherwise PPS_IN (R330). -/
def Dev.aidNow (d : Dev) : BitVec 2 :=
  if d.parB 0x20 0x0F && d.pps.ref10Valid then 1 else if d.parB 0x20 0x0C && d.pps.inValid then 2 else 0

/-- ρ that a PPS_IN interval of n counts in true time shows (R330). -/
def ppsRate (n : Nat) : Int := (1000000000 - (n : Int)) * 2 ^ 48 / (n : Int)

/-- ρ_f a second later, steered towards what the aid shows with a time constant of 100 s (R330): the rate of REF10_IN is
measured outside the model (notes/assumptions/40.md). -/
def Dev.aidedF (aid : BitVec 2) (d : Dev) : Int :=
  d.time.rhoF + ((if aid = 1 then Config.ref10Rate d.free else ppsRate d.pps.inLen) - d.time.rhoF) / 100

/-- HOLDOVER at a whole second: entry, the growth of E, the limit (R330). -/
def Dev.hold (d : Dev) : Dev :=
  let entering := d.time.state != .holdover
  let d := if entering then
      let d := { d with time := { d.time with
        state := .holdover, source := 0, theta := none, converging := false,
        errAtHo := d.time.err, hoSince := d.c, hoAided := 0, hoLimitRaised := false } }
      d.raise 0x0B03 1 (Bits.le 4 (match d.time.err with | some e => Bits.sat 0xFFFFFFFF e | none => 0xFFFFFFFF))
    else d
  let aid := d.aidNow
  let secs := (d.c - d.time.hoSince) / 1000000000
  let aided := if entering || aid = 0 then d.time.hoAided else d.time.hoAided + 1
  let growth := ((secs - aided) * d.parN 0x20 6 + aided * d.parN 0x20 7) / 3600
  let d := { d with time := { d.time with aid := aid, hoAided := aided, err := d.time.errAtHo.map (fun e => e + growth) } }
  let d := if aid = 0 then d.setRate d.time.rhoF 0
    else (d.fresh).setRate (d.aidedF aid) 0
  if d.overLimit && !d.time.hoLimitRaised then
    ({ d with time := { d.time with hoLimitRaised := true } }).raise 0x0B04 1 (Bits.le 4 secs)
  else d

/-- What is done once a second, at the re-anchoring (R322, R327, R329, R330). -/
def Dev.second (d : Dev) : Dev :=
  let d := d.reanchor
  if d.time.state = .unset then d
  else
    let s := d.chooseSource
    let kind := fun (x : Nat) => if 2 ≤ x then 2 else x
    let d := if kind s != kind d.time.source then
        d.raise 0x0B02 0 (Bits.le 1 d.time.source ++ Bits.le 1 s) else d
    let d := if s = 0 then d.hold
      else if 2 ≤ s && d.time.source = s && d.time.state != .holdover then d
      else ({ d with time := { d.time with aid := 0 } }).follow s false
    let t := d.dev / 1000000000
    if d.pps.leap != 0 && decide (d.pps.leapAt ≤ t) then
      { d with pps := { d.pps with utcOff := d.pps.utcOff + d.pps.leap, leap := 0 },
               nvm := { d.nvm with utcOff := d.pps.utcOff + d.pps.leap } }
    else d

/-- A UTC offset and a pending leap second are learned (R333, R463). -/
def Dev.learnUtc (off leap : Int) (d : Dev) : Dev :=
  let s := (d.dev / 1000000000 : Nat)
  let utc := ((s : Int) - off).toNat
  let dayEnd : Int := (utc / 86400 + 1) * 86400 + off
  let new := leap != 0 && d.pps.leap == 0
  let d := { d with
    pps := { d.pps with
             utcOff := if d.pps.leap = 0 then off else d.pps.utcOff, utcValid := true,
             leap := if leap = 0 then d.pps.leap else leap,
             leapAt := if new then (if 0 < leap then (dayEnd + 1).toNat else (dayEnd - 1).toNat) else d.pps.leapAt },
    nvm := { d.nvm with utcOff := if d.pps.leap = 0 then off else d.nvm.utcOff } }
  if new then d.raise 0x0B12 0 (Bits.leI 1 leap) else d

/-- A latch gives GNSS time (R158): its offset, none where the mode is below SINGLE (Table 11.1). -/
def Dev.gnssLatch (th : Option Int) (d : Dev) : Dev :=
  match th with
  | none => { d with time := { d.time with gnssOffs := [] } }
  | some x => { d with time := { d.time with gnssOffs := ((x - d.steered) :: d.time.gnssOffs).take 50 } }

/-! ### PPS (R334, R335) -/

/-- PPS_OUT at its pin: at high impedance while bank VIO3 is out (R514). -/
def Dev.ppsPin (high : Bool) (d : Dev) : Dev := if d.hw.vioOut.getLsbD 2 then d else d.emit (.pps high)

/-- At a whole second PPS_OUT rises (R334). -/
def Dev.ppsRise (d : Dev) : Dev :=
  let w := 1000000 * d.parN 0x20 0x0B
  if d.parB 0x20 0x0A && d.timeValid && (!d.pps.everRose || decide (2 * w ≤ d.time.now - d.pps.roseAt)) then
    ({ d with pps := { d.pps with out := true, roseAt := d.time.now, everRose := true } }).ppsPin true
  else d

/-- PPS_PULSE_END: PPS_OUT falls when PPS_WIDTH has run (R334). -/
def Dev.ppsEnd (d : Dev) : Dev :=
  if d.pps.out && decide (1000000 * d.parN 0x20 0x0B ≤ d.time.now - d.pps.roseAt) then
    ({ d with pps := { d.pps with out := false } }).ppsPin false
  else d

/-- PPS_OUT_EN committed to 0 drives the pin low (R334). -/
def Dev.ppsGate (d : Dev) : Dev :=
  if d.pps.out && !(d.parB 0x20 0x0A) then ({ d with pps := { d.pps with out := false } }).ppsPin false else d

/-- PPS_IN_EDGE (R335): the stamped edge, the interval test of Table 11.1, three bad intervals. -/
def Dev.ppsIn (rising : Bool) (d : Dev) : Dev :=
  if !(d.parB 0x20 0x0C) || rising != (d.par 0x20 0x0D == 0#32) || d.hw.vioOut.getLsbD 2 then d
  else
    let at0 := ((d.time.now : Int) - d.parI 0x20 0x0E).toNat
    match d.pps.inLast with
    | none => { d with pps := { d.pps with inLast := some at0 } }
    | some l =>
      let good := decide (Bits.absI ((at0 : Int) - (l : Int) - 1000000000) ≤ 10000)
      let bad := if good then 0 else d.pps.inBad + 1
      let d0 := { d with pps := { d.pps with
        inLast := some at0, inBad := bad, inLen := if good then at0 - l else d.pps.inLen,
        inValid := if good && d.timeValid then true else if 3 ≤ bad then false else d.pps.inValid } }
      if bad = 3 then d0.raise 0x0B10 1 [] else d0

/-- REF10_INVALID (R335). -/
def Dev.ref10Bad (d : Dev) : Dev :=
  if d.pps.ref10Valid then ({ d with pps := { d.pps with ref10Valid := false } }).raise 0x0B11 1 [] else d

/-- REF10_VALID (R326). -/
def Dev.ref10Good (d : Dev) : Dev :=
  if d.parB 0x20 0x0F then { d with pps := { d.pps with ref10Valid := true } } else d

/-- STEP_WAIT_EXPIRY (R328). -/
def Dev.stepWait (d : Dev) : Dev :=
  if decide (1000000000 * d.parN 0x20 3 ≤ d.c) then { d with time := { d.time with stepWaitOver := true } } else d

/-! ### PTP (R336 to R340) -/

/-- clockAccuracy from E (Table 11.4). -/
def accOf (e : Option Nat) : Nat :=
  match e with
  | none => 0xFE
  | some n => if n ≤ 25 then 0x20 else if n ≤ 100 then 0x21 else if n ≤ 250 then 0x22 else if n ≤ 1000 then 0x23
    else if n ≤ 2500 then 0x24 else if n ≤ 10000 then 0x25 else 0xFE

/-- This unit's announced quality: clockClass, timeSource, clockAccuracy (Table 11.4). The table has no row for a unit whose
source is PTP: it competes as an UNSET one does (DESIGN CHOICE, notes/assumptions/39.md). -/
def Dev.ownQuality (d : Dev) : Nat × Nat × Nat :=
  if !(d.parB 0x20 0x12) then (255, 0xA0, 0xFE)
  else if 2 ≤ d.time.source then (248, 0xA0, 0xFE)
  else match d.time.state with
    | .unset => (248, 0xA0, 0xFE)
    | .locked => (6, 0x20, accOf d.time.err)
    | .slewing => (7, 0x20, accOf d.time.err)
    | .holdover => (if d.overLimit then 52 else 7, 0xA0, accOf d.time.err)

/-- The clock identity: the EUI-64 of the MAC address (Table 11.3). -/
def Dev.clockId (d : Dev) : Nat :=
  let hi := d.parN 1 0x34
  let lo := d.parN 1 0x35
  (hi % 256) * 2 ^ 56 + (hi / 256 % 256) * 2 ^ 48 + (hi / 65536 % 256) * 2 ^ 40 + 0xFF * 2 ^ 32 + 0xFE * 2 ^ 24 +
    (hi / 16777216) * 65536 + (lo % 256) * 256 + lo / 256 % 256

/-- The data set this unit competes with (R338). -/
def Dev.ownGm (d : Dev) : Gm :=
  let (c, s, a) := d.ownQuality
  { identity := d.clockId, priority1 := d.parN 0x20 0x13, cls := c, acc := a, variance := Config.ptpVariance,
    priority2 := d.parN 0x20 0x14, timeSource := s, steps := 0 }

/-- The comparison of data sets of IEEE 1588: a is better than b. -/
def Gm.better (a b : Gm) : Bool :=
  if a.identity = b.identity then decide (a.steps < b.steps)
  else
    let x := [a.priority1, a.cls, a.acc, a.variance, a.priority2, a.identity]
    let y := [b.priority1, b.cls, b.acc, b.variance, b.priority2, b.identity]
    (x.zip y).foldr (fun p r => if p.1 < p.2 then true else if p.2 < p.1 then false else r) false

/-- PTP is to run on a port: PTP_EN and PTP_PORTS. -/
def Dev.ptpPort (d : Dev) (p : Nat) : Bool :=
  d.parB 0x20 0x10 && (d.par 0x20 0x19).getLsbD (if p < 2 then 0 else p - 1)

/-- A port is enabled and has link. -/
def Dev.portLive (d : Dev) (p : Nat) : Bool := (d.net.ports.getD p {}).enabled && (d.net.ports.getD p {}).link

/-- PTP runs on a port: it is to, and the port is enabled and has link. -/
def Dev.ptpOn (d : Dev) (p : Nat) : Bool := d.ptpPort p && d.portLive p

/-- A port changes its PTP state; the change raises 0B08h (Table 11.11). -/
def Dev.setPtp (p st : Nat) (d : Dev) : Dev :=
  if (d.net.ports.getD p {}).ptp = st then d
  else
    let d := { d with net := { d.net with ports := Bits.modAt d.net.ports p (fun x => { x with ptp := st }) } }
    let d := if st = 8 then { d with time := { d.time with ptpOffs := [], ptpStamps := [] } } else d
    d.raiseI 0x0B08 0 p (Bits.le 1 p ++ Bits.le 1 st ++
      Bits.le 1 (match (d.net.ports.getD p {}).gm with | some g => g.cls | none => 248))

/-- The port that hears the best grandmaster, lowest first among equals. -/
def Dev.bestPort (d : Dev) : Option (Nat × Gm) :=
  (Bits.upTo 4).foldl (fun best p =>
    if d.ptpOn p then
      match (d.net.ports.getD p {}).gm, best with
      | some g, none => some (p, g)
      | some g, some (q, h) => if g.better h then some (p, g) else some (q, h)
      | none, b => b
    else best) none

/-- The state decision of the best master clock algorithm (R338): a ring slave keeps its other ring port PASSIVE, and the
SLAVE state moves from one to the other as it stands, with SOURCE following it (R327). -/
def Dev.bmca (d : Dev) : Dev :=
  let gmEn := d.parB 0x20 0x12
  let best := d.bestPort
  let own := match best with
    | some (_, g) => gmEn && d.ownGm.better g
    | none => gmEn
  let cur := d.slaveLike
  let slave : Option Nat := if own then none else best.map Prod.fst
  let moved := match cur, slave with
    | some p, some q => decide (p < 2) && decide (q < 2) && p != q && (d.net.ports.getD p {}).ptp == 9
    | _, _ => false
  let d := match slave with
    | some q => if moved && decide (2 ≤ d.time.source) then { d with time := { d.time with source := 2 + q } } else d
    | none => d
  (Bits.upTo 4).foldl (fun x p =>
    if !(x.ptpOn p) then x.setPtp p (if x.ptpPort p then 1 else 3)
    else if own then x.setPtp p 6
    else match slave with
      | some q =>
        if p = q then x.setPtp p (if cur = some p then (x.net.ports.getD p {}).ptp else if moved then 9 else 8)
        else if p < 2 && q < 2 then x.setPtp p 7
        else x.setPtp p (if gmEn then 6 else 4)
      | none => x.setPtp p 4) d

/-- A Sync, or its Follow_Up, gives θ at the SLAVE port (R329), from its arrival on the counter, origin and correction. -/
def Dev.ptpSync (p arrC : Nat) (origin corr : Int) (d : Dev) : Dev :=
  let st := (d.net.ports.getD p {}).ptp
  if st = 8 || st = 9 then
    let d := if st = 8 then d.setPtp p 9 else d
    let sent := origin + corr
    let arrived := sent + (d.net.ports.getD p {}).delay.getD 0 + d.parI 0x20 (0x21 + 8 * p)
    let d := { d with time := { d.time with
      ptpOffs := (((arrC : Int) - arrived) :: d.time.ptpOffs).take 8,
      ptpStamps := ((sent, arrC) :: d.time.ptpStamps).take 9 } }
    if d.time.source = 2 + p && d.time.state != .unset && d.ptpOk then d.follow (2 + p) false else d
  else d

/-- The message as the transparent clock sends it on (R337): x is added to the correction of a one-step Sync, and to that of
the Follow_Up of a two-step one. -/
def ptpCorrect (x : Int) : PtpMsg → PtpMsg
  | .sync false o c => .sync false o (c + x)
  | .followUp o c => .followUp o (c + x)
  | m => m

/-- A message of the grandmaster goes on round the ring with the mean path delay of its link and that port's DELAY_ASYM
(R337); the residence time is timing (notes/assumptions/38.md). -/
def Dev.ptpForward (p : Nat) (m : PtpMsg) (d : Dev) : Dev :=
  if p < 2 && d.portLive (1 - p) then
    d.emit (.ptp (1 - p) (ptpCorrect ((d.net.ports.getD p {}).delay.getD 0 + d.parI 0x20 (0x21 + 8 * p)) m))
  else d

/-- An Announce that arrives at a port (R338, R333). -/
def Dev.ptpAnnounce (p : Nat) (g : Gm) (utc : Option Int) (leap : Int) (d : Dev) : Dev :=
  if g.identity = d.clockId then d
  else
    let d := ({ d with net := { d.net with ports := Bits.modAt d.net.ports p (fun x =>
      { x with gm := some g, annAt := d.time.now }) } } : Dev).bmca
    match utc with
    | some u => if d.slaveLike = some p then d.learnUtc u leap else d
    | none => d

/-- What a port of the PTP clock makes of a message of its domain (R336 to R338). -/
def Dev.ptpTake (p : Nat) (m : PtpMsg) (d : Dev) : Dev :=
  match m with
  | .announce gm p1 cls acc vari p2 ts steps utc leap =>
    d.ptpAnnounce p { identity := gm, priority1 := p1, cls := cls, acc := acc, variance := vari, priority2 := p2,
                      timeSource := ts, steps := steps } utc leap
  | .sync two origin corr =>
    if two then { d with net := { d.net with ports := Bits.modAt d.net.ports p (fun x => { x with pending := some (corr, d.c) }) } }
    else d.ptpSync p d.c origin corr
  | .followUp origin corr =>
    match (d.net.ports.getD p {}).pending with
    | some (c0, arrC) =>
      ({ d with net := { d.net with ports := Bits.modAt d.net.ports p (fun x => { x with pending := none }) } } : Dev).ptpSync
        p arrC origin (c0 + corr)
    | none => d
  | .pdelayReq => d.emit (.ptpAnswer p)
  | .pdelayResp delay =>
    { d with net := { d.net with ports := Bits.modAt d.net.ports p (fun x => { x with delay := some delay }) } }

/-- PTP_MESSAGE_RECEIVED (R336 to R338): ring messages of every domain but those of the peer delay go on, and the PTP clock
takes those of PTP_DOMAIN. -/
def Dev.ptpReceive (p domain : Nat) (m : PtpMsg) (d : Dev) : Dev :=
  if !(d.portLive p) then d
  else
    let d := match m with
      | .pdelayReq => d
      | .pdelayResp _ => d
      | m => d.ptpForward p m
    if d.ptpOn p && domain == d.parN 0x20 0x11 then d.ptpTake p m else d

/-- The Announce of a master port: its own data set, or that of the grandmaster it follows, one step further on (R338, R333). -/
def Dev.ptpAnnounced (d : Dev) : PtpMsg :=
  let g := match d.slaveGm with | some g => { g with steps := g.steps + 1 } | none => d.ownGm
  .announce g.identity g.priority1 g.cls g.acc g.variance g.priority2 g.timeSource g.steps
    (if d.pps.utcValid then some d.pps.utcOff else none) d.pps.leap

/-- PTP_MESSAGE_SEND (Table 11.3): a master sends one-step Sync and Announce; every PTP port sends Pdelay_Req. -/
def Dev.ptpSend (p : Nat) (k : PtpSend) (d : Dev) : Dev :=
  if !(d.ptpOn p) then d
  else
    let master := (d.net.ports.getD p {}).ptp == 6
    match k with
    | .sync => if master then d.emit (.ptp p (.sync false d.dev 0)) else d
    | .announce => if master then d.emit (.ptp p d.ptpAnnounced) else d
    | .pdelayReq => d.emit (.ptp p .pdelayReq)

/-- ANNOUNCE_TIMEOUT (R338): the port has lost Announce for the receipt timeout. -/
def Dev.announceLost (p : Nat) (d : Dev) : Dev :=
  let iv := 1000000000 * 2 ^ (d.parI 0x20 0x16).toNat * d.parN 0x20 0x17
  let x := d.net.ports.getD p {}
  if d.ptpOn p && decide (iv ≤ d.time.now - x.annAt) then
    ({ d with net := { d.net with ports := Bits.modAt d.net.ports p (fun y => { y with gm := none }) } }).bmca
  else d

/-! ### The time record and points (Table 11.5, Table 11.10) -/

/-- This unit is grandmaster (TFLAGS bit 3, R340). -/
def Dev.isGm (d : Dev) : Bool :=
  d.parB 0x20 0x10 && d.parB 0x20 0x12 && d.slaveLike.isNone &&
    ((Bits.upTo 4).any (fun p => (d.par 0x20 0x19).getLsbD (if p < 2 then 0 else p - 1) &&
      (d.net.ports.getD p {}).ptp == 6))

/-- TFLAGS (Table 11.5 byte 20). -/
def Dev.tflags (d : Dev) : Nat :=
  d.timeFlags + flagBits [false, false, false, d.isGm, d.pps.leap != 0, d.pps.utcValid]

/-- GM_CLASS and GM_ACC (R340). -/
def Dev.gmShown (d : Dev) : Nat × Nat :=
  match d.slaveGm with
  | some g => (g.cls, g.acc)
  | none => if d.isGm then (d.ownQuality.1, d.ownQuality.2.2) else (248, 0xFE)

/-- PTP_STATE (R340). -/
def Dev.ptpShown (d : Dev) : Nat :=
  if !(d.parB 0x20 0x10) then 3
  else match d.slaveLike with
    | some p => (d.net.ports.getD p {}).ptp
    | none => match (Bits.upTo 4).find? (fun p => (d.par 0x20 0x19).getLsbD (if p < 2 then 0 else p - 1)) with
      | some p => (d.net.ports.getD p {}).ptp
      | none => 1

/-- ERR_EST: E saturating; FFFFFFFFh where it is unknown. -/
def Dev.errShown (d : Dev) : Nat := match d.time.err with | some e => Bits.sat 0xFFFFFFFF e | none => 0xFFFFFFFF

/-- Seconds in HOLDOVER. -/
def Dev.hoTime (d : Dev) : Nat := if d.time.state = .holdover then (d.c - d.time.hoSince) / 1000000000 else 0

/-- UTC_OFFSET: 0 until an offset is learned (Table 11.5). -/
def Dev.utcShown (d : Dev) : Int := if d.pps.utcValid then d.pps.utcOff else 0

/-- θ shown: 0 with no source. -/
def Dev.thetaShown (d : Dev) : Int := Bits.clampI (-2147483648) 2147483647 (d.time.theta.getD 0)

/-- The 48 bytes of TIME_READ (Table 11.5). -/
def Dev.timeRecord (d : Dev) : List Byte :=
  Bits.le 8 d.dev ++ Bits.le 8 d.c ++ Bits.le 4 d.frame.number ++ Bits.le 1 d.tflags ++ Bits.le 1 d.time.state.code ++
  Bits.le 1 d.time.source ++ Bits.le 1 d.time.aid.toNat ++ Bits.leI 2 d.utcShown ++ [0, 0] ++ Bits.le 4 d.errShown ++
  Bits.leI 4 d.thetaShown ++ Bits.leI 4 (d.time.rho / 256) ++ Bits.le 4 d.hoTime ++ Bits.le 1 d.gmShown.1 ++
  Bits.le 1 d.gmShown.2 ++ Bits.le 1 d.ptpShown ++ [0]

/-- The points of one port (Table 11.10). -/
def Dev.postPort (st : Word) (d : Dev) (p : Nat) : Dev :=
  let x := d.net.ports.getD p {}
  let b := 5392 + 8 * p
  ((((((d.postB 0xB b x.link st).postU 0xB (b + 1) x.rx st).postU 0xB (b + 2) x.tx st).postU 0xB (b + 3) x.errs st).postF
    0xB (b + 4) 8 (256 * x.delay.getD 0) st).postU 0xB (b + 5) x.drops st)

/-- The time and network points, written at each tick before the snapshot (R351). ρ in ppb has 16 fraction bits. -/
def Dev.netPoints (d : Dev) : Dev :=
  let st := BitVec.ofNat 32 d.frame.t0
  let d := d.postU 0xB 5376 (d.tflags + 256 * d.time.state.code + 65536 * d.time.source + 16777216 * d.time.aid.toNat) st
  let d := d.postU 0xB 5377 d.errShown st
  let d := d.postI 0xB 5378 d.thetaShown st
  let d := d.postF 0xB 5379 16 (d.time.rho * 1000000000 / 2 ^ 32) st
  let d := d.postI 0xB 5380 d.utcShown st
  let d := d.postU 0xB 5381 d.hoTime st
  let d := d.postU 0xB 5382 (d.gmShown.1 + 256 * d.gmShown.2) st
  let d := d.postU 0xB 5383 (Bits.fromLe ((Bits.upTo 4).map (fun p => BitVec.ofNat 8 (d.net.ports.getD p {}).ptp))) st
  let d := (Bits.upTo 4).foldl (fun x p => x.postPort st p) d
  let d := d.postU 0xB 5424 (if d.net.relays = 0 then 2 else if d.net.ringOpen then 1 else 0) st
  let d := d.postU 0xB 5425 d.net.nodes.length st
  let d := d.postU 0xB 5426 d.net.dups st
  let d := d.postU 0xB 5427 d.net.overwrites st
  let d := d.postU 0xB 5428 (Bits.sat 0xFFFFFFFF d.net.unoffered) st
  let d := d.postU 0xB 5440 d.net.ackPrev.toNat st
  let d := d.postU 0xB 5441 d.net.refusedPrev st
  (Bits.upTo 8).foldl (fun x q =>
    x.postU 0xB (5448 + q) ((d.net.launch.getD q []).length + 65536 * Bits.sat 0xFFFF (d.net.missed.getD q 0)) st) d

end Sys2Proof.Machine
end

