-- ==== Sys2Proof/Machine/Net.lean ====
section
/-! DEFINITION. Machine/Net.lean: launch queues, drive acknowledgements on Ethernet, the HSR ring and the PRP pair, links
and the bypass relays (11 R325, R341 to R349). -/

namespace Sys2Proof.Machine

open Sys2Proof

/-- A port. -/
def Dev.port (d : Dev) (p : Nat) : PortSt := d.net.ports.getD p {}

/-- A port changed. -/
def Dev.modPort (p : Nat) (f : PortSt → PortSt) (d : Dev) : Dev :=
  { d with net := { d.net with ports := Bits.modAt d.net.ports p f } }

/-- The ports of a port code (R341): 0 ring, 1 PRP pair, 2 PORT_C, 3 PORT_D. -/
def portsOf (code : Nat) : List Nat := if code = 0 then [0, 1] else if code = 1 then [2, 3] else [code]

/-- A port is enabled and has link. -/
abbrev Dev.portUp (d : Dev) (p : Nat) : Bool := d.portLive p

/-- Some port of a code is up. -/
def Dev.codeUp (d : Dev) (code : Nat) : Bool := (portsOf code).any d.portUp

/-- This module's MAC address as a number, first octet most significant (Table 17.9). -/
def Dev.mac (d : Dev) : Nat :=
  Bits.fromLe ((Bits.le 4 (d.parN 1 0x34) ++ Bits.le 2 (d.parN 1 0x35)).reverse)

/-! ### Launch queues (R325, R341 to R343) -/

/-- An entry takes its place by launch time, behind every entry with an equal or earlier time (R341). -/
def launchInsert (e : LaunchEnt) : List LaunchEnt → List LaunchEnt
  | [] => [e]
  | x :: xs => if e.due < x.due then e :: x :: xs else x :: launchInsert e xs

/-- An entry enters a launch queue; false where the queue is full (Table 1.4). -/
def Dev.launchPush (q : Nat) (e : LaunchEnt) (d : Dev) : Bool × Dev :=
  let (ok, d, ev) := d.qPush (0x14 + q)
  let d := if ok then { d with net := { d.net with launch := Bits.modAt d.net.launch q (launchInsert e) } } else d
  (ok, d.raiseQ ev)

/-- A missed entry is counted (R325, R342). -/
def Dev.launchMiss (q : Nat) (d : Dev) : Dev :=
  { d with net := { d.net with missed := Bits.modAt d.net.missed q (fun n => n + 1) } }

/-- Frames sent are counted on each port of a code, and HSR or PRP sequence numbers advance (R347, R348). -/
def Dev.sendEth (code : Nat) (bytes : List Byte) (d : Dev) : Dev :=
  let d := (portsOf code).foldl (fun x p => if x.portUp p then x.modPort p (fun y => { y with tx := y.tx + 1 }) else x) d
  let seq := if code = 0 then some d.net.seqHsr else if code = 1 then some d.net.seqPrp else none
  let d := { d with net := { d.net with
    seqHsr := if code = 0 then (d.net.seqHsr + 1) % 65536 else d.net.seqHsr,
    seqPrp := if code = 1 then (d.net.seqPrp + 1) % 65536 else d.net.seqPrp } }
  d.emit (.eth code seq bytes)

/-- One due entry leaves its port, or is missed where the port has no link (R342). -/
def Dev.launchOne (q : Nat) (e : LaunchEnt) (d : Dev) : Dev :=
  let (d, ev) := d.qRead (0x14 + q) 1
  let d := { d with net := { d.net with launch := Bits.modAt d.net.launch q (fun l => l.erase e) } }
  if !ev.isEmpty then
    match e.tag with | some t => (d.raiseQ ev).member t 2 q stTimeout | none => d.raiseQ ev
  else if d.codeUp e.port then
    let d := d.sendEth e.port e.frame
    match e.tag with | some t => d.member t 2 q stOk | none => d
  else
    let d := (d.launchMiss q).raiseI 0x0B0E 1 (256 * q + (portsOf e.port).headD 0)
      (Bits.le 1 q ++ Bits.le 1 ((portsOf e.port).headD 0))
    match e.tag with | some t => d.member t 2 q stTimeout | none => d

/-- The entries due at the instant of e on a port of e, in the order in which they leave: thruster frames first, then by
queue, then in queue order (R342). -/
def Dev.launchOrder (e : LaunchEnt) (d : Dev) : List (Nat × LaunchEnt) :=
  let l := (Bits.upTo 8).flatMap (fun q => ((d.net.launch.getD q []).filter (fun x =>
    x.due == e.due && (portsOf x.port).any (fun p => (portsOf e.port).contains p))).map (fun x => (q, x)))
  l.filter (fun x => x.2.thrusters != 0) ++ l.filter (fun x => x.2.thrusters == 0)

/-- LAUNCH_QUEUE_LAUNCH: the entry at the head of a queue reaches its launch time, and what shares its instant and port and
goes before it leaves first (R342). -/
def Dev.launchDue (q : Nat) (d : Dev) : Dev :=
  match d.net.launch.getD q [] with
  | e :: _ =>
    if e.due ≤ d.dev then
      (((d.launchOrder e).takeWhile (fun x => x != (q, e))) ++ [(q, e)]).foldl (fun x y => x.launchOne y.1 y.2) d
    else d
  | [] => d

/-- One member of a FRAME_LAUNCH: the frame joins launch queue q, dl ns before its instant `due` (R343). -/
def Dev.launchMember (frame : List Byte) (dl : Int) (due : Nat) (tag : BitVec 6) (x : Dev × List (Nat × Option Half)) (q : Nat) :
    Dev × List (Nat × Option Half) :=
  let (x, ms) := x
  if 2000000000 < dl then (x, ms ++ [(q, some stRange)])
  else if dl < 20000 then (x.launchMiss q, ms ++ [(q, some stTimeout)])
  else
    let (ok, x) := x.launchPush q { frame := frame, due := due, port := x.parN 0x20 (0x50 + q), tag := some tag }
    (x, ms ++ [(q, if ok then none else some stBusy)])

/-- FRAME_LAUNCH (R343): each queue of the mask is a member (KIND 2). -/
def Dev.frameLaunchOp (tag : BitVec 6) (r : Req) (d : Dev) : OpRes :=
  let dl := Bits.shortDiff (Bits.wordAt r.payload 0) d.short
  let l := Bits.at' r.payload 4 2
  if r.tgt = 0 || decide (255 < r.tgt) || decide (l < 60) || decide (1514 < l) || Bits.at' r.payload 6 2 != 0 then
    refuse d stRange
  else if r.len != 8 + (l + 3) / 4 * 4 then refuse d stBadLength (8 + (l + 3) / 4 * 4)
  else
    let (d, ms) := (Bits.maskBits 8 r.tgt).foldl
      (Dev.launchMember ((r.payload.drop 8).take l) dl ((d.dev : Int) + dl).toNat tag) (d, [])
    { dev := d, ans := .fan 2 ms (some (dl.toNat + 10000000)) }

/-- Entries of a request, or every entry, are discarded: their members fail with TIMEOUT (R29, R343, R48). -/
def Dev.launchDiscard (p : LaunchEnt → Bool) (d : Dev) : Dev :=
  (Bits.upTo 8).foldl (fun x q =>
    let l := (x.net.launch.getD q []).filter p
    let x := { x with net := { x.net with launch := Bits.modAt x.net.launch q (fun l => l.filter (fun e => !(p e))) } }
    let (x, ev) := if l.isEmpty then (x, []) else x.qDrop (0x14 + q) l.length
    let x := x.raiseQ ev
    l.foldl (fun y e => match e.tag with | some t => y.member t 2 q stTimeout | none => y) x) d

/-! ### Thruster acknowledgements on Ethernet (R346) -/

/-- One entry of an acknowledgement (Table 11.7). -/
def Dev.ackEntry (frameNo : Nat) (e : List Byte) (d : Dev) : Dev :=
  let j := Bits.byteAt e 0
  let st := Bits.byteAt e 1
  let t := d.can.thr.getD j {}
  if 24 ≤ j then d
  else if st != 0 then
    ({ d with net := { d.net with refused := d.net.refused + 1 } }).raiseI 0x0B0F 1 j (Bits.le 1 j ++ Bits.le 1 st)
  else if t.sent && frameNo == t.frame && frameNo == d.frame.number && Bits.wordAt e 4 == t.rcrc then
    { d with net := { d.net with ack := d.net.ack ||| BitVec.ofNat 24 (2 ^ j) } }
  else d

/-- The payload of an acknowledgement (Table 11.7): header checks, then the entries. -/
def Dev.ackBytes (bs : List Byte) (d : Dev) : Dev :=
  let n := Bits.byteAt bs 3
  if Bits.at' bs 0 2 != 0x5D1C || Bits.byteAt bs 2 != 1 || Bits.crc32c (Bits.fit 12 bs) != Bits.wordAt bs 12 ||
      n = 0 || decide (24 < n) || decide (bs.length < 16 + 8 * n) then d
  else (Bits.upTo n).foldl (fun x i => x.ackEntry (Bits.at' bs 4 4) ((bs.drop (16 + 8 * i)).take 8)) d

/-! ### The ring and the PRP pair (R347, R348) -/

/-- A discard table takes a frame: whether it is a duplicate, the table after, whether an entry was overwritten. -/
def dupTake (now forget src seq : Nat) (l : List Dup) : Bool × List Dup × Bool :=
  let live := l.filter (fun e => decide (now - e.at0 < forget))
  if live.any (fun e => e.src == src && e.seq == seq) then (true, live, false)
  else if 1024 ≤ live.length then (false, live.drop 1 ++ [{ src := src, seq := seq, at0 := now }], true)
  else (false, live ++ [{ src := src, seq := seq, at0 := now }], false)

/-- An overwritten entry is counted and raises 0B0Dh. -/
def Dev.tableFull (wrote : Bool) (kind : Nat) (d : Dev) : Dev :=
  if wrote then ({ d with net := { d.net with overwrites := d.net.overwrites + 1 } }).raise 0x0B0D 0 (Bits.le 1 kind) else d

/-- DDT_FORGET in ns. -/
def Dev.ddtForget (d : Dev) : Nat := 1000000 * d.parN 0x20 0x41

/-- The ring is judged CLOSED when own supervision frames have returned both ways in 2 × LIFE_CHECK (R347). -/
def Dev.ringJudge (d : Dev) : Dev :=
  let lim := 2000000 * d.parN 0x20 0x43
  let fresh := fun (o : Option Nat) => match o with | some t => decide (d.time.now - t ≤ lim) | none => false
  if fresh d.net.supA && fresh d.net.supB then
    if d.net.ringOpen then
      ({ d with net := { d.net with ringOpen := false } }).raise 0x0B0C 0 (Bits.le 4 ((d.time.now - d.net.openSince) / 1000000))
    else d
  else d

/-- RING_OPEN: own supervision frames have failed to return within 2 × LIFE_CHECK (R347). -/
def Dev.ringOpens (d : Dev) : Dev :=
  let lim := 2000000 * d.parN 0x20 0x43
  let late := fun (o : Option Nat) => match o with | some t => decide (lim < d.time.now - t) | none => true
  if !d.net.ringOpen && (late d.net.supA || late d.net.supB) then
    ({ d with net := { d.net with ringOpen := true, openSince := d.time.now } }).raise 0x0B0B 1 []
  else d

/-- A node is seen (R347): the table holds 256. -/
def Dev.seeNode (mac : Nat) (d : Dev) : Dev :=
  if d.net.nodes.any (fun n => n.1 == mac) then
    { d with net := { d.net with nodes := d.net.nodes.map (fun n => if n.1 = mac then (mac, d.time.now) else n) } }
  else if d.net.nodes.length < 256 then { d with net := { d.net with nodes := d.net.nodes ++ [(mac, d.time.now)] } }
  else d

/-- Forwarding on the ring (R347): not the frames for this module alone, not duplicates; a frame that finds the other port's
buffer full is dropped and counted. -/
def Dev.hsrForward (p : Nat) (f : EthFrame) (seq : Nat) (d : Dev) : Dev :=
  if f.dst = d.mac then d
  else
    let (dup, t, wrote) := dupTake d.time.now d.ddtForget f.src seq d.net.hsrFwd
    let d := { d with net := { d.net with hsrFwd := t } }
    let d := d.tableFull wrote 0
    if dup || !(d.portUp (1 - p)) then d
    else if f.noBuffer then d.modPort (1 - p) (fun x => { x with drops := x.drops + 1 })
    else (d.modPort (1 - p) (fun x => { x with tx := x.tx + 1 })).emit (.forward (1 - p) f)

/-- Reception of a frame up to the duplicate discard: whether it is offered, and the state (R347, R348, R100). -/
def Dev.ethIntake (p : Nat) (f : EthFrame) (d : Dev) : Bool × Dev :=
  if !(d.portUp p) then (false, d)
  else if f.fcsBad then (false, d.modPort p (fun x => { x with errs := x.errs + 1 }))
  else
    let d := d.modPort p (fun x => { x with rx := x.rx + 1 })
    match f.red with
    | none => (true, d)
    | some r =>
      if p < 2 then
        if f.src = d.mac then
          -- An own frame comes back: it is removed; a supervision frame closes the ring.
          if f.ethType = 0x88FB then
            (false, ({ d with net := { d.net with
              supA := if p = 0 then some d.time.now else d.net.supA,
              supB := if p = 1 then some d.time.now else d.net.supB } }).ringJudge)
          else (false, d)
        else
          let d := (d.seeNode f.src).hsrForward p f r.seq
          let (dup, t, wrote) := dupTake d.time.now d.ddtForget f.src r.seq d.net.hsr
          let d := ({ d with net := { d.net with hsr := t } }).tableFull wrote 0
          if dup then (false, { d with net := { d.net with dups := d.net.dups + 1 } })
          else (f.ethType != 0x88FB, d)
      else if d.parB 0x20 0x40 then
        let (dup, t, wrote) := dupTake d.time.now d.ddtForget f.src r.seq d.net.prp
        let d := ({ d with net := { d.net with prp := t } }).tableFull wrote 1
        if dup then (false, { d with net := { d.net with dups := d.net.dups + 1 } })
        else (f.ethType != 0x88FB, d)
      else (true, d)

/-- STORM_LIMIT (Table 11.9): of the broadcast and multicast frames a port brings the module's own stack in a second of the raw
counter, those above the limit go no further; 0 sets none. The seconds are the model's choice (notes/assumptions/102.md). -/
def Dev.storm (p : Nat) (f : EthFrame) (d : Dev) : Bool × Dev :=
  let limit := d.parN 0x20 (0x22 + 8 * p)
  if limit = 0 ∨ f.dst.testBit 40 = false then (true, d)
  else
    let second := d.c / 1000000000
    let x := d.net.ports.getD p {}
    let n := if x.stormAt = second then x.stormed else 0
    if limit ≤ n then (false, d) else (true, d.modPort p (fun y => { y with stormAt := second, stormed := n + 1 }))

/-- ACK_FRAME_RECEIVED (R346): a frame of EtherType 88B5h to this module's own address counts on either port, once. -/
def Dev.ackFrame (p : Nat) (f : EthFrame) (d : Dev) : Dev :=
  let (offered, d) := d.ethIntake p f
  if offered && f.ethType == 0x88B5 && f.dst == d.mac then d.ackBytes f.payload else d

/-- SUPERVISION_FRAME_SEND (R347, R348): destination 01-15-4E-00-01-xx, EtherType 88FBh, this module's address. -/
def Dev.supervise (d : Dev) : Dev :=
  let b := [0x01, 0x15, 0x4E, 0x00, 0x01] ++ Bits.le 1 (d.parN 0x20 0x44) ++ Bits.be 6 d.mac ++ [0x88, 0xFB]
  let d := if d.codeUp 0 then d.sendEth 0 b else d
  if d.parB 0x20 0x40 && d.codeUp 1 then d.sendEth 1 b else d

/-- NODE_FORGET: entries past their hold time are forgotten (R347). -/
def Dev.forget (d : Dev) : Dev :=
  let keep := fun (e : Dup) => decide (d.time.now - e.at0 < d.ddtForget)
  { d with net := { d.net with
      nodes := d.net.nodes.filter (fun n => decide (d.time.now - n.2 < 1000000000 * d.parN 0x20 0x42)),
      hsr := d.net.hsr.filter keep, hsrFwd := d.net.hsrFwd.filter keep, prp := d.net.prp.filter keep } }

/-- PORT_LINK_CHANGE (R347, Table 11.11). -/
def Dev.linkChange (p : Nat) (up : Bool) (d : Dev) : Dev :=
  if (d.port p).link = up then d
  else
    let d := d.modPort p (fun x => { x with link := up, gm := if up then x.gm else none })
    let d := if up then d.raiseI 0x0B0A 0 p (Bits.le 1 p) else d.raiseI 0x0B09 1 p (Bits.le 1 p)
    d.bmca

/-! ### Relays (R349) and the tick -/

/-- The relays are energised or released (R349, Table 11.8). -/
def Dev.relays (d : Dev) : Dev :=
  let on := d.life.ready && !d.life.inReset && !d.clasp.onHoldup && d.parB 0x20 0x20 &&
    d.parB 0x20 0x28 && (d.hw.phyFault &&& 3 == 0)
  { d with net := { d.net with relays := if on then 3 else 0 } }

/-- BYPASS_MISMATCH (R349): coil and read-back have disagreed for more than 20 ms. -/
def Dev.bypassBad (r : Nat) (d : Dev) : Dev :=
  ({ d with net := { d.net with relayBad := d.net.relayBad ||| BitVec.ofNat 2 (2 ^ r) } }).raiseI 0x0B13 3 r (Bits.le 1 r)

/-- PORT_EN takes effect at a tick (R350, R496). -/
def Dev.applyPortEn (d : Dev) : Dev :=
  ((Bits.upTo 4).foldl (fun x p => x.modPort p (fun y =>
    { y with enabled := x.life.running496 && x.parB 0x20 (0x20 + 8 * p) && !(x.hw.phyFault.getLsbD p) })) d).relays

/-- The acknowledgements of a frame become those of the previous frame (Table 11.10). -/
def Dev.ackRoll (d : Dev) : Dev :=
  { d with net := { d.net with ackPrev := d.net.ack, ack := 0, refusedPrev := d.net.refused, refused := 0 } }

end Sys2Proof.Machine
end

