-- ==== Sys2Proof/Machine/Image.lean ====
section
/-! DEFINITION. Machine/Image.lean: host access to the signal image, standing notifications, the snapshot and the scrub
(03 R84 to R90, R104, R17). -/

namespace Sys2Proof.Machine

open Sys2Proof

/-! ### Reading (R86) -/

/-- The record a reader gets at an index: a reserved one reads as after reset (R83). -/
def Dev.readPt (d : Dev) (i : Nat) : Point := if d.reserved i then {} else d.pt i

/-- A reader or the scrub meets a record with wrong bits (R104): one wrong bit is corrected, written back and counted; more
make the record BAD from now on, its other bytes as read, and raise 0307h. -/
def Dev.imageMeet (i : Nat) (d : Dev) : Dev :=
  let m := d.struckAt i
  let d := { d with image := { d.image with struck := Bits.put (fun _ => 0) d.image.struck i 0 } }
  if m = 0 then d
  else if d.image.bad.contains i || uncorrectable m then
    let p := Bits.get (fun _ => ({} : Point)) d.image.live i
    let d1 := { d with image := { d.image with live := Bits.put (fun _ => ({} : Point)) d.image.live i (p.flip m) } }
    if d.image.bad.contains i then d1
    else ({ d1 with image := { d1.image with bad := i :: d1.image.bad } }).raise 0x0307 3 (Bits.le 4 i)
  else { d with image := { d.image with corrected := d.image.corrected + 1 } }

/-- Every record among those read that holds wrong bits is met. -/
def Dev.imageFind (among : Nat → Bool) (d : Dev) : Dev :=
  ((d.image.struck.map Prod.fst).filter among).foldl (fun x i => x.imageMeet i) d

/-- SIGNAL_READ (R86): all records at one instant. -/
def Dev.signalReadOp (r : Req) (d : Dev) : OpRes :=
  let first := r.tgt % 2 ^ 17
  let n := r.tgt / 2 ^ 17 % 1024 + 1
  if r.src.tr = .udp ∧ 87 < n then refuse d stBadLength 1392
  else if 131072 < first + n then refuse d stRange
  else
    let d := d.imageFind (fun i => decide (first ≤ i) && decide (i < first + n))
    reads d ((Bits.upTo n).flatMap (fun k => (d.readPt (first + k)).bytes))

/-! ### Writing (R85, R87 to R89) -/

/-- The zero bytes of Table 3.2 and its limits (R79). -/
def Point.layoutOk (p : Point) : Bool :=
  let t := p.typ.toNat
  let v := p.value.toNat
  if t = 0 then v == 0
  else if t = 1 then decide (v ≤ 1)
  else if t = 4 then decide (v / 2 ^ 32 ≤ 31)
  else decide (t ≤ 5) && decide (v < 2 ^ 32)

/-- The type rule of R85: a typed point takes its own type. -/
def typeOk (held new : Byte) : Bool := held == 0 || new == held

/-- A host record passes R87. -/
def Dev.hostRecordOk (d : Dev) (i : Nat) (p : Point) : Bool :=
  d.hostOwned i && (p.typ == 0 || typeOk (d.pt i).typ p.typ) && p.layoutOk && decide (p.quality.toNat ≤ 5)

/-- A record as the module writes it for the host: type NONE releases the point (R85). -/
def hostRecord (tr : Transport) (p : Point) : Point :=
  if p.typ = 0 then {} else { p with source := BitVec.ofNat 16 (0x2000 + trCode tr) }

/-- The state of a flow context (Table 3.8); a publish context is UP where a port of PORTS is enabled with link. -/
def Dev.flowState (d : Dev) (x : FlowCtx) : Nat :=
  if x.state = 0 then 0
  else if Bits.byteAt x.payload 0 = 1 then (if d.codeUp (Bits.byteAt x.payload 3) then 2 else 4)
  else x.state

/-- The open publish contexts that carry one of n indices from `first` (R88). -/
def Dev.publishers (d : Dev) (first n : Nat) : List (Nat × FlowCtx) :=
  d.flows.ctxs.filter (fun p => p.2.state != 0 && Bits.byteAt p.2.payload 0 == 1 &&
    (Bits.upTo n).any (fun k => flowCovers p.2.payload (first + k)))

/-- The partner is ACTIVE, as its heartbeat shows it. -/
def Dev.partnerActive (d : Dev) : Bool :=
  match d.clasp.partner with | some b => d.clasp.partnerHere && b.role == 0 | none => false

/-- SIGNAL_WRITE (R87 to R89): all records or none. -/
def Dev.signalWriteOp (r : Req) (d : Dev) : OpRes :=
  let n := r.len / 16
  let recs := (Bits.upTo n).map (fun k => pointOf ((r.payload.drop (16 * k)).take 16))
  if d.partnerActive then refuse d stRole 0
  else match (Bits.upTo n).find? (fun k => !(d.hostRecordOk (r.tgt + k) (recs.getD k {}))) with
    | some k => refuse d stRange k
    | none =>
      let ms := ((d.publishers r.tgt n).map (fun p =>
        (p.1, if d.flowState p.2 = 2 then stOk else stTimeout))).take 64
      let f := fanFin 3 ms (BitVec.ofNat 16 n) []
      let d := (Bits.upTo n).foldl (fun x k => x.setPt (r.tgt + k) (hostRecord r.src.tr (recs.getD k {}))) d
      let d := if f.status = stPartial then d.partialEvent 0x21 3 ms else d
      { dev := d, ans := .fin f }

/-! ### Standing notifications (R90) -/

/-- A 32-bit value of a type as a fraction; none where it cannot be compared (COND 3 and 4). -/
def numberOf (typ : Nat) (w : Word) : Option (Int × Nat) :=
  if typ = 2 ∨ typ = 4 then some (w.toInt, 1)
  else if typ = 3 then some ((w.toNat : Int), 1)
  else if typ = 5 then Bits.float32 w
  else none

/-- a < b of two fractions. -/
def fracLt (a b : Int × Nat) : Bool := decide (a.1 * b.2 < b.1 * a.2)

/-- The sum of two fractions, the second taken `s` times. -/
def fracAdd (a : Int × Nat) (s : Int) (b : Int × Nat) : Int × Nat := (a.1 * b.2 + s * b.1 * a.2, a.2 * b.2)

/-- The ranges of a SIGNAL_NOTIFY at an index whose record is p (Table 3.6): a threshold needs a type with a number, and a
hysteresis that is not negative. -/
def notifyOk (r : Req) (p : Point) : Bool :=
  let cond := Bits.byteAt r.payload 0
  let t := p.typ.toNat
  let badNumber := decide (3 ≤ cond) &&
    (match numberOf t (Bits.wordAt r.payload 4), numberOf t (Bits.wordAt r.payload 8) with
     | some _, some h => decide (h.1 < 0)
     | _, _ => true)
  decide (r.tgt ≤ 131071) && decide (cond ≤ 4) && Bits.byteAt r.payload 1 == 0 && decide (Bits.at' r.payload 2 2 ≤ 60000) &&
    Bits.at' r.payload 12 4 == 0 && !badNumber

/-- SIGNAL_NOTIFY, a new condition or a cancel (R90, Table 3.6). -/
def Dev.signalNotifyOp (tag : BitVec 6) (r : Req) (d : Dev) : OpRes :=
  if r.target.getLsbD 31 then
    let st := BitVec.ofNat 6 r.tgt
    match d.image.watches.find? (fun w => w.tag == st) with
    | none => refuse d stRange
    | some _ =>
      let d := { d with image := { d.image with watches := d.image.watches.filter (fun x => x.tag != st) } }
      done (d.finish st { status := stOk })
  else
    let p := d.readPt r.tgt
    if !(notifyOk r p) then refuse d stRange
    else if 16 ≤ d.image.watches.length then refuse d stBusy
    else
      let w : Watch := {
        tag := tag, index := r.tgt, cond := Bits.byteAt r.payload 0, minInterval := Bits.at' r.payload 2 2,
        thr := Bits.wordAt r.payload 4, hyst := Bits.wordAt r.payload 8, seen := some p }
      { dev := { d with image := { d.image with watches := d.image.watches ++ [w] } }, ans := .stand }

/-- Whether a condition is met on a snapshot record, and the watch re-armed or disarmed (Table 3.6). -/
def Watch.judge (w : Watch) (p : Point) : Bool × Watch :=
  let old := w.seen.getD {}
  let v := numberOf p.typ.toNat (BitVec.ofNat 32 p.value.toNat)
  let th := numberOf p.typ.toNat w.thr
  let hy := numberOf p.typ.toNat w.hyst
  let w1 := { w with seen := some p, wrote := false }
  if w.cond = 0 then (w.wrote, w1)
  else if w.cond = 1 then (p.value != old.value, w1)
  else if w.cond = 2 then (p.quality != old.quality, w1)
  else match v, th, hy with
    | some v, some th, some hy =>
      if w.cond = 3 then
        if w.armed && fracLt th v then (true, { w1 with armed := false })
        else (false, { w1 with armed := w.armed || fracLt v (fracAdd th (-1) hy) })
      else if w.armed && fracLt v th then (true, { w1 with armed := false })
      else (false, { w1 with armed := w.armed || fracLt (fracAdd th 1 hy) v })
    | _, _, _ => (false, w1)

/-- One watch at a tick (R90): a notification at most once in MIN_INTERVAL, a sooner one held. -/
def Dev.watchTick (w : Watch) (d : Dev) : Dev :=
  let p := if d.reserved w.index then {} else d.snapPt w.index
  let (met, w) := w.judge p
  let due := match w.last with | some t => decide (1000000 * w.minInterval ≤ d.time.now - t) | none => true
  let send := (met || w.held) && due
  let w := { w with held := (met || w.held) && !due, last := if send then some d.time.now else w.last }
  let d := { d with image := { d.image with watches := d.image.watches.map (fun x => if x.tag = w.tag then w else x) } }
  if send then
    match d.pend w.tag with
    | some q => d.answer q.op q.req rNotify stOk 0 p.bytes
    | none => d
  else d

/-- Bits have turned over in stored records. -/
def Dev.imageStrike (m : MemoryIn) (d : Dev) : Dev :=
  m.struck.foldl (fun (x : Dev) (e : Nat × Nat) => { x with image := { x.image with
    struck := Bits.put (fun _ => 0) x.image.struck e.1 (x.struckAt e.1 ^^^ e.2) } }) d

/-- Bits have turned over in the second read pointer of queues: the next access finds the copies apart (R34). -/
def Dev.pointerStrike (m : MemoryIn) (d : Dev) : Dev :=
  m.pointers.foldl (fun (x : Dev) (e : Nat × Nat) => x.setQ e.1 { x.q e.1 with rd2 := (x.q e.1).rd2 ^^^ e.2 }) d

/-- The background scrub of a frame: 2,622 records from where the last one ended (R104). -/
def Dev.imageScrub (d : Dev) : Dev :=
  let from' := d.image.scrub
  let d := d.imageFind (fun i => decide ((i + 131072 - from') % 131072 < 2622))
  { d with image := { d.image with scrub := (from' + 2622) % 131072 } }

/-- The snapshot of a tick (R17): every record as it is read (R104). A block that reads an uncorrectable record there gets it
BAD at once; its event is raised by the scrub or by a SIGNAL_READ (DESIGN CHOICE, notes/assumptions/98.md). -/
def Dev.snapshot (d : Dev) : Dev :=
  let odd := d.image.bad ++ d.image.struck.map Prod.fst
  { d with image := { d.image with
      snap := if odd.isEmpty then d.image.live
              else odd.foldl (fun m i => Bits.put (fun _ => ({} : Point)) m i (d.pt i)) d.image.live } }

/-- Every standing condition at a tick. -/
def Dev.notifyTick (d : Dev) : Dev := d.image.watches.foldl (fun x w => x.watchTick w) d

/-- A step of device time shifts the stamps of the records that hold a type (R29); a record that so changes is marked for the
mirror (R103). -/
def Dev.shiftStamps (step : Int) (d : Dev) : Dev :=
  let sh := BitVec.ofInt 32 step
  let f := fun (m : SMap Point) => m.map (fun p => (p.1, if p.2.typ = 0 then p.2 else { p.2 with stamp := p.2.stamp + sh }))
  let moved := (d.image.live.filter (fun (p : Nat × Point) => p.2.typ != 0 && sh != 0)).map Prod.fst
  let d := moved.foldl (fun (x : Dev) i => x.markPt i) d
  { d with image := { d.image with live := f d.image.live, snap := f d.image.snap } }

end Sys2Proof.Machine
end

