-- ==== Sys2Proof/Machine/Trace.lean ====
section
/-! DEFINITION. Machine/Trace.lean: trace probes, and the conversion of signal points to Q1.15 (09 R275, R290 to R292). -/

namespace Sys2Proof.Machine

open Sys2Proof

/-- A signed 16-bit value of the low 16 bits. -/
def wrap16 (i : Int) : Int := (BitVec.ofInt 16 i).toInt

/-- Saturation to 16 bits. -/
def sat16 (i : Int) : Int := Bits.clampI (-32768) 32767 i

/-- The conversion of a signal point to Q1.15 (R275): MUL, SH, WRAP; with the quality it reads with. -/
def toQ15 (p : Point) (scale : Word) (wrap : Bool) : Int × Nat :=
  let mul : Int := (scale.toNat % 2 ^ 24 : Nat)
  let sh := scale.toNat / 2 ^ 24 % 64
  let w : Word := BitVec.ofNat 32 p.value.toNat
  let q := p.quality.toNat
  let scaleOf := fun (r : Int) =>
    let x := if sh = 0 then r * mul else (r * mul + 2 ^ (sh - 1)) / 2 ^ sh
    if wrap then wrap16 x else sat16 x
  if p.typ = 1 then (if w.getLsbD 0 then 32767 else 0, q)
  else if p.typ = 3 then (scaleOf w.toNat, q)
  else if p.typ = 5 then
    match Bits.float32 w with
    | some (n, d) => (scaleOf (Bits.roundUp (n * 65536) d), q)
    | none => (0, 3)
  else (scaleOf w.toInt, q)

/-- A Q1.31 value as Q1.15 (R122, R280). -/
def q31to15 (v : Int) : Int := Bits.clampI (-32768) 32767 ((v + 32768) / 65536)

/-! ### Arming and stopping (R290) -/

/-- A probe. -/
def Dev.probe (d : Dev) (n : Nat) : Probe := d.probes.getD n {}

/-- A probe changed. -/
def Dev.modProbe (n : Nat) (f : Probe → Probe) (d : Dev) : Dev := { d with probes := Bits.modAt d.probes n f }

/-- The probe captures: filling, waiting or capturing. -/
def Probe.live (p : Probe) : Bool := decide (1 ≤ p.state) && decide (p.state ≤ 3)

/-- Fields of an armed payload (Table 9.7). -/
def Probe.srcKind (p : Probe) : Nat := Bits.byteAt p.payload 0
/-- SRC_NUM. -/
def Probe.srcNum (p : Probe) : Nat := Bits.at' p.payload 2 2
/-- PRE. -/
def Probe.pre (p : Probe) : Nat := Bits.at' p.payload 14 2
/-- LENGTH. -/
def Probe.length (p : Probe) : Nat := Bits.at' p.payload 24 4

/-- A live probe stops: 0906h with the cause, and the final reply of its request. -/
def Dev.stopProbe (n cause flag : Nat) (f : Fin) (d : Dev) : Dev :=
  let p := d.probe n
  if p.live then
    let d := d.modProbe n (fun p => { p with state := 5, flags := p.flags ||| flag, tag := none })
    let d := d.raiseI 0x0906 0 n (Bits.le 1 n ++ Bits.le 1 cause)
    match p.tag with | some t => d.finish t f | none => d
  else d

/-- Throttling stops every capture (R290). -/
def Dev.traceThrottle (d : Dev) : Dev :=
  if d.health.x = 0 then d
  else (Bits.upTo 16).foldl (fun x n =>
    x.stopProbe n 1 4 { status := stThrottled, rarg := BitVec.ofNat 16 d.health.x }) d

/-- A self-test of domain ENGINE stops every capture (R290). -/
def Dev.traceSelftest (d : Dev) : Dev :=
  (Bits.upTo 16).foldl (fun x n => x.stopProbe n 2 8 { status := stBusy }) d

/-- The output rate in Hz and the input rate of a preset (Table 4.5); 0 for OFF. -/
def presetRates (preset : Nat) : Nat × Nat :=
  if preset = 1 ∨ preset = 2 then (64000, 1000) else if preset = 3 then (64000, 2000)
  else if preset = 4 ∨ preset = 5 then (64000, 4000) else if preset = 6 then (64000, 8000)
  else if preset = 7 then (16000, 1000) else if preset = 8 then (8000, 1000) else if preset = 9 then (128000, 32000) else (0, 0)

/-- The nominal time between kept samples, ns (Table 9.9). -/
def Dev.tracePeriod (d : Dev) (kind num div : Nat) : Nat :=
  if kind ≤ 3 then div * 1000000 * (d.parN 0x18 (0x1005 + 16 * num) % 16)
  else if kind = 4 then
    let r := (presetRates (d.parN 5 (0x1000 + num))).2
    if r = 0 then 0 else div * (1000000000 / r)
  else div * 1000000

/-- The ranges of a TRACE_ARM (Table 9.7). -/
def traceArmOk (r : Req) : Bool :=
  let p := r.payload
  let kind := Bits.byteAt p 0
  let trig := Bits.byteAt p 1
  let num := Bits.at' p 2 2
  let div := Bits.at' p 12 2
  let len := Bits.at' p 24 4
  decide (r.tgt ≤ 15) && decide (kind ≤ 5) && decide (trig ≤ 6) &&
    (if kind ≤ 3 then decide (num ≤ 255) else if kind = 4 then decide (num ≤ 511) else decide (Bits.at' p 4 4 ≤ 131071)) &&
    !(kind == 5 && Bits.at' p 8 4 / 2 ^ 30 % 2 == 1) && decide (1 ≤ div) && decide (div ≤ 1000) &&
    decide (1 ≤ len) && decide (len ≤ 8192) && decide (Bits.at' p 14 2 < len) && decide (Bits.at' p 18 2 ≤ 32767) &&
    !(trig == 6 && Bits.at' p 20 4 % 16 == r.tgt) && Bits.at' p 28 4 == 0

/-- TRACE_ARM (R290, Table 9.7). -/
def Dev.traceArmOp (tag : BitVec 6) (r : Req) (d : Dev) : OpRes :=
  let p := r.payload
  if !(traceArmOk r) then refuse d stRange
  else if d.health.x ≠ 0 then refuse d stThrottled d.health.x
  else
    let d := d.stopProbe r.tgt 3 0 { status := stTimeout }
    let new : Probe := { payload := p, state := if Bits.at' p 14 2 = 0 then 2 else 1, tag := some tag,
                         period := d.tracePeriod (Bits.byteAt p 0) (Bits.at' p 2 2) (Bits.at' p 12 2) }
    deferred (d.modProbe r.tgt (fun _ => new)) none

/-! ### Sampling and triggers (R291) -/

/-- The trigger of Table 9.8 on a kept sample. -/
def Probe.fires (p : Probe) (v : Int) (frame : Nat) : Bool :=
  let k := Bits.byteAt p.payload 1
  let level := Bits.atI p.payload 16 2
  let rise := p.wasBelow && decide (level ≤ v)
  let fall := p.wasAbove && decide (v ≤ level)
  if k = 0 then true else if k = 1 then rise else if k = 2 then fall else if k = 3 then rise || fall
  else if k = 5 then frame == Bits.at' p.payload 20 4
  else p.hit

/-- The hysteresis memory of kinds 1 to 3. -/
def Probe.arm (p : Probe) (v : Int) : Probe :=
  let level := Bits.atI p.payload 16 2
  let hyst := (Bits.at' p.payload 18 2 : Int)
  { p with wasBelow := p.wasBelow || decide (v < level - hyst), wasAbove := p.wasAbove || decide (level + hyst < v) }

/-- A capture that holds LENGTH samples is complete (R290). -/
def Dev.traceDone (n : Nat) (d : Dev) : Dev :=
  let p := d.probe n
  if p.state = 3 ∧ p.length ≤ p.samples.length then
    let d := d.modProbe n (fun p => { p with state := 4, tag := none })
    match p.tag with | some t => d.finish t { status := stOk } | none => d
  else d

/-- One source sample reaches a probe: value, whether it is GOOD, and its device time. -/
def Dev.traceSample (n : Nat) (v : Int) (good : Bool) (time : Nat) (d : Dev) : Dev :=
  let p := d.probe n
  if !p.live then d
  else
    let keep := p.count % (Bits.at' p.payload 12 2) == 0
    let d := d.modProbe n (fun p => { p with count := p.count + 1 })
    if !keep then d
    else
      let d := d.modProbe n (fun p => { p with flags := if good then p.flags else p.flags ||| 16 })
      if p.state = 3 then (d.modProbe n (fun p => { p with samples := p.samples ++ [v] })).traceDone n
      else if p.fires v d.frame.number then
        let d := d.modProbe n (fun p => { p with
          state := 3, preHeld := p.samples.length, samples := p.samples ++ [v], trigFrame := d.frame.number,
          trigTime := time, flags := if p.samples.length < p.pre then p.flags ||| 1 else p.flags })
        let d := { d with probes := d.probes.map (fun (q : Probe) =>
          if Bits.byteAt q.payload 1 = 6 ∧ Bits.at' q.payload 20 4 % 16 = n ∧ (q.state = 1 ∨ q.state = 2) then { q with hit := true }
          else q) }
        (d.raiseI 0x0905 0 n (Bits.le 1 n ++ Bits.le 4 d.frame.number)).traceDone n
      else
        d.modProbe n (fun p =>
          let s := (p.samples ++ [v]).drop (p.samples.length + 1 - p.pre)
          { (p.arm v) with samples := s, state := if p.pre ≤ s.length then 2 else 1 })

/-- The live probes of a source kind and number. -/
def Dev.probesOn (d : Dev) (kind num : Nat) : List Nat :=
  (Bits.upTo 16).filter (fun n => (d.probe n).live && (d.probe n).srcKind == kind &&
    (kind == 5 || (d.probe n).srcNum == num))

/-- A sample of a source reaches every probe on it. -/
def Dev.traceFeed (kind num : Nat) (v : Int) (good : Bool) (time : Nat) (d : Dev) : Dev :=
  (d.probesOn kind num).foldl (fun x n => x.traceSample n v good time) d

/-- The signal-point sources at s+0.25 ms of a sub-tick (R290). -/
def Dev.tracePoints (d : Dev) : Dev :=
  (d.probesOn 5 0).foldl (fun x n =>
    let p := x.probe n
    let sc := Bits.wordAt p.payload 8
    let (v, q) := toQ15 (x.readPt (Bits.at' p.payload 4 4)) sc (sc.getLsbD 31)
    x.traceSample n v (q == 0) x.frame.subAt) d

/-- A step of device time marks the captures in progress (R292). -/
def Dev.traceStep (d : Dev) : Dev :=
  { d with probes := d.probes.map (fun p => if p.state = 3 then { p with flags := p.flags ||| 2 } else p) }

/-- The payload of TRACE_READ: the head and n samples from off (R292, Table 9.9). -/
def Probe.bytes (p : Probe) (off n : Nat) : List Byte :=
  let s := (p.samples.drop off).take n
  Bits.le 4 p.trigFrame ++ Bits.le 8 p.trigTime ++ Bits.le 4 p.period ++ Bits.le 2 p.samples.length ++
    Bits.le 2 (if p.state = 1 ∨ p.state = 2 then p.samples.length else p.preHeld) ++ Bits.le 1 p.state ++ Bits.le 1 p.flags ++
    Bits.le 2 p.srcNum ++ Bits.zeros 8 ++
    Bits.pad4 (s.flatMap (fun v => Bits.leI 2 v) ++ Bits.zeros (2 * (n - s.length)))

/-- TRACE_READ (R292, Table 9.9). -/
def Dev.traceReadOp (r : Req) (d : Dev) : OpRes :=
  let off := Bits.at' r.payload 0 2
  let n := Bits.at' r.payload 2 2
  let max := if r.src.tr = .udp then 684 else 8176
  if 15 < r.tgt then refuse d stRange
  else if max < n then refuse d stBadLength (32 + 2 * max)
  else
    reads d ((d.probe r.tgt).bytes off n)

end Sys2Proof.Machine
end

