-- ==== Sys2Proof/Machine/Acq.lean ====
section
/-! DEFINITION. Machine/Acq.lean: sample ports, decimation chains, resamplers, synchronising resets and the outputs of a
sub-tick (04). -/

namespace Sys2Proof.Machine

open Sys2Proof

/-! ### Tables 4.3 to 4.5 -/

/-- Taps of the stages of a preset (Table 4.5). -/
def presetTaps (preset : Nat) : List Nat :=
  if preset = 1 then [7, 7, 7, 7, 7, 11] else if preset = 2 then [7, 7, 7, 7, 11, 23] else if preset = 3 then [7, 7, 7, 7, 11]
  else if preset = 4 then [7, 7, 7, 11] else if preset = 5 then [7, 7, 11, 23] else if preset = 6 then [7, 11, 23]
  else if preset = 7 then [7, 7, 11, 23] else if preset = 8 then [7, 11, 43] else if preset = 9 then [11, 23] else []

/-- Side taps h1, h3, ... of a half-band set (Table 4.4). -/
def halfBand (taps : Nat) : List Int :=
  if taps = 7 then [36864, -4096] else if taps = 11 then [38400, -6400, 768]
  else if taps = 23 then [41380, -12675, 6357, -3277, 1507, -524]
  else [41588, -13631, 7825, -5112, 3473, -2359, 1560, -983, 577, -301, 131]

/-- Group delay of a preset in input samples (R118). -/
def presetDelay (preset : Nat) : Nat :=
  ((presetTaps preset).foldl (fun (a : Nat × Nat) t => (a.1 + (t - 1) / 2 * a.2, 2 * a.2)) (0, 1)).1

/-- Input samples per output of a preset. -/
def presetDecim (preset : Nat) : Nat := 2 ^ (presetTaps preset).length

/-- The settle count (R118). -/
def presetSettle (preset : Nat) : Nat := (presetDelay preset + presetDecim preset - 1) / presetDecim preset + 1

/-- The hold count (R118). -/
def presetHold (preset : Nat) : Nat := (2 * presetDelay preset + presetDecim preset - 1) / presetDecim preset + 1

/-- Port rate in Hz (Table 4.3). -/
def portRate (code : Nat) : Nat := if code = 0 then 8000 else if code = 1 then 16000 else if code = 2 then 64000 else 128000

/-- CLK frequency in Hz (R107). -/
def portClock (code : Nat) : Nat := if code = 0 then 49152000 else if code = 1 then 24576000 else 12288000

/-- The geometry of a port: rate, CLK, slot count, format, LATENCY, lead K (R119). -/
structure PortGeo where
  rate : Nat
  clk  : Nat
  slots : Nat
  checked : Bool
  latency : Nat
  lead : Nat
deriving DecidableEq, Repr

/-- Bits of a port frame's slots. -/
def PortGeo.bits (g : PortGeo) : Nat := g.slots * (if g.checked then 32 else 24)

/-- The smallest K of R119. -/
def leadOf (rate clk bits : Nat) : Nat :=
  let k := (((bits + 2) * 1000000 + 8 * clk) * rate + clk * 1000000 - 1) / (clk * 1000000)
  if k = 0 then 1 else k

/-- The committed geometry of port p. -/
def Dev.portGeo (d : Dev) (p : Nat) : PortGeo :=
  let b := 0x10 + 8 * p
  let rate := portRate (d.parN 4 (b + 1))
  let clk := portClock (d.parN 4 2)
  let n := d.parN 4 (b + 2)
  let fmt := d.parN 4 (b + 3) == 1
  { rate := rate, clk := clk, slots := n, checked := fmt, latency := d.parN 4 (b + 5),
    lead := leadOf rate clk (n * (if fmt then 32 else 24)) }

/-- The preset of a chain. -/
def Dev.preset (d : Dev) (c : Nat) : Nat := d.parN 5 (0x1000 + c)

/-- round(K × T_in + LATENCY + D / r_in) in ns (R120). -/
def Dev.stampOffset (d : Dev) (c : Nat) : Int :=
  let g := d.portGeo (c / 16)
  Bits.roundUp ((((g.lead + presetDelay (d.preset c)) * 1000000000 + g.latency * g.rate : Nat) : Int)) g.rate

/-! ### Stages (R115 to R117) -/

/-- acc of R115: the input values newest first. -/
def stageAcc (taps : Nat) (xs : List Int) : Int :=
  let c := (taps - 1) / 2
  let x := fun (i : Nat) => xs.getD i 0
  let h := halfBand taps
  65536 * x c + Bits.sumI ((Bits.upTo h.length).map (fun i => h.getD i 0 * (x (c - (2 * i + 1)) + x (c + (2 * i + 1)))))

/-- SHIFT of a stage: nibble i as 4-bit two's complement. -/
def stageShift (w : Word) (i : Nat) : Int := (BitVec.ofNat 4 (w.toNat / 16 ^ i)).toInt

/-- acc with 48 fraction bits as a stage output, and whether it saturated (R117). -/
def stageOut (acc shift : Int) : Int × Bool :=
  let v := if shift < 0 then (acc + 2 ^ 17) / 2 ^ 18 else (acc * 2 ^ shift.toNat + 2 ^ 16) / 2 ^ 17
  let s := Bits.clampI (-2147483648) 2147483647 v
  (s, v != s)

/-- An input pushed through the stages: taps and shifts, input values, output index m; the output and the numbers of the
stages that saturated. -/
def chainPush : List (Nat × Int) → List (List Int) → Int → Nat → Int → List (List Int) × Option Int × List Nat
  | [], sts, _, _, x => (sts, some x, [])
  | (t, s) :: cfg, sts, m, i, x =>
    let cur := (x :: sts.headD []).take t
    if m % 2 = 0 then
      let (y, sat) := stageOut (stageAcc t cur) s
      let (rest, o, l) := chainPush cfg sts.tail (m / 2) (i + 1) y
      (cur :: rest, o, if sat then i :: l else l)
    else (cur :: sts.tail, none, [])

/-! ### Resamplers (R123 to R127, R130) -/

/-- Rows 0 to 7 of the prototype. -/
def rsRows0 : List (List Int) :=
  [[-3, 68, -390, 1317, -3200, 6067, -9368, 12063, 117965, 12063, -9368, 6067, -3200, 1317, -390, 68],
   [-3, 68, -391, 1328, -3244, 6199, -9709, 12995, 117955, 11141, -9027, 5933, -3155, 1306, -388, 68],
   [-3, 68, -392, 1337, -3286, 6330, -10050, 13937, 117925, 10230, -8684, 5797, -3109, 1295, -387, 68],
   [-3, 68, -392, 1347, -3328, 6459, -10389, 14889, 117874, 9329, -8342, 5660, -3062, 1283, -385, 68],
   [-3, 67, -393, 1355, -3368, 6587, -10726, 15850, 117804, 8439, -7999, 5521, -3014, 1270, -383, 68],
   [-3, 67, -393, 1363, -3407, 6712, -11063, 16821, 117713, 7560, -7656, 5382, -2965, 1257, -381, 68],
   [-3, 67, -393, 1370, -3444, 6835, -11397, 17801, 117603, 6692, -7313, 5241, -2915, 1244, -378, 67],
   [-3, 66, -393, 1377, -3481, 6956, -11730, 18790, 117472, 5836, -6971, 5099, -2864, 1230, -376, 67]]

/-- Rows 8 to 15 of the prototype. -/
def rsRows1 : List (List Int) :=
  [[-3, 66, -392, 1383, -3515, 7075, -12061, 19788, 117321, 4991, -6629, 4956, -2812, 1215, -373, 67],
   [-3, 65, -391, 1388, -3549, 7191, -12389, 20794, 117151, 4157, -6288, 4812, -2759, 1200, -370, 67],
   [-3, 64, -390, 1392, -3580, 7305, -12715, 21808, 116960, 3336, -5947, 4667, -2706, 1185, -367, 66],
   [-3, 64, -389, 1396, -3611, 7417, -13039, 22831, 116750, 2526, -5608, 4522, -2652, 1169, -364, 66],
   [-3, 63, -388, 1399, -3639, 7526, -13360, 23861, 116520, 1728, -5269, 4376, -2597, 1153, -360, 65],
   [-3, 62, -386, 1402, -3667, 7632, -13677, 24899, 116271, 943, -4932, 4229, -2542, 1136, -357, 65],
   [-2, 61, -384, 1403, -3692, 7736, -13992, 25944, 116001, 170, -4597, 4082, -2485, 1119, -353, 64],
   [-2, 60, -381, 1404, -3716, 7836, -14303, 26996, 115713, -590, -4263, 3935, -2429, 1102, -349, 64]]

/-- Rows 16 to 23 of the prototype. -/
def rsRows2 : List (List Int) :=
  [[-2, 59, -379, 1404, -3738, 7934, -14611, 28055, 115405, -1338, -3931, 3787, -2372, 1084, -345, 63],
   [-2, 58, -376, 1403, -3758, 8029, -14914, 29120, 115077, -2073, -3600, 3639, -2314, 1066, -341, 62],
   [-2, 57, -372, 1402, -3777, 8120, -15214, 30192, 114731, -2796, -3272, 3491, -2256, 1048, -337, 62],
   [-2, 55, -369, 1399, -3794, 8208, -15510, 31269, 114365, -3505, -2946, 3343, -2197, 1029, -333, 61],
   [-2, 54, -365, 1396, -3809, 8293, -15801, 32353, 113980, -4201, -2622, 3194, -2138, 1010, -328, 60],
   [-2, 52, -361, 1392, -3822, 8375, -16087, 33441, 113577, -4885, -2301, 3046, -2079, 991, -324, 60],
   [-1, 51, -357, 1387, -3833, 8453, -16369, 34535, 113154, -5555, -1982, 2898, -2019, 972, -319, 59],
   [-1, 49, -352, 1381, -3843, 8528, -16646, 35634, 112714, -6211, -1667, 2751, -1959, 952, -314, 58]]

/-- Rows 24 to 31 of the prototype. -/
def rsRows3 : List (List Int) :=
  [[-1, 48, -347, 1374, -3850, 8599, -16917, 36737, 112254, -6854, -1354, 2603, -1899, 932, -310, 57],
   [-1, 46, -341, 1367, -3855, 8666, -17184, 37844, 111777, -7484, -1043, 2456, -1838, 912, -305, 56],
   [-1, 44, -336, 1358, -3859, 8730, -17444, 38956, 111281, -8100, -737, 2310, -1778, 892, -300, 56],
   [0, 42, -330, 1349, -3860, 8790, -17699, 40071, 110767, -8703, -433, 2164, -1717, 872, -294, 55],
   [0, 40, -323, 1339, -3859, 8846, -17948, 41190, 110236, -9292, -132, 2019, -1656, 851, -289, 54],
   [0, 38, -317, 1327, -3856, 8897, -18190, 42311, 109687, -9867, 165, 1874, -1596, 831, -284, 53],
   [0, 36, -310, 1315, -3852, 8945, -18427, 43436, 109120, -10428, 458, 1730, -1535, 810, -279, 52],
   [1, 33, -303, 1302, -3844, 8989, -18656, 44563, 108537, -10976, 748, 1587, -1474, 789, -273, 51]]

/-- Rows 32 to 39 of the prototype. -/
def rsRows4 : List (List Int) :=
  [[1, 31, -295, 1288, -3835, 9028, -18879, 45692, 107936, -11509, 1033, 1445, -1413, 768, -268, 50],
   [1, 28, -287, 1273, -3824, 9063, -19095, 46823, 107318, -12029, 1315, 1304, -1352, 747, -262, 49],
   [2, 26, -279, 1258, -3810, 9094, -19304, 47955, 106683, -12535, 1593, 1163, -1292, 726, -257, 48],
   [2, 23, -270, 1241, -3794, 9120, -19505, 49089, 106032, -13027, 1867, 1024, -1231, 704, -251, 47],
   [2, 20, -261, 1223, -3776, 9142, -19699, 50224, 105365, -13505, 2137, 886, -1171, 683, -246, 46],
   [3, 18, -252, 1204, -3755, 9159, -19885, 51359, 104682, -13969, 2403, 750, -1111, 662, -240, 45],
   [3, 15, -242, 1185, -3733, 9172, -20063, 52495, 103983, -14419, 2664, 614, -1051, 641, -234, 44],
   [4, 12, -232, 1164, -3708, 9180, -20233, 53630, 103268, -14855, 2921, 480, -991, 619, -229, 43]]

/-- Rows 40 to 47 of the prototype. -/
def rsRows5 : List (List Int) :=
  [[4, 9, -222, 1142, -3680, 9183, -20395, 54766, 102538, -15278, 3173, 347, -932, 598, -223, 42],
   [5, 5, -212, 1120, -3651, 9181, -20548, 55900, 101792, -15686, 3420, 216, -873, 577, -217, 41],
   [5, 2, -201, 1096, -3618, 9175, -20692, 57034, 101032, -16080, 3663, 86, -814, 555, -212, 40],
   [6, -1, -189, 1072, -3584, 9163, -20828, 58166, 100257, -16461, 3902, -43, -756, 534, -206, 39],
   [6, -5, -178, 1046, -3547, 9147, -20954, 59297, 99468, -16827, 4135, -169, -698, 513, -200, 38],
   [7, -8, -166, 1020, -3508, 9126, -21071, 60425, 98664, -17180, 4364, -295, -641, 492, -194, 37],
   [7, -12, -154, 992, -3467, 9099, -21179, 61551, 97846, -17519, 4587, -418, -584, 471, -189, 36],
   [8, -15, -141, 964, -3423, 9068, -21277, 62675, 97015, -17844, 4806, -540, -527, 450, -183, 35]]

/-- Rows 48 to 55 of the prototype. -/
def rsRows6 : List (List Int) :=
  [[8, -19, -128, 934, -3376, 9031, -21366, 63796, 96171, -18155, 5020, -660, -471, 429, -177, 34],
   [9, -23, -115, 904, -3328, 8990, -21445, 64913, 95313, -18453, 5228, -778, -416, 409, -172, 33],
   [9, -27, -102, 873, -3276, 8943, -21513, 66027, 94442, -18737, 5432, -894, -361, 388, -166, 32],
   [10, -31, -88, 841, -3223, 8890, -21571, 67137, 93559, -19007, 5630, -1009, -307, 368, -160, 31],
   [11, -35, -74, 807, -3167, 8833, -21619, 68243, 92663, -19264, 5823, -1121, -253, 348, -155, 30],
   [11, -39, -59, 773, -3108, 8770, -21656, 69344, 91756, -19507, 6011, -1232, -200, 328, -149, 29],
   [12, -44, -44, 738, -3048, 8702, -21682, 70440, 90836, -19737, 6193, -1340, -148, 308, -144, 28],
   [13, -48, -29, 702, -2984, 8628, -21698, 71531, 89905, -19954, 6370, -1447, -96, 288, -138, 28]]

/-- Rows 56 to 63 of the prototype. -/
def rsRows7 : List (List Int) :=
  [[13, -52, -14, 665, -2919, 8549, -21702, 72616, 88963, -20158, 6542, -1551, -45, 268, -133, 27],
   [14, -57, 2, 627, -2851, 8465, -21696, 73696, 88010, -20348, 6709, -1653, 6, 249, -127, 26],
   [15, -62, 18, 588, -2780, 8375, -21677, 74769, 87047, -20526, 6870, -1753, 55, 230, -122, 25],
   [16, -66, 34, 549, -2707, 8280, -21648, 75836, 86073, -20690, 7025, -1851, 104, 211, -116, 24],
   [16, -71, 50, 508, -2632, 8179, -21607, 76896, 85089, -20842, 7175, -1947, 152, 192, -111, 23],
   [17, -76, 67, 466, -2555, 8073, -21554, 77948, 84096, -20981, 7320, -2041, 200, 173, -106, 22],
   [18, -81, 84, 424, -2475, 7961, -21489, 78994, 83093, -21107, 7459, -2132, 246, 155, -101, 21],
   [19, -86, 102, 381, -2393, 7844, -21412, 80031, 82081, -21221, 7593, -2221, 292, 137, -96, 20]]

/-- Rows 64 to 71 of the prototype. -/
def rsRows8 : List (List Int) :=
  [[20, -91, 119, 337, -2308, 7721, -21322, 81060, 81060, -21322, 7721, -2308, 337, 119, -91, 20],
   [20, -96, 137, 292, -2221, 7593, -21221, 82081, 80031, -21412, 7844, -2393, 381, 102, -86, 19],
   [21, -101, 155, 246, -2132, 7459, -21107, 83093, 78994, -21489, 7961, -2475, 424, 84, -81, 18],
   [22, -106, 173, 200, -2041, 7320, -20981, 84096, 77948, -21554, 8073, -2555, 466, 67, -76, 17],
   [23, -111, 192, 152, -1947, 7175, -20842, 85089, 76896, -21607, 8179, -2632, 508, 50, -71, 16],
   [24, -116, 211, 104, -1851, 7025, -20690, 86073, 75836, -21648, 8280, -2707, 549, 34, -66, 16],
   [25, -122, 230, 55, -1753, 6870, -20526, 87047, 74769, -21677, 8375, -2780, 588, 18, -62, 15],
   [26, -127, 249, 6, -1653, 6709, -20348, 88010, 73696, -21696, 8465, -2851, 627, 2, -57, 14]]

/-- Rows 72 to 79 of the prototype. -/
def rsRows9 : List (List Int) :=
  [[27, -133, 268, -45, -1551, 6542, -20158, 88963, 72616, -21702, 8549, -2919, 665, -14, -52, 13],
   [28, -138, 288, -96, -1447, 6370, -19954, 89905, 71531, -21698, 8628, -2984, 702, -29, -48, 13],
   [28, -144, 308, -148, -1340, 6193, -19737, 90836, 70440, -21682, 8702, -3048, 738, -44, -44, 12],
   [29, -149, 328, -200, -1232, 6011, -19507, 91756, 69344, -21656, 8770, -3108, 773, -59, -39, 11],
   [30, -155, 348, -253, -1121, 5823, -19264, 92663, 68243, -21619, 8833, -3167, 807, -74, -35, 11],
   [31, -160, 368, -307, -1009, 5630, -19007, 93559, 67137, -21571, 8890, -3223, 841, -88, -31, 10],
   [32, -166, 388, -361, -894, 5432, -18737, 94442, 66027, -21513, 8943, -3276, 873, -102, -27, 9],
   [33, -172, 409, -416, -778, 5228, -18453, 95313, 64913, -21445, 8990, -3328, 904, -115, -23, 9]]

/-- Rows 80 to 87 of the prototype. -/
def rsRows10 : List (List Int) :=
  [[34, -177, 429, -471, -660, 5020, -18155, 96171, 63796, -21366, 9031, -3376, 934, -128, -19, 8],
   [35, -183, 450, -527, -540, 4806, -17844, 97015, 62675, -21277, 9068, -3423, 964, -141, -15, 8],
   [36, -189, 471, -584, -418, 4587, -17519, 97846, 61551, -21179, 9099, -3467, 992, -154, -12, 7],
   [37, -194, 492, -641, -295, 4364, -17180, 98664, 60425, -21071, 9126, -3508, 1020, -166, -8, 7],
   [38, -200, 513, -698, -169, 4135, -16827, 99468, 59297, -20954, 9147, -3547, 1046, -178, -5, 6],
   [39, -206, 534, -756, -43, 3902, -16461, 100257, 58166, -20828, 9163, -3584, 1072, -189, -1, 6],
   [40, -212, 555, -814, 86, 3663, -16080, 101032, 57034, -20692, 9175, -3618, 1096, -201, 2, 5],
   [41, -217, 577, -873, 216, 3420, -15686, 101792, 55900, -20548, 9181, -3651, 1120, -212, 5, 5]]

/-- Rows 88 to 95 of the prototype. -/
def rsRows11 : List (List Int) :=
  [[42, -223, 598, -932, 347, 3173, -15278, 102538, 54766, -20395, 9183, -3680, 1142, -222, 9, 4],
   [43, -229, 619, -991, 480, 2921, -14855, 103268, 53630, -20233, 9180, -3708, 1164, -232, 12, 4],
   [44, -234, 641, -1051, 614, 2664, -14419, 103983, 52495, -20063, 9172, -3733, 1185, -242, 15, 3],
   [45, -240, 662, -1111, 750, 2403, -13969, 104682, 51359, -19885, 9159, -3755, 1204, -252, 18, 3],
   [46, -246, 683, -1171, 886, 2137, -13505, 105365, 50224, -19699, 9142, -3776, 1223, -261, 20, 2],
   [47, -251, 704, -1231, 1024, 1867, -13027, 106032, 49089, -19505, 9120, -3794, 1241, -270, 23, 2],
   [48, -257, 726, -1292, 1163, 1593, -12535, 106683, 47955, -19304, 9094, -3810, 1258, -279, 26, 2],
   [49, -262, 747, -1352, 1304, 1315, -12029, 107318, 46823, -19095, 9063, -3824, 1273, -287, 28, 1]]

/-- Rows 96 to 103 of the prototype. -/
def rsRows12 : List (List Int) :=
  [[50, -268, 768, -1413, 1445, 1033, -11509, 107936, 45692, -18879, 9028, -3835, 1288, -295, 31, 1],
   [51, -273, 789, -1474, 1587, 748, -10976, 108537, 44563, -18656, 8989, -3844, 1302, -303, 33, 1],
   [52, -279, 810, -1535, 1730, 458, -10428, 109120, 43436, -18427, 8945, -3852, 1315, -310, 36, 0],
   [53, -284, 831, -1596, 1874, 165, -9867, 109687, 42311, -18190, 8897, -3856, 1327, -317, 38, 0],
   [54, -289, 851, -1656, 2019, -132, -9292, 110236, 41190, -17948, 8846, -3859, 1339, -323, 40, 0],
   [55, -294, 872, -1717, 2164, -433, -8703, 110767, 40071, -17699, 8790, -3860, 1349, -330, 42, 0],
   [56, -300, 892, -1778, 2310, -737, -8100, 111281, 38956, -17444, 8730, -3859, 1358, -336, 44, -1],
   [56, -305, 912, -1838, 2456, -1043, -7484, 111777, 37844, -17184, 8666, -3855, 1367, -341, 46, -1]]

/-- Rows 104 to 111 of the prototype. -/
def rsRows13 : List (List Int) :=
  [[57, -310, 932, -1899, 2603, -1354, -6854, 112254, 36737, -16917, 8599, -3850, 1374, -347, 48, -1],
   [58, -314, 952, -1959, 2751, -1667, -6211, 112714, 35634, -16646, 8528, -3843, 1381, -352, 49, -1],
   [59, -319, 972, -2019, 2898, -1982, -5555, 113154, 34535, -16369, 8453, -3833, 1387, -357, 51, -1],
   [60, -324, 991, -2079, 3046, -2301, -4885, 113577, 33441, -16087, 8375, -3822, 1392, -361, 52, -2],
   [60, -328, 1010, -2138, 3194, -2622, -4201, 113980, 32353, -15801, 8293, -3809, 1396, -365, 54, -2],
   [61, -333, 1029, -2197, 3343, -2946, -3505, 114365, 31269, -15510, 8208, -3794, 1399, -369, 55, -2],
   [62, -337, 1048, -2256, 3491, -3272, -2796, 114731, 30192, -15214, 8120, -3777, 1402, -372, 57, -2],
   [62, -341, 1066, -2314, 3639, -3600, -2073, 115077, 29120, -14914, 8029, -3758, 1403, -376, 58, -2]]

/-- Rows 112 to 119 of the prototype. -/
def rsRows14 : List (List Int) :=
  [[63, -345, 1084, -2372, 3787, -3931, -1338, 115405, 28055, -14611, 7934, -3738, 1404, -379, 59, -2],
   [64, -349, 1102, -2429, 3935, -4263, -590, 115713, 26996, -14303, 7836, -3716, 1404, -381, 60, -2],
   [64, -353, 1119, -2485, 4082, -4597, 170, 116001, 25944, -13992, 7736, -3692, 1403, -384, 61, -2],
   [65, -357, 1136, -2542, 4229, -4932, 943, 116271, 24899, -13677, 7632, -3667, 1402, -386, 62, -3],
   [65, -360, 1153, -2597, 4376, -5269, 1728, 116520, 23861, -13360, 7526, -3639, 1399, -388, 63, -3],
   [66, -364, 1169, -2652, 4522, -5608, 2526, 116750, 22831, -13039, 7417, -3611, 1396, -389, 64, -3],
   [66, -367, 1185, -2706, 4667, -5947, 3336, 116960, 21808, -12715, 7305, -3580, 1392, -390, 64, -3],
   [67, -370, 1200, -2759, 4812, -6288, 4157, 117151, 20794, -12389, 7191, -3549, 1388, -391, 65, -3]]

/-- Rows 120 to 127 of the prototype. -/
def rsRows15 : List (List Int) :=
  [[67, -373, 1215, -2812, 4956, -6629, 4991, 117321, 19788, -12061, 7075, -3515, 1383, -392, 66, -3],
   [67, -376, 1230, -2864, 5099, -6971, 5836, 117472, 18790, -11730, 6956, -3481, 1377, -393, 66, -3],
   [67, -378, 1244, -2915, 5241, -7313, 6692, 117603, 17801, -11397, 6835, -3444, 1370, -393, 67, -3],
   [68, -381, 1257, -2965, 5382, -7656, 7560, 117713, 16821, -11063, 6712, -3407, 1363, -393, 67, -3],
   [68, -383, 1270, -3014, 5521, -7999, 8439, 117804, 15850, -10726, 6587, -3368, 1355, -393, 67, -3],
   [68, -385, 1283, -3062, 5660, -8342, 9329, 117874, 14889, -10389, 6459, -3328, 1347, -392, 68, -3],
   [68, -387, 1295, -3109, 5797, -8684, 10230, 117925, 13937, -10050, 6330, -3286, 1337, -392, 68, -3],
   [68, -388, 1306, -3155, 5933, -9027, 11141, 117955, 12995, -9709, 6199, -3244, 1328, -391, 68, -3]]

/-- The prototype H of R124 by rows: row p holds H[p + 128 m] for m = 0 to 15. -/
def rsRows : List (List Int) :=
  rsRows0 ++ rsRows1 ++ rsRows2 ++ rsRows3 ++ rsRows4 ++ rsRows5 ++ rsRows6 ++ rsRows7 ++
  rsRows8 ++ rsRows9 ++ rsRows10 ++ rsRows11 ++ rsRows12 ++ rsRows13 ++ rsRows14 ++ rsRows15

/-- A chain. -/
def Dev.chain (d : Dev) (c : Nat) : Chain := Bits.get (fun _ => ({} : Chain)) d.acq.chains c

/-- A chain replaced. -/
def Dev.setChain (c : Nat) (x : Chain) (d : Dev) : Dev :=
  { d with acq := { d.acq with chains := Bits.put (fun _ => ({} : Chain)) d.acq.chains c x } }

/-- A resampler. -/
def Dev.rs (d : Dev) (u : Nat) : Rsmp := d.acq.rs.getD u {}

/-- A resampler replaced. -/
def Dev.setRs (u : Nat) (r : Rsmp) (d : Dev) : Dev := { d with acq := { d.acq with rs := Bits.setAt d.acq.rs u r } }

/-- RS_CHAIN of resampler u. -/
def Dev.rsChain (d : Dev) (u : Nat) : Nat := d.parN 5 (0x100 + 8 * u)
/-- RS_LOCK of resampler u. -/
def Dev.rsLock (d : Dev) (u : Nat) : Nat := d.parN 5 (0x101 + 8 * u)

/-- The resampler that takes a chain. -/
def Dev.rsOf (d : Dev) (c : Nat) : Option Nat := (Bits.upTo 16).find? (fun u => d.rsChain u == c)

/-- 32 kHz in 2^-32 of a sample per second. -/
def rsSecond : Int := 32000 * 4294967296

/-- A device time in ns as a grid position. -/
def posOf (t : Int) : Int := t * 4294967296 / 31250

/-- A grid position as a device time in ns. -/
def posTime (p : Int) : Int := p * 31250 / 4294967296

/-- v_p of R124 with 48 fraction bits: row p of H against y at floor(x) + 8 - m; `q` is floor(x) counted from the newest. -/
def rsDot (ys : List (Int × Nat)) (p : Nat) (q : Int) : Int :=
  let h := rsRows.getD p []
  let l := ys.drop (-(q + 8)).toNat
  Bits.sumI ((h.zip l).map (fun z => z.1 * z.2.1))

/-- The output of R124 at grid position g, with its saturation; none while an output it needs is not there. -/
def rsInterp (ys : List (Int × Nat)) (stamp g : Int) : Option (Int × Bool) :=
  let x := g - stamp
  let q := x / 4294967296
  let f := (x % 4294967296).toNat
  let p := f / 2 ^ 25
  let a : Int := (f % 2 ^ 25 / 2 ^ 9 : Nat)
  let need : Int := if p = 127 then -9 else -8
  if need < q then none
  else
    let v0 := rsDot ys p q
    let v1 := if p = 127 then rsDot ys 0 (q + 1) else rsDot ys (p + 1) q
    some (stageOut ((v0 * 65536 + a * (v1 - v0)) / 65536) 0)

/-- The higher ranked of two qualities (Table 3.3). -/
def worseQ (a b : Nat) : Nat := if qRank a < qRank b then b else a

/-- The highest ranked quality of the chain outputs that a grid position uses (R127): sixteen, and where v_128 stands for
v_0 at floor(x) + 1 (R124) the one after them too. -/
def rsQuality (ys : List (Int × Nat)) (stamp g : Int) : Nat :=
  let q := (g - stamp) / 4294967296
  let past := decide ((g - stamp) % 4294967296 / 2 ^ 25 = 127)
  let (from0, n) := if past then (-(q + 9), 17) else (-(q + 8), 16)
  ((ys.drop from0.toNat).take n).foldl (fun a z => worseQ a z.2) 0

/-- The quality that a lock state gives at a position (R126, R130). -/
def Rsmp.lockQuality (r : Rsmp) (g : Int) : Nat :=
  match r.lock with
  | .free => 4
  | .unlocked => 2
  | .locked => match r.settleTo with | some s => if g < s then 4 else 0 | none => 0

/-- The lock frequency in mHz. -/
def mhzOf (period : Int) : Nat := if period ≤ 0 then 0 else (Bits.roundUp (rsSecond * 1000) period.toNat).toNat

/-- A sample enters the resampler's list. -/
def Rsmp.push (r : Rsmp) (g : Int) (k quality mhz : Nat) (v : Int) : Rsmp :=
  { r with issued := some g,
           samples := ({ instant := posTime g, k := k, value := v, quality := quality, mhz := mhz } :: r.samples).take 600 }

/-- The next grid position of a self-locked resampler: position, k, and the resampler with its grid moved there. -/
def Rsmp.nextGrid (r : Rsmp) : Int × Nat × Rsmp :=
  let a := r.anchor.getD r.stamp
  let g := a + (r.k : Int) * r.period / 256
  match r.next with
  | some n =>
    if n ≤ g ∨ 256 ≤ r.k then (n, 0, { r with anchor := some n, k := 0, next := none }) else (g, r.k, r)
  | none =>
    if 256 ≤ r.k then (a + r.period, 0, { r with anchor := some (a + r.period), k := 0 }) else (g, r.k, r)

/-- A self-locked resampler issues every grid sample that its chain outputs reach; saturations are counted. -/
def Rsmp.issue : Nat → Rsmp → Nat → Rsmp × Nat
  | 0, r, n => (r, n)
  | fuel + 1, r, n =>
    let (g, k, r1) := r.nextGrid
    match rsInterp r.ys r.stamp g with
    | none => (r, n)
    | some (v, sat) =>
      let lq := r1.lockQuality g
      let mhz := mhzOf r1.period
      let r2 := (r1.push g k (worseQ lq (rsQuality r.ys r.stamp g)) mhz v)
      Rsmp.issue fuel { r2 with k := k + 1, grid := ({ pos := g, k := k, quality := lq, mhz := mhz } :: r2.grid).take 600 }
        (n + Bits.b2n sat)

/-- A companion issues its samples at its source's grid positions (R123). -/
def Rsmp.follow (r : Rsmp) (src : List GridPt) : Rsmp × Nat :=
  let from0 := match r.issued with | some g => g | none => r.stamp - 9 * 4294967296
  let pts := (src.takeWhile (fun p => decide (from0 < p.pos))).reverse
  pts.foldl (fun (s : Rsmp × Nat) p =>
    match rsInterp s.1.ys s.1.stamp p.pos with
    | none => s
    | some (v, sat) =>
      (s.1.push p.pos p.k (worseQ p.quality (rsQuality s.1.ys s.1.stamp p.pos)) p.mhz v, s.2 + Bits.b2n sat)) (r, 0)

/-- A period corresponds to 40 to 70 Hz. -/
def periodOk (p : Int) : Bool := decide (rsSecond ≤ 70 * p) && decide (40 * p ≤ rsSecond)

/-- What a new output does to the lock of a self-locked resampler (R125, R126): the resampler, a lock event in mHz, an
unlock cause. -/
def Rsmp.onOutput (r : Rsmp) (prev cur : Int) (min : Nat) : Rsmp × Option Nat × Option Nat :=
  let isCross := decide (prev < 0) && decide (0 ≤ cur) && r.below
  let below := if isCross then false else r.below || decide (2 * cur < -(min : Int))
  if !isCross then ({ r with below := below }, none, none)
  else
    let c := r.stamp - 4294967296 + 4294967296 * (-prev) / (cur - prev)
    match r.cross with
    | none => ({ r with below := below, cross := some c, periods := [] }, none, none)
    | some c0 =>
      let p := c - c0
      let ps := (p :: r.periods).take 4
      let mean := Bits.sumI ps / (ps.length : Int)
      let r1 := { r with below := below, cross := some c, periods := ps }
      if r.lock = .locked then
        if !(periodOk p) then ({ r1 with lock := .unlocked, periods := [], settleTo := none }, none, some 3)
        else if r.period < 10 * Bits.absI (p - r.period) then
          ({ r1 with lock := .unlocked, periods := [], settleTo := none }, none, some 4)
        else
          let a := r.anchor.getD c
          let j := (2 * (c - a) + r.period) / (2 * r.period)
          let near := a + j * r.period
          let moved := near + (c - near) / 4
          let later := match r.issued with | some g => decide (near ≤ g) | none => false
          ({ r1 with period := mean, next := some (if later then moved + mean else moved) }, none, none)
      else if ps.length = 4 ∧ ps.all (fun x => decide (1000 * Bits.absI (x - mean) ≤ mean)) ∧ periodOk mean then
        ({ r1 with lock := .locked, period := mean, next := some c, settleTo := some (c + 2 * mean) }, some (mhzOf mean), none)
      else (r1, none, none)

/-- The RMS of the last cycle lies below RS_LOCK_MIN (R126). -/
def Rsmp.weak (r : Rsmp) (min : Nat) : Bool :=
  let n := (r.period / 4294967296).toNat
  r.lock == .locked && decide (n ≤ r.ys.length) && decide (0 < n) &&
    decide ((r.ys.take n).foldl (fun a y => a + y.1 * y.1) 0 < (n : Int) * ((min * min : Nat) : Int))

/-- Saturations of a chain's stage, or of its resampler as stage 7, are counted, each with its event 0402h (R117, R124). -/
def Dev.chainSats (c : Nat) (stages : List Nat) (d : Dev) : Dev :=
  let x := d.chain c
  let d := if stages.isEmpty then d else d.setChain c { x with sats := x.sats + stages.length }
  stages.foldl (fun y i => y.raiseI 0x0402 1 c (Bits.le 2 c ++ Bits.le 1 i)) d

/-- A companion takes the grid points that its source has issued (R123). -/
def Dev.rsFollow (u : Nat) (d : Dev) : Dev :=
  let (r, sats) := (d.rs u).follow (d.rs (d.rsLock u)).grid
  (d.setRs u r).chainSats (d.rsChain u) (List.replicate sats 7)

/-- A self-locked resampler takes its chain's newest output (R125, R126), and its companions follow the grid it issues. -/
def Dev.rsLead (u c : Nat) (prev y : Int) (first : Bool) (d : Dev) : Dev :=
  let r := d.rs u
  let min := d.parN 5 (0x103 + 8 * u)
  let r := match r.anchor with
    | some _ => r
    | none => { r with anchor := some r.stamp, k := 0, period := rsSecond / (d.parN 5 (0x102 + 8 * u) : Int) }
  let (r, locked, lost) := if first then (r, none, none) else r.onOutput prev y min
  let (r, lost) := if r.weak min then ({ r with lock := .unlocked, periods := [], settleTo := none }, some 1) else (r, lost)
  let (r, sats) := r.issue 8 0
  let d := d.setRs u r
  let d := match locked with | some f => d.raiseI 0x0408 0 u (Bits.le 1 u ++ Bits.le 4 f) | none => d
  let d := match lost with | some k => d.raiseI 0x0407 1 u (Bits.le 1 u ++ Bits.le 1 k) | none => d
  let d := d.chainSats c (List.replicate sats 7)
  ((Bits.upTo 16).filter (fun w => w != u && d.rsLock w == u && decide (d.rsChain w < 512))).foldl (fun x w => x.rsFollow w) d

/-- A new output y with quality q and STAMP instant τ reaches resampler u of chain c. -/
def Dev.rsFeed (u c : Nat) (tau y : Int) (q : Nat) (d : Dev) : Dev :=
  let r := d.rs u
  let prev := match r.ys with | (v, _) :: _ => v | [] => 0
  let first := r.ys.isEmpty
  let d := d.setRs u { r with ys := ((y, q) :: r.ys).take 820, stamp := posOf tau }
  if d.rsLock u = u then d.rsLead u c prev y first else d.rsFollow u

/-- RESAMPLER_NO_CROSSING: 50 ms without a crossing (R126). -/
def Dev.rsNoCross (u : Nat) (d : Dev) : Dev :=
  let r := d.rs u
  match r.cross with
  | some c =>
    if r.lock = .locked ∧ 1600 * 4294967296 ≤ posOf d.dev - c then
      (d.setRs u { r with lock := .unlocked, periods := [], settleTo := none }).raiseI 0x0407 1 u (Bits.le 1 u ++ [2])
    else d
  | none => d

/-! ### Samples (R108 to R114, R121) -/

/-- Why a slot is rejected (R110, Table 4.9): 0 where it is not. -/
def slotCause (g : PortGeo) (q : Nat) (w : Word) : Nat :=
  let ones := (Bits.maskBits 32 w.toNat).length
  if g.checked && ones % 2 == 1 then 1
  else if g.checked && w.toNat / 16 % 4 != 2 then 2
  else if g.checked && w.toNat % 16 != q then 3 else 0

/-- The sample of a slot (R109). -/
def slotSample (g : PortGeo) (w : Word) : Int :=
  (BitVec.ofNat 24 (if g.checked then w.toNat / 256 else w.toNat)).toInt

/-- The quality of an output (R121). -/
def Chain.judge (x : Chain) (settle : Nat) : Nat :=
  if x.down then 3 else if x.ovrLeft != 0 then 5 else if x.outs ≤ settle then 4 else if x.subLeft != 0 then 2 else 0

/-- Used channels of a port. -/
def Dev.usedChains (d : Dev) (p : Nat) : List Nat :=
  (Bits.upTo 16).filterMap (fun q => if d.preset (16 * p + q) = 0 then none else some (16 * p + q))

/-- A missing sample is counted; DOWN_AFTER in a row take the channel down (R113, R114). -/
def Dev.chainMiss (c cause : Nat) (d : Dev) : Dev :=
  let p := c / 16
  let x := d.chain c
  let d := (d.setChain c { x with missed := x.missed + 1, missRun := x.missRun + 1, goodRun := 0 }).raiseI 0x0401 0 c
    (Bits.le 2 c ++ Bits.le 1 cause)
  let x := d.chain c
  if !x.down && decide (d.parN 4 (0x16 + 8 * p) ≤ x.missRun) then
    let d := (d.setChain c { x with down := true, downAt := d.time.now }).raiseI 0x0404 1 c (Bits.le 2 c)
    if (d.usedChains p).all (fun k => (d.chain k).down) && !(d.acq.portDown.getLsbD p) then
      ({ d with acq := { d.acq with portDown := d.acq.portDown ||| BitVec.ofNat 32 (2 ^ p) } }).raiseI 0x0409 1 p (Bits.le 1 p)
    else d
  else d

/-- A good sample; the 64th in a row brings a down channel up (R114). -/
def Dev.chainGood (c : Nat) (d : Dev) : Dev :=
  let p := c / 16
  let x := d.chain c
  let x := { x with missRun := 0, goodRun := Bits.sat 64 (x.goodRun + 1) }
  if x.down && decide (x.goodRun = 64) then
    let d := { d with acq := { d.acq with portDown := d.acq.portDown &&& ~~~ BitVec.ofNat 32 (2 ^ p) } }
    (d.setChain c { x with down := false, resetDue := true }).raiseI 0x0405 0 c
      (Bits.le 2 c ++ Bits.le 4 ((d.time.now - x.downAt) / 1000000))
  else d.setChain c x

/-- One output of a chain at its instant (R119 to R121). -/
def Dev.chainOut (c : Nat) (at0 : Nat) (v : Int) (d : Dev) : Dev :=
  let pre := d.preset c
  let x := d.chain c
  let hold := presetHold pre
  let x := { x with value := v, outAt := some at0, outs := Bits.sat 64 (x.outs + 1),
                    ovrLeft := if x.ovrIn then hold else x.ovrLeft, subLeft := if x.subIn then hold else x.subLeft,
                    ovrIn := false, subIn := false }
  let q := x.judge (presetSettle pre)
  let d := d.setChain c { x with quality := q, ovrLeft := x.ovrLeft - 1, subLeft := x.subLeft - 1 }
  let d := d.traceFeed 4 c (q31to15 v) (q == 0) at0
  match d.rsOf c with
  | some u => if pre = 9 then d.rsFeed u c ((at0 : Int) - d.stampOffset c) v q else d
  | none => d

/-- An input enters its chain's stages (R113 to R117); a missing sample is replaced by the last good one, or by zero. -/
def Dev.chainInput (g : PortGeo) (c : Nat) (e : ChainIn) (d : Dev) : Dev :=
  let x := d.chain c
  let s := match e.sample with | some v => v | none => x.lastGood.getD 0
  let good := match e.sample with | some v => some v | none => x.lastGood
  if ((e.base : Int) - (x.resetAt : Int)) * g.rate + e.m * 1000000000 ≤ 0 then d.setChain c { x with lastGood := good }
  else
    let pre := d.preset c
    let sh := d.par 5 (0x1200 + c)
    let taps := presetTaps pre
    let cfg := (Bits.upTo taps.length).map (fun i => (taps.getD i 7, stageShift sh i))
    let (sts, out, sats) := chainPush cfg x.stages e.m 1 (256 * s)
    let d := d.setChain c { x with stages := sts, lastGood := good, ovrIn := x.ovrIn || e.ovr || !sats.isEmpty,
                                   subIn := x.subIn || e.sample.isNone }
    let d := d.chainSats c sats
    match out with
    | some v => d.chainOut c ((e.base : Int) + e.m * 1000000000 / (g.rate : Int)).toNat v
    | none => d

/-- The output instant of an input has come: base + m × T_in is at or before device time t (R119). -/
def ChainIn.come (g : PortGeo) (t : Nat) (e : ChainIn) : Bool :=
  decide (e.m * 1000000000 ≤ ((t : Int) - (e.base : Int)) * g.rate)

/-- A chain works on every waiting input whose output instant has come. -/
def Dev.chainRun (t c : Nat) (d : Dev) : Dev :=
  let g := d.portGeo (c / 16)
  let l := (d.chain c).waiting.takeWhile (fun e => e.come g t)
  if l.isEmpty then d
  else
    let x := d.chain c
    l.foldl (fun y e => y.chainInput g c e) (d.setChain c { x with waiting := x.waiting.drop l.length })

/-- The FIFO of port p. -/
def Dev.fifo (d : Dev) (p : Nat) : List (Nat × ChainIn) := d.acq.fifos.getD p []

/-- The FIFO of port p replaced. -/
def Dev.setFifo (p : Nat) (l : List (Nat × ChainIn)) (d : Dev) : Dev :=
  { d with acq := { d.acq with fifos := Bits.setAt d.acq.fifos p l } }

/-- A port that stops leaves its FIFO empty. -/
def Dev.fifoFlush (p : Nat) (d : Dev) : Dev :=
  let (d, ev) := if (d.fifo p).isEmpty then (d, []) else d.qDrop (0x1C + p) 64
  (d.setFifo p []).raiseQ ev

/-- The chain sequencer reads port p's FIFO empty: the inputs go to their chains (R36). -/
def Dev.fifoRead (p : Nat) (d : Dev) : Dev :=
  let l := d.fifo p
  let n := (l.filter (fun e => e.2.sample.isSome)).length
  let (d, ev) := if n = 0 then (d, []) else d.qDrop (0x1C + p) n
  let l := if ev.isEmpty then l else []
  l.foldl (fun x e => let c := x.chain e.1; x.setChain e.1 { c with waiting := c.waiting ++ [e.2] })
    ((d.setFifo p []).raiseQ ev)

/-- One slot is checked (R110), and its sample enters the port's FIFO: a rejected one, or one that finds the FIFO full, is
missing (R33, R113). -/
def Dev.fifoSlot (g : PortGeo) (c base : Nat) (m : Int) (w : Word) (d : Dev) : Dev :=
  let p := c / 16
  let enter := fun (s : Option Int) (ovr : Bool) (x : Dev) =>
    x.setFifo p (x.fifo p ++ [(c, { base := base, m := m, sample := s, ovr := ovr })])
  let cause := slotCause g (c % 16) w
  if cause != 0 then enter none false (d.chainMiss c cause)
  else
    let (ok, d, ev) := d.qPush (0x1C + p)
    let d := d.raiseQ ev
    if !ok then enter none false (d.chainMiss c 4)
    else
      let ovr := g.checked && w.getLsbD 7
      let d := d.chainGood c
      enter (some (slotSample g w)) ovr (if ovr then d.raiseI 0x0403 0 c (Bits.le 2 c) else d)

/-- SAMPLE_PORT_FRAME (R108 to R114): the frame whose slots have just been checked; `stalled`: the chain sequencer reads
nothing of this port while it lasts. The frame in progress at a step tick is completed and then wiped at s_r (R131); the
frames after it wait for the new grid. With bank VIO2 out DAT reads 0 (R514). -/
def Dev.portFrame (p : Nat) (slots : List Word) (stalled : Bool) (d : Dev) : Dev :=
  if !(d.acq.ports.getLsbD p) || d.testing 2 || (d.frame.syncDue && !(d.acq.finishing.getLsbD p)) then d
  else
    let g := d.portGeo p
    let dat := fun (c : Nat) => if d.hw.vioOut.getLsbD 1 then 0 else slots.getD (c % 16) 0
    let len := g.bits * 1000000000 / g.clk
    let base := d.frame.subAt
    let idx := ((d.dev : Int) - (len : Int) - (base : Int)) * (g.rate : Int) / 1000000000
    let used := (d.usedChains p).filter (fun c => decide (c % 16 < g.slots))
    let put := fun (x : Dev) (c : Nat) =>
      let x := x.fifoSlot g c base (idx + (g.lead : Int)) (dat c)
      if stalled then x else x.fifoRead p
    let d := used.foldl put { d with acq := { d.acq with finishing := d.acq.finishing &&& ~~~ BitVec.ofNat 32 (2 ^ p) } }
    used.foldl (fun x c => x.chainRun x.dev c) d

/-! ### Synchronising resets (R128 to R130) -/

/-- One chain is reset at a boundary (R129): its point keeps its record with quality SETTLING, or BAD while the channel is
down (R121). Inputs whose port frame began after s − K × T_in stay and come after the reset, unless the frames are of the
grid before a time step. -/
def Dev.chainReset (cause s c : Nat) (d : Dev) : Dev :=
  let x := d.chain c
  let q := if x.down then 3 else 4
  let d := d.setChain c { value := x.value, quality := q, missed := x.missed, sats := x.sats, missRun := x.missRun,
                          goodRun := x.goodRun, down := x.down, downAt := x.downAt, resetAt := s, q15 := x.q15, q15q := q,
                          waiting := if cause = 2 then [] else x.waiting }
  let d := d.setPt c { d.pt c with quality := BitVec.ofNat 8 q }
  match d.rsOf c with | some u => d.setRs u {} | none => d

/-- A synchronising reset of a list of chains with its event 0406h. -/
def Dev.syncReset (cause s : Nat) (cs : List Nat) (d : Dev) : Dev :=
  match cs with
  | [] => d
  | c :: _ => (cs.foldl (fun x k => x.chainReset cause s k) d).raise 0x0406 0 (Bits.le 1 cause ++ Bits.le 2 c ++ Bits.le 2 cs.length)

/-- Every enabled chain of a running port, ascending. -/
def Dev.liveChains (d : Dev) : List Nat :=
  (Bits.maskBits 32 d.acq.ports.toNat).flatMap (fun p => d.usedChains p)

/-- The delivery of a chain's output at a boundary (R122, R127). -/
def Dev.chainDeliver (s : Nat) (d : Dev) (c : Nat) : Dev :=
  let x := d.chain c
  if x.resetAt = s then d
  else
    let d := if x.outAt = some s then d.setChain c { x with q15 := q31to15 x.value, q15q := x.quality } else d
    match d.rsOf c with
    | some u =>
      let lim := (s : Int) - (d.stampOffset c + 250000)
      match (d.rs u).samples.find? (fun o => decide (o.instant ≤ lim)) with
      | some o => d.post 4 c 4 (valFix 31 o.value) (BitVec.ofInt 32 o.instant) o.quality
      | none => d
    | none =>
      if x.outAt = some s then
        d.post 4 c 4 (valFix 31 x.value) (BitVec.ofInt 32 ((s : Int) - d.stampOffset c)) x.quality
      else d

/-- While domain ACQ is under test every output keeps its value as SUBSTITUTED (R449). -/
def Dev.acqUnderTest (d : Dev) : Dev :=
  let d := { d with acq := { d.acq with due := 3, rs := d.acq.rs.map (fun (r : Rsmp) =>
    if r.lock = RsLock.locked then { r with lock := .unlocked, periods := [], settleTo := none } else r) } }
  d.liveChains.foldl (fun x c =>
    (x.setChain c { x.chain c with q15q := worseQ (x.chain c).q15q 2 }).degrade c 2) d

/-- CHAIN_OUTPUT_DELIVERY and SYNC_RESET at a sub-tick boundary s (R21, R122, R128). -/
def Dev.acqSub (d : Dev) : Dev :=
  let s := d.frame.subAt
  if !d.acq.running then { d with frame := { d.frame with syncDue := false } }
  else if d.testing 2 then d.acqUnderTest
  else
    let d := d.liveChains.foldl (fun x c => x.chainRun s c) d
    let step := d.frame.syncDue && d.frame.sub != 0
    let rec' := d.liveChains.filter (fun c => (d.chain c).resetDue)
    let d := if step then
        ({ d with frame := { d.frame with syncDue := false }, acq := { d.acq with finishing := 0 } } : Dev).syncReset 2 s d.liveChains
      else d
    let d := if d.acq.due = 3 then ({ d with acq := { d.acq with due := 0 } }).syncReset 3 s d.liveChains else d
    let d := d.syncReset 1 s (rec'.filter (fun c => (d.chain c).resetDue))
    d.liveChains.foldl (fun x c => Dev.chainDeliver s x c) d

/-! ### Start and stop (R132) -/

/-- The chains of a port start down, or stop with their values BAD; a stop empties the port's FIFO. -/
def Dev.acqPort (p : Nat) (run : Bool) (d : Dev) : Dev :=
  let bit := BitVec.ofNat 32 (2 ^ p)
  if d.acq.ports.getLsbD p = run then d
  else if run then
    (d.usedChains p).foldl (fun x c =>
        let o := x.chain c
        x.setChain c { down := true, downAt := x.time.now, value := o.value, q15 := o.q15, missed := o.missed, sats := o.sats })
      { d with acq := { d.acq with ports := d.acq.ports ||| bit } }
  else
    (d.acq.chains.filter (fun e => e.1 / 16 == p)).foldl (fun x e =>
      let o := e.2
      let x := (x.degrade e.1 3).setChain e.1 { value := o.value, q15 := o.q15, missed := o.missed, sats := o.sats }
      match x.rsOf e.1 with | some u => x.setRs u {} | none => x)
      (Dev.fifoFlush p { d with acq := { d.acq with ports := d.acq.ports &&& ~~~ bit, portDown := d.acq.portDown &&& ~~~ bit } })

/-- A chain with preset OFF holds the reset record of Table 3.1 (R122). -/
def Dev.acqOff (d : Dev) : Dev :=
  let off := fun (c : Nat) => decide (c < 512) && d.preset c == 0
  let d1 := { d with acq := { d.acq with chains := d.acq.chains.filter (fun e => !(off e.1)) } }
  (d.image.live.filter (fun e => off e.1)).foldl (fun x e => x.setPt e.1 {}) d1

/-- ACQ_RUN and PORT_EN take effect at a tick. -/
def Dev.acqApply (d : Dev) : Dev :=
  let run := d.life.running496 && d.life.state != .retired && d.parB 4 1
  let d := { d with acq := { d.acq with running := run } }
  ((Bits.upTo 32).foldl (fun x p => x.acqPort p (run && x.parB 4 (0x10 + 8 * p))) d).acqOff

end Sys2Proof.Machine
end

