-- ==== Sys2Proof/Machine/Can.lean ====
section
/-! DEFINITION. Machine/Can.lean: the CAN FD controllers: buffers, transmission, error states, bus-off, receive mover,
acknowledgements, mappings, host access (12). -/

namespace Sys2Proof.Machine

open Sys2Proof

/-- A controller. -/
def Dev.ctrl (d : Dev) (c : Nat) : CanCtrl := d.can.ctrls.getD c {}

/-- A controller changed. -/
def Dev.modCtrl (c : Nat) (f : CanCtrl → CanCtrl) (d : Dev) : Dev :=
  { d with can := { d.can with ctrls := Bits.modAt d.can.ctrls c f } }

/-- A field of a controller's block (Table 12.4). -/
def Dev.canPar (d : Dev) (c o : Nat) : Word := d.par 0x24 (0x20 + 0x20 * c + o)

/-- The mode a controller runs in: with ROLE_LISTEN, normal needs ACTIVE or SOLO (R355). -/
def Dev.canMode (d : Dev) (c : Nat) : Nat :=
  let k := d.ctrl c
  if k.mode = 1 && d.canPar c 11 == 1#32 && !d.clasp.role.inControl then 2 else k.mode

/-- A message buffer (Table 12.2). -/
def CanCtrl.buf (k : CanCtrl) (b : Nat) : CanBuf := Bits.get (fun _ => ({} : CanBuf)) k.bufs b

/-- A message buffer replaced. -/
def CanCtrl.setBuf (b : Nat) (x : CanBuf) (k : CanCtrl) : CanCtrl :=
  { k with bufs := Bits.put (fun _ => ({} : CanBuf)) k.bufs b x }

/-- Buffers marked BLOCKED. -/
def CanCtrl.blocked (k : CanCtrl) : Nat := (k.bufs.filter (fun p => p.2.state == .blocked)).length

/-- The controller is off the bus: bus-off, or recovering (R363, R364). -/
def CanCtrl.off (k : CanCtrl) : Bool := k.err == .busOff || k.err == .recovering

/-- Word LEN of a buffer (Table 12.2). -/
def CanBuf.lenWord (b : CanBuf) : Word :=
  BitVec.ofNat 32 (b.len % 128 + 256 * Bits.b2n b.esi + 65536 * (match b.state with
    | .empty => 0 | .pending => 1 | .blocked => 2 | .full => 3) + 2 ^ 18 * (b.attempts % 16))

/-- Word w of a buffer (Table 12.2). -/
def CanBuf.word (b : CanBuf) (w : Nat) : Word :=
  if w = 0 then b.idw else if w = 1 then b.lenWord else if w = 2 then b.stamp else Bits.wordAt b.data (4 * (w - 3))

/-- IDW of a frame: identifier, IDE, FDF, BRS (Table 12.2). -/
def canIdw (f : CanFrame) : Word :=
  BitVec.ofNat 32 (f.id % 2 ^ 29 + 2 ^ 29 * Bits.b2n f.ide + 2 ^ 30 * Bits.b2n f.fdf + 2 ^ 31 * Bits.b2n f.brs)

/-! ### Thruster assignments (R365) -/

/-- The controllers that carry thruster j: the primary, then the secondary, where enabled. -/
def Dev.thrCtrls (d : Dev) (j : Nat) : List Nat :=
  let w := d.par 0x24 (0x400 + 4 * j)
  (if w.getLsbD 3 then [w.toNat % 8] else []) ++ (if w.getLsbD 7 then [w.toNat / 16 % 8] else [])

/-- Thruster records of a state. -/
def Dev.thr (d : Dev) (j : Nat) : ThrSt := d.can.thr.getD j {}

/-- A thruster's record state changed. -/
def Dev.modThr (j : Nat) (f : ThrSt → ThrSt) (d : Dev) : Dev :=
  { d with can := { d.can with thr := Bits.modAt d.can.thr j f } }

/-- A thruster frame takes buffer j of a controller (R361, R362): pending, or BLOCKED where the controller is off. -/
def Dev.loadThr (c j : Nat) (data : List Byte) (limit : Bool) (d : Dev) : Dev :=
  let id := d.par 0x24 (0x401 + 4 * j)
  d.modCtrl c (fun k => k.setBuf j
    { idw := id ||| 0xC0000000#32, len := data.length, data := data, limit := limit,
      state := if k.off then .blocked else .pending, retry := (d.canPar c 12).toNat, from' := d.time.now })

/-- A regular record is the one last sent through a controller, as far as its acknowledgement goes (R366). -/
def Dev.noteRecord (c j : Nat) (data : List Byte) (d : Dev) : Dev :=
  d.modCtrl c (fun k => { k with rcrcs := Bits.setAt k.rcrcs j (Bits.wordAt data 20) })

/-! ### Transmission (R359) -/

/-- Buffers 24 to 31 are filled from the transmit queue in order (Table 12.1); the fuel is their number. -/
def Dev.canFillN : Nat → Nat → Dev → Dev
  | 0, _, d => d
  | fuel + 1, c, d =>
    let k := d.ctrl c
    match (Bits.upTo 8).find? (fun i => (k.buf (24 + i)).state == .empty), k.txq with
    | some i, m :: rest =>
      let (d, ev) := d.qRead (4 + c) 1
      if !ev.isEmpty then d.raiseQ ev
      else Dev.canFillN fuel c (d.modCtrl c (fun k => ({ k with txq := rest }).setBuf (24 + i)
        { idw := m.idw, len := m.data.length, data := m.data, retry := m.retry, tag := some m.tag,
          state := if k.off then .blocked else .pending, from' := d.time.now }))
    | _, _ => d

/-- The transmit queue is read while the controller takes part in traffic. -/
def Dev.canFill (c : Nat) (d : Dev) : Dev := if d.canMode c = 0 || (d.ctrl c).off then d else Dev.canFillN 8 c d

/-- The error state that the counters give (R360); 0C01h and 0C02h on the change. -/
def Dev.canErrState (c : Nat) (d : Dev) : Dev :=
  let k := d.ctrl c
  let data := Bits.le 1 c ++ Bits.le 2 k.tec ++ Bits.le 2 k.rxErr
  if k.off then d
  else if k.err = .active && (decide (128 ≤ k.tec) || decide (128 ≤ k.rxErr)) then
    (d.modCtrl c (fun k => { k with err := .passive })).raiseI 0x0C01 1 c data
  else if k.err = .passive && decide (k.tec < 128) && decide (k.rxErr < 128) then
    (d.modCtrl c (fun k => { k with err := .active })).raiseI 0x0C02 0 c (Bits.le 1 c)
  else d

/-- Bus-off: every pending message is BLOCKED in its place (R363). -/
def Dev.canBusOff (c : Nat) (d : Dev) : Dev :=
  let d := d.modCtrl c (fun k => { k with
    err := .busOff, offAt := d.time.now,
    bufs := k.bufs.map (fun p => (p.1, if p.2.state = .pending then { p.2 with state := .blocked } else p.2)) })
  d.raiseI 0x0C03 2 c (Bits.le 1 c ++ Bits.le 1 (d.ctrl c).blocked ++ Bits.le 4 d.frame.number)

/-- A buffer is emptied. -/
def Dev.canClear (c b : Nat) (d : Dev) : Dev := d.modCtrl c (fun k => k.setBuf b {})

/-- An attempt that ended in error (R359, R360): counters, bus-off, retries, abandonment. -/
def Dev.canFail (c b lec : Nat) (ack incr : Bool) (d : Dev) : Dev :=
  let d := d.modCtrl c (fun k => ({ k with lec := lec, tec := if incr then k.tec + 8 else k.tec }).setBuf b
    { k.buf b with attempts := (k.buf b).attempts + 1, ackOnly := (k.buf b).ackOnly && ack })
  if 256 ≤ (d.ctrl c).tec then d.canBusOff c
  else
    let d := d.canErrState c
    let x := (d.ctrl c).buf b
    if x.retry < x.attempts then
      let d := d.canClear c b
      let d := match x.tag with | some t => d.member t 1 c stTimeout | none => d
      (d.raiseI 0x0C05 0 c (Bits.le 1 c ++ Bits.le 1 b ++ Bits.le 1 (if x.ackOnly then 1 else 2))).canFill c
    else d

/-- Another message stood before buffer b when a frame started at raw instant `sof`: pending messages arbitrate in order of
identifier, and of buffer between equals (R359). -/
def CanCtrl.before (k : CanCtrl) (b sof : Nat) : Bool :=
  let id := (k.buf b).idw.toNat % 2 ^ 29
  k.bufs.any (fun p => p.2.state == .pending && decide (p.2.from' ≤ sof) &&
    (decide (p.2.idw.toNat % 2 ^ 29 < id) || (p.2.idw.toNat % 2 ^ 29 == id && decide (p.1 < b))))

/-- A frame sent without error (R359): the buffer is empty and keeps the stamp of its start of frame; TEC falls. -/
def Dev.canSent (c b sof : Nat) (d : Dev) : Dev :=
  let k := d.ctrl c
  let x := k.buf b
  let d := d.modCtrl c (fun k => ({ k with tec := k.tec - 1 }).setBuf b { stamp := d.shortAt sof })
  let d := d.emit (.can c b x.idw (x.idw.getLsbD 30 && k.err == .passive) x.data)
  let d := match x.tag with | some t => d.member t 1 c stOk | none => d
  (d.canErrState c).canFill c

/-- CAN_ATTEMPT_END (R359, R360), of an attempt whose frame started `since` ns ago. -/
def Dev.canAttempt (c b : Nat) (r : CanEnd) (since : Nat) (d : Dev) : Dev :=
  let k := d.ctrl c
  if d.canMode c != 1 || (k.buf b).state != .pending || decide (32 ≤ b) || k.before b (d.time.now - since) then d
  else match r with
    | .ok => d.canSent c b (d.time.now - since)
    | .ackError dom => d.canFail c b 3 true (dom || k.err != .passive)
    | .error lec counted => d.canFail c b lec false counted

/-! ### Reception (R357, R358) -/

/-- The lowest-numbered receive buffer whose enabled filter matches (R358). -/
def Dev.canMatch (d : Dev) (c : Nat) (f : CanFrame) : Option Nat :=
  ((Bits.upTo 32).find? (fun r =>
    let id := d.par 0x24 (0x200 + 0x40 * c + 2 * r)
    let mask := d.par 0x24 (0x201 + 0x40 * c + 2 * r)
    id.getLsbD 30 && id.getLsbD 29 == f.ide && ((BitVec.ofNat 32 f.id ^^^ id) &&& mask &&& 0x1FFFFFFF#32) == 0#32)).map
    (fun r => r + 32)

/-- A mapping's state. -/
def Dev.rxMap (d : Dev) (e : Nat) : RxMapSt := Bits.get (fun _ => ({} : RxMapSt)) d.can.maps e

/-- A mapping's state replaced. -/
def Dev.setRxMap (e : Nat) (m : RxMapSt) (d : Dev) : Dev :=
  { d with can := { d.can with maps := Bits.put (fun _ => ({} : RxMapSt)) d.can.maps e m } }

/-- A receive mapping writes its field to its point (R369). -/
def Dev.mapWrite (c e : Nat) (stamp : Word) (data : List Byte) (d : Dev) : Dev :=
  let w := d.par 0x24 (0x801 + 4 * e)
  let i := d.parN 0x24 (0x802 + 4 * e)
  let typ := w.toNat / 256 % 8
  match readField data (w.toNat % 64) typ (w.toNat / 2048 % 32) (w.getLsbD 16) with
  | none => d.setRxMap e { d.rxMap e with short := (d.rxMap e).short + 1 }
  | some v =>
    let p := d.pt i
    if p.typ != 0 && (!(Bits.later stamp p.stamp) || p.typ != BitVec.ofNat 8 typ) then d
    else (d.setPt i { value := v, stamp := stamp, quality := 0, typ := BitVec.ofNat 8 typ,
                      source := BitVec.ofNat 16 (0x3000 + c) }).setRxMap e
            { d.rxMap e with last := d.time.now, alive := true, stale := false, bad := false }

/-- The mappings that name a controller and a buffer, rising. -/
def Dev.mapsOf (d : Dev) (c b : Nat) : List Nat :=
  (d.cfg.committed.filterMap (fun p =>
    if p.1 / 65536 = 0x24 ∧ 0x800 ≤ p.1 % 65536 ∧ p.1 % 4 = 0 ∧ p.2.getLsbD 15 = true ∧ p.2.toNat % 8 = c ∧
      p.2.toNat / 256 % 64 = b then some ((p.1 % 65536 - 0x800) / 4) else none))

/-- A drive acknowledgement on CAN (R366). -/
def Dev.canAck (c : Nat) (f : CanFrame) (d : Dev) : Dev :=
  if f.data.length ≠ 8 then d
  else
    let j := Bits.byteAt f.data 2
    let id := d.par 0x24 (0x402 + 4 * j)
    let t := d.thr j
    let st := Bits.byteAt f.data 3
    if j < 24 && (d.thrCtrls j).contains c && id == ((canIdw f) &&& 0x3FFFFFFF#32) then
      if st != 0 then d.raiseI 0x0C08 1 (256 * c + j) (Bits.le 1 c ++ Bits.le 1 j ++ Bits.le 1 st)
      else if t.sent && decide (t.frame = d.frame.number) && Bits.at' f.data 0 2 == t.frame % 65536 &&
          Bits.wordAt f.data 4 == (d.ctrl c).rcrcs.getD j 0 then
        d.modCtrl c (fun k => { k with confirmed := k.confirmed ||| BitVec.ofNat 24 (2 ^ j) })
      else d
    else d

/-- What the receive mover does with an accepted frame (R358): queue, mappings, acknowledgements. -/
def Dev.canMove (c b : Nat) (f : CanFrame) (held : Bool) (stamp : Word) (d : Dev) : Dev :=
  let d := d.modCtrl c (fun k => k.setBuf b {
    idw := canIdw f, len := f.data.length, esi := f.esi, state := .full, stamp := stamp, data := f.data })
  let d :=
    if (d.par 0x24 (0x200 + 0x40 * c + 2 * (b - 32))).getLsbD 31 then
      let (ok, d, ev) := d.qPush (0x0C + c)
      let d := if ok then d.modCtrl c (fun k => { k with rxq := k.rxq ++
          [{ idw := (canIdw f), esi := f.esi, held := held, buf := b, stamp := stamp, data := f.data }] })
        else d.modCtrl c (fun k => { k with dropped := k.dropped + 1 })
      d.raiseQ ev
    else d
  let d := (d.mapsOf c b).foldl (fun x e => x.mapWrite c e stamp f.data) d
  d.canAck c f

/-- A frame rebuilt from a receive entry. -/
def CanRx.frame (r : CanRx) : CanFrame :=
  { id := r.idw.toNat % 2 ^ 29, ide := r.idw.getLsbD 29, fdf := r.idw.getLsbD 30, brs := r.idw.getLsbD 31, esi := r.esi,
    data := r.data }

/-- CAN_FRAME_RECEIVED (R353, R355, R357, R358). -/
def Dev.canReceive (c : Nat) (f : CanFrame) (d : Dev) : Dev :=
  let k := d.ctrl c
  let mode := d.canMode c
  if mode = 0 || k.off || (f.fdf && d.canPar c 1 == 0#32) || d.hw.vioOut.getLsbD 0 then d
  else
    let d := if mode = 1 then (d.modCtrl c (fun k => { k with
        rxErr := if 127 < k.rxErr then 119 + Config.canRec % 9 else k.rxErr - 1 })).canErrState c else d
    if f.remote then d.modCtrl c (fun k => { k with remotes := k.remotes + 1 })
    else match d.canMatch c f with
      | none => d.modCtrl c (fun k => { k with unmatched := k.unmatched + 1 })
      | some b =>
        let k := d.ctrl c
        let sof := d.shortAt (d.time.now - f.sinceSof)
        if (k.buf b).lock.isSome then
          let d1 := d.modCtrl c (fun k => { k with
            slot := some { idw := (canIdw f), esi := f.esi, held := true, buf := b, stamp := sof, data := f.data },
            dropped := if k.slot.isSome then k.dropped + 1 else k.dropped })
          match k.slot with
          | some o => d1.raiseI 0x0C06 0 (256 * c + o.buf) (Bits.le 1 c ++ Bits.le 1 o.buf)
          | none => d1
        else d.canMove c b f false sof

/-- CAN_BUFFER_LOCK: the read of word 0 (R357); a lock that stands runs on. -/
def Dev.canLock (c b : Nat) (d : Dev) : Dev :=
  let x := (d.ctrl c).buf b
  (d.modCtrl c (fun k => k.setBuf b { k.buf b with lock := some (x.lock.getD d.time.now) })).emit (.word x.idw)

/-- A lock ends; the held frame moves in (R357). -/
def Dev.canUnlock (c b : Nat) (d : Dev) : Dev :=
  let d := d.modCtrl c (fun k => k.setBuf b { k.buf b with lock := none })
  match (d.ctrl c).slot with
  | some r => if r.buf = b then (d.modCtrl c (fun k => { k with slot := none })).canMove c b r.frame true r.stamp else d
  | none => d

/-- CAN_BUFFER_RELEASE: the read of word 18 (R357). -/
def Dev.canRelease (c b : Nat) (d : Dev) : Dev :=
  let x := (d.ctrl c).buf b
  (d.canUnlock c b).emit (.word (x.word 18))

/-- CAN_LOCK_TIMEOUT: a lock held over 20 µs (R357). -/
def Dev.canLockTimeout (c b : Nat) (d : Dev) : Dev :=
  match ((d.ctrl c).buf b).lock with
  | some t => if 20000 < d.time.now - t then
      (d.canUnlock c b).raiseI 0x0C09 3 (256 * c + b) (Bits.le 1 c ++ Bits.le 1 b) else d
  | none => d

/-- CAN_RECEIVE_ERROR: fault confinement while receiving (R360, ISO 11898-1). Listen-only counters do not change (R355). -/
def Dev.canRxError (c : Nat) (e : CanRxError) (d : Dev) : Dev :=
  if d.canMode c = 0 || (d.ctrl c).off then d
  else
    let (lec, n) := match e with | .plain l => (l, 1) | .severe l => (l, 8)
    let d := d.modCtrl c (fun k => { k with lec := lec, rxErr := if d.canMode c = 1 then k.rxErr + n else k.rxErr })
    d.canErrState c

/-- RXMAP_TIMEOUT (R369): checked at a sub-tick boundary on the raw counter. -/
def Dev.mapTimeout (e : Nat) (d : Dev) : Dev :=
  let m := d.rxMap e
  let lim := 1000000 * d.parN 0x24 (0x803 + 4 * e)
  let i := d.parN 0x24 (0x802 + 4 * e)
  let age := d.boundaryAge m.last
  if !m.alive || lim = 0 || !((d.par 0x24 (0x800 + 4 * e)).getLsbD 15) || age < lim then d
  else
    let d := if m.stale then d
      else ((d.degrade i 1).setRxMap e { m with stale := true }).raiseI 0x0C0B 1 e (Bits.le 2 e ++ Bits.le 4 i)
    if 4 * lim ≤ age && !m.bad then (d.degrade i 3).setRxMap e { m with stale := true, bad := true } else d

/-! ### Recovery and the frame tick (R361, R364) -/

/-- CAN_RECOVERY_COMPLETE (R364). -/
def Dev.canRecovered (c : Nat) (d : Dev) : Dev :=
  let k := d.ctrl c
  if k.err = .recovering then
    let d := d.modCtrl c (fun k => { k with
      err := .active, tec := 0, rxErr := 0, recover := none,
      bufs := k.bufs.map (fun p => (p.1, if p.2.state = .blocked then { p.2 with state := .pending, attempts := 0, ackOnly := true, from' := d.time.now }
        else p.2)) })
    let d := d.raiseI 0x0C04 0 c (Bits.le 1 c ++ Bits.le 4 ((d.time.now - k.offAt) / 1000000))
    let d := match k.recover with | some t => d.finish t { status := stOk } | none => d
    d.canFill c
  else d

/-- Regular records still waiting at the tick are withdrawn (R361); 0C0Ah unless the controller is bus-off. -/
def Dev.withdrawRecords (c : Nat) (d : Dev) : Dev :=
  let k := d.ctrl c
  let l := k.bufs.filter (fun p => decide (p.1 < 24) && !p.2.limit && (p.2.state == .pending || p.2.state == .blocked))
  l.foldl (fun x p =>
    let x := x.canClear c p.1
    if k.off then x
    else x.raiseI 0x0C0A 1 (256 * c + p.1) (Bits.le 1 c ++ Bits.le 1 p.1 ++ Bits.le 4 d.frame.number)) d

/-- CAN_MODE takes effect at a tick (R355, R496); in RETIRED it acts as 0 (R484). -/
def Dev.applyCanMode (d : Dev) : Dev :=
  (Bits.upTo 8).foldl (fun x c =>
    let m := if d.life.running496 && d.life.state != .retired then (d.canPar c 0).toNat else 0
    (x.modCtrl c (fun k => { k with mode := m })).canFill c) d

/-! ### Host access (R364, R370, R371) -/

/-- Data lengths of R370. -/
def canLenOk (fd : Bool) (l : Nat) : Bool :=
  decide (l ≤ 8) || (fd && [12, 16, 20, 24, 32, 48, 64].contains l)

/-- One member of a CAN_SEND: the frame joins the send queue of controller c (R370). An FD frame on a controller that sends
none (FD_EN = 0) fails with PARAM_RANGE (DESIGN CHOICE, notes/assumptions/85.md). -/
def Dev.canSendMember (e : CanTx) (x : Dev × List (Nat × Option Half)) (c : Nat) : Dev × List (Nat × Option Half) :=
  let (x, ms) := x
  let clash := (Bits.upTo 24).any (fun j => (x.thrCtrls j).contains c &&
    (x.par 0x24 (0x401 + 4 * j) &&& 0x3FFFFFFF#32) == (e.idw &&& 0x3FFFFFFF#32))
  if clash || (e.idw.getLsbD 30 && x.canPar c 1 == 0#32) then (x, ms ++ [(c, some stRange)])
  else if (x.ctrl c).off || x.canMode c = 0 then (x, ms ++ [(c, some stBusy)])
  else
    let (ok, x, ev) := x.qPush (4 + c)
    let x := x.raiseQ ev
    if ok then
      ((x.modCtrl c (fun k => { k with txq := k.txq ++ [e] })).canFill c, ms ++ [(c, none)])
    else (x, ms ++ [(c, some stBusy)])

/-- CAN_SEND (R370): each controller of the mask is a member. A base identifier has 11 bits: one above them is PARAM_RANGE
(DEDUCED from Table 12.2). -/
def Dev.canSendOp (tag : BitVec 6) (r : Req) (d : Dev) : OpRes :=
  let idw := Bits.wordAt r.payload 0
  let l := Bits.byteAt r.payload 4
  let retry := Bits.byteAt r.payload 5
  let fd := idw.getLsbD 30
  let data := (r.payload.drop 8).take l
  if !(canLenOk fd l) || (!fd && idw.getLsbD 31) || (!idw.getLsbD 29 && decide (2048 ≤ idw.toNat % 2 ^ 29)) || decide (15 < retry) || Bits.at' r.payload 6 2 != 0 ||
      decide (255 < r.tgt) || r.tgt = 0 then refuse d stRange
  else if r.len != 8 + (l + 3) / 4 * 4 then refuse d stBadLength (8 + (l + 3) / 4 * 4)
  else
    let (d, ms) := (Bits.maskBits 8 r.tgt).foldl
      (Dev.canSendMember { idw := idw, data := data, retry := retry, tag := tag }) (d, [])
    { dev := d, ans := .fan 1 ms (some 1000000000) }

/-- A CAN_SEND reaches its limit: its messages are withdrawn and the members fail with TIMEOUT (R363). -/
def Dev.canSendStop (tag : BitVec 6) (d : Dev) : Dev :=
  (Bits.upTo 8).foldl (fun x c =>
    let n := ((x.ctrl c).txq.filter (fun m => m.tag == tag)).length
    let x := x.modCtrl c (fun k => { k with
        txq := k.txq.filter (fun m => m.tag != tag), bufs := k.bufs.filter (fun p => p.2.tag != some tag) })
    let (x, ev) := if n = 0 then (x, []) else x.qDrop (4 + c) n
    (x.raiseQ ev).canFill c) d

/-- One entry of CAN_FETCH (R371). -/
def CanRx.bytes (r : CanRx) : List Byte :=
  Bits.le 4 r.idw.toNat ++ Bits.le 1 r.data.length ++ Bits.le 1 (flagBits [r.esi, r.held]) ++ Bits.le 2 r.buf ++
    Bits.le 4 r.stamp.toNat ++ Bits.pad4 r.data

/-- STATE of CAN_FETCH (Table 12.3). -/
def Dev.canState (d : Dev) (c : Nat) : Nat :=
  let k := d.ctrl c
  match k.err with
  | .busOff => 3
  | .recovering => 4
  | .passive => if d.canMode c = 0 then 0 else if d.canMode c = 2 then 5 else 2
  | .active => if d.canMode c = 0 then 0 else if d.canMode c = 2 then 5 else 1

/-- The frames that fit: at most `n`, and at most `room` bytes. -/
def fetchFit : List CanRx → Nat → Nat → List CanRx
  | [], _, _ => []
  | r :: rs, n, room => if n = 0 || decide (room < r.bytes.length) then [] else r :: fetchFit rs (n - 1) (room - r.bytes.length)

/-- CAN_FETCH (R371): frames leave the receive queue, oldest first. -/
def Dev.canFetchOp (r : Req) (d : Dev) : OpRes :=
  let c := r.tgt % 8
  let n := r.tgt / 256 % 256
  let (d, ev) := d.qCheck (0x0C + c)
  let d := d.raiseQ ev
  let k := d.ctrl c
  let fs := fetchFit k.rxq (if n = 0 then k.rxq.length else n) (if n = 0 then maxPayload r.src.tr - 16 else 1000000)
  let body := fs.flatMap CanRx.bytes
  if maxPayload r.src.tr < 16 + body.length then refuse d stBadLength (maxPayload r.src.tr)
  else
    let head := Bits.le 1 c ++ Bits.le 1 (d.canState c) ++ Bits.le 1 k.lec ++ Bits.le 1 k.blocked ++ Bits.le 2 k.tec ++
      Bits.le 2 k.rxErr ++ Bits.le 2 fs.length ++ Bits.le 2 (Bits.sat 0xFFFF k.dropped) ++
      Bits.le 3 k.confirmedPrev.toNat ++ [0]
    let d := d.modCtrl c (fun k => { k with rxq := k.rxq.drop fs.length, dropped := 0 })
    let (d, ev) := d.qRead (0x0C + c) fs.length
    done (d.raiseQ ev) 0 (head ++ body)

/-- CAN_RECOVER (R364). -/
def Dev.canRecoverOp (tag : BitVec 6) (r : Req) (d : Dev) : OpRes :=
  if 7 < r.tgt then refuse d stRange
  else
    let k := d.ctrl r.tgt
    if k.err = .recovering then refuse d stBusy
    else if k.err = .busOff then
      deferred (d.modCtrl r.tgt (fun k => { k with err := .recovering, recover := some tag })) (some 5000000000)
    else done d

/-- CAN_RECOVER reaches its limit: the count is discarded and the controller stays bus-off (R364). -/
def Dev.canRecoverStop (tag : BitVec 6) (d : Dev) : Dev :=
  { d with can := { d.can with ctrls := d.can.ctrls.map (fun k =>
      if k.recover = some tag then { k with err := .busOff, recover := none } else k) } }

end Sys2Proof.Machine
end

