-- ==== Sys2Proof/Machine/Engine.lean ====
section
/-! DEFINITION. Machine/Engine.lean: the control engine: sections, loops, passes and thruster command records (09 R272 to
R289, 01 R22 to R25). -/

namespace Sys2Proof.Machine

open Sys2Proof

/-- A loop. -/
def Dev.loop (d : Dev) (i : Nat) : LoopSt := Bits.get (fun _ => ({} : LoopSt)) d.engine.loops i

/-- A loop replaced. -/
def Dev.setLoop (i : Nat) (x : LoopSt) (d : Dev) : Dev :=
  { d with engine := { d.engine with loops := Bits.put (fun _ => ({} : LoopSt)) d.engine.loops i x } }

/-- A section's states. -/
def Dev.sec (d : Dev) (s : Nat) : Sec := Bits.get (fun _ => ({} : Sec)) d.engine.secs s

/-- A section's states replaced. -/
def Dev.setSec (s : Nat) (x : Sec) (d : Dev) : Dev :=
  { d with engine := { d.engine with secs := Bits.put (fun _ => ({} : Sec)) d.engine.secs s x } }

/-- A field of loop i. -/
def Dev.loopPar (d : Dev) (i o : Nat) : Word := d.par 0x18 (0x1000 + 16 * i + o)

/-- LFLAGS bits of loop i. -/
def Dev.loopFlag (d : Dev) (i b : Nat) : Bool := (d.loopPar i 7).getLsbD b

/-- FIRST and COUNT of loop i. -/
def Dev.loopSecs (d : Dev) (i : Nat) : List Nat :=
  let w := (d.loopPar i 6).toNat
  (Bits.upTo (w / 65536 % 32)).map (fun n => w % 1024 + n)

/-- THR_CMD of thruster j: its azimuth, speed and pitch loops, FFh none. -/
def Dev.thrCmd (d : Dev) (j k : Nat) : Nat := d.parN 0x18 (0x40 + j) / 256 ^ k % 256

/-- (x + half) / n: round half up of a signed number over a positive one. -/
def rhu (x : Int) (n : Nat) : Int := Bits.roundUp x n

/-! ### The section (R272, R273) -/

/-- One run of a section: its output, its states after, and whether it saturated. -/
def secRun (b0 b1 b2 a1 a2 shift : Int) (held : Bool) (s : Sec) (x0 : Int) : Int × Sec × Bool :=
  let acc := b0 * x0 + b1 * s.x1 + b2 * s.x2 - a1 * s.y1 - a2 * s.y2
  let k := (14 - shift).toNat
  let v := (acc + 2 ^ (k - 1)) / 2 ^ k
  let y := sat16 v
  (y, if held then s else { x1 := x0, x2 := s.x1, y1 := y, y2 := s.y1 }, y != v)

/-- A section of the pool with its coefficients. -/
def Dev.runSec (d : Dev) (n : Nat) (held : Bool) (x0 : Int) : Int × Sec × Bool :=
  let c := fun (o : Nat) => d.parI 0x18 (0x2000 + 8 * n + o)
  secRun (c 0) (c 1) (c 2) (c 3) (c 4) (c 5) held (d.sec n) x0

/-- The cascade of a loop (Table 9.1 step 5): held sections by mask; the output and the sections that saturated. -/
def Dev.cascade : List Nat → Nat → Nat → Bool → Int → Dev → Int × List Nat × Dev
  | [], _, _, _, x, d => (x, [], d)
  | s :: ss, n, mask, hold, x, d =>
    let (y, st, sat) := d.runSec s (hold && mask.testBit n) x
    let (o, l, d) := Dev.cascade ss (n + 1) mask hold y (d.setSec s st)
    (o, if sat then s :: l else l, d)

/-! ### Sources, map, ramp, slew (R274 to R277, Table 9.2) -/

/-- A source: value and quality. -/
def Dev.source (d : Dev) (w scale : Word) (wrap : Bool) (const : Int) : Int × Nat :=
  let k := w.toNat / 2 ^ 28
  if k = 0 then (const, 0)
  else if k = 1 then
    let s := d.engine.setpoints.getD (w.toNat % 32) {}
    let q := w.toNat / 256 % 4
    (if q = 0 then s.thrust else if q = 1 then s.az else if q = 2 then s.fx else s.fy, s.quality)
  else if k = 2 then ((d.loop (w.toNat % 256)).u, (d.loop (w.toNat % 256)).quality)
  else if k = 3 then toQ15 (d.readPt (w.toNat % 2 ^ 17)) scale wrap
  else ((d.chain (w.toNat % 512)).q15, (d.chain (w.toNat % 512)).q15q)

/-- The map of R276. -/
def Dev.mapped15 (d : Dev) (t : Nat) (q : Int) : Int :=
  let w := (q + 32768).toNat
  let seg := w / 4096
  let frac : Int := (w % 4096 : Nat)
  let p := fun (n : Nat) => d.parI 0x18 (0x800 + 0x20 * t + n)
  p seg + ((p (seg + 1) - p seg) * frac + 2048) / 4096

/-- A difference as in step 4: modulo 2^16 with WRAP, saturating otherwise. -/
def diff16 (wrap : Bool) (a b : Int) : Int := if wrap then wrap16 (a - b) else sat16 (a - b)

/-- The ramp (R277): the loop with its ramp moved on, and sp. Only solver set-points ramp. sp_old is the sp in use, that is,
after the slew limit (DEDUCED from "the current sp": notes/assumptions/45.md). -/
def rampStep (x : LoopSt) (on wrap : Bool) (passes : Nat) (new : Int) : LoopSt × Int :=
  if !on then ({ x with target := new, ramping := false }, new)
  else if !x.started then ({ x with target := new, from0 := new, rampM := passes, ramping := false }, new)
  else
    let x := if new = x.target then { x with rampM := Bits.sat passes (x.rampM + 1) }
             else { x with target := new, from0 := x.sp, rampM := 1 }
    let dd := if wrap then wrap16 (new - x.from0) else new - x.from0
    let sp := x.from0 + rhu (dd * (Bits.sat passes x.rampM : Nat)) passes
    let sp := if wrap then wrap16 sp else sp
    ({ x with ramping := sp != new }, sp)

/-- The slew limit (R277). -/
def slewStep (x : LoopSt) (lim : Nat) (wrap : Bool) (sp : Int) : LoopSt × Int :=
  if lim = 0 ∨ x.started = false then ({ x with slewing := false }, sp)
  else
    let dd := diff16 wrap sp x.sp
    let m := Bits.clampI (-(lim : Int)) lim dd
    let v := x.sp + m
    ({ x with slewing := m != dd }, if m = dd then sp else if wrap then wrap16 v else v)

/-- A quality that makes a loop hold (Table 9.3). -/
def holds (q : Nat) : Bool := q == 4 || q == 1 || q == 3

/-- PB_j of the thruster that names loop i as its speed or pitch loop (R278). -/
def Dev.loopBound (d : Dev) (i : Nat) : Option Nat :=
  ((Bits.upTo 24).find? (fun j => i != 255 && (d.thrCmd j 1 == i || d.thrCmd j 2 == i))).map (fun j => (d.plant.thr.getD j {}).pb)

/-! ### One loop pass (Table 9.1) -/

/-- FF_GAIN × sp in Q1.15. -/
def Dev.ffTerm (d : Dev) (i : Nat) (sp : Int) : Int := (d.parI 0x18 (0x1009 + 16 * i) * sp + 8192) / 16384

/-- An event of a loop in the present pass (R25). -/
def Dev.loopEvent (code sev i : Nat) (data : List Byte) (d : Dev) : Dev :=
  { d with engine := { d.engine with events := d.engine.events ++ [{ loop := i, code := code, sev := sev, data := data }] } }

/-- The loop holds (Table 9.3); 0902h on entry. -/
def Dev.loopHold (i spq fbq : Nat) (x : LoopSt) (d : Dev) : Dev :=
  let which := if holds spq then 1 else 2
  let code := if holds spq then spq else fbq
  let y := { x with
    hold := true, holdCode := code, u := if d.loopFlag i 9 then 0 else x.u, quality := 2, satNow := false,
    holdAt := if x.hold then x.holdAt else d.time.now, idleHold := (x.hold && x.idleHold) || d.solver.mode == .idle,
    hist := ((d.engine.serial, if d.loopFlag i 9 then 0 else x.u) :: x.hist).take 16 }
  let d := d.setLoop i y
  if x.hold then d else d.loopEvent 0x0902 1 i (Bits.le 2 i ++ Bits.le 1 which ++ Bits.le 1 code)

/-- A loop starts or leaves HOLD (R282): its sections are cleared and BIAS is set. -/
def Dev.loopStart (i : Nat) (x : LoopSt) (sp fb : Int) (d : Dev) : LoopSt × Dev :=
  if x.started && !x.hold then (x, d)
  else
    let init := d.loopFlag i 8
    let fromIdle := x.idleHold && (d.loopPar i 1).toNat / 2 ^ 28 == 1 && (d.loopBound i).isSome
    let ys := if init && (!x.started || fromIdle) then fb else if x.started || x.hold then x.u else 0
    let d := (d.loopSecs i).foldl (fun y s => y.setSec s {}) d
    let y := { x with started := true, hold := false, idleHold := false, holdCode := 0, bias := sat16 (ys - d.ffTerm i sp),
                      hiClamp := false, loClamp := false, clampRun := 0, clampRaised := false }
    (y, if x.hold then d.loopEvent 0x0903 0 i (Bits.le 2 i ++ Bits.le 4 ((d.time.now - x.holdAt) / 1000000)) else d)

/-- The loop runs (steps 4 to 6). -/
def Dev.loopRun (i : Nat) (x : LoopSt) (sp fb : Int) (worst : Nat) (d : Dev) : Dev :=
  let (x, d) := d.loopStart i x sp fb
  let e := diff16 (d.loopFlag i 6) sp fb
  let hold := (x.hiClamp && decide (0 < e)) || (x.loClamp && decide (e < 0))
  let (c, sats, d) := Dev.cascade (d.loopSecs i) 0 (d.loopPar i 8).toNat hold e d
  let v := c + d.ffTerm i sp + x.bias
  let u0 := sat16 v
  let pb := d.loopBound i
  let lo0 := (d.loopPar i 10).toInt
  let hi0 := (d.loopPar i 11).toInt
  let lo := match pb with | some b => if lo0 < -(b : Int) then -(b : Int) else lo0 | none => lo0
  let hi := match pb with | some b => if (b : Int) < hi0 then (b : Int) else hi0 | none => hi0
  let u1 := if u0 < lo then lo else u0
  let u := if hi < u1 then hi else u1
  let hiC := decide (hi < u1)
  let loC := decide (u0 < lo) && !hiC
  let satNow := !sats.isEmpty || v != u0
  let y := { x with
    u := u, e := e, sp := sp, fb := fb, satNow := satNow, hiClamp := hiC, loClamp := loC,
    quality := if satNow ∨ worst = 5 then 5 else worst,
    clampRun := if hiC || loC then Bits.sat 1000 (x.clampRun + 1) else 0,
    clampRaised := x.clampRaised && (hiC || loC), sats := x.sats + sats.length,
    hist := ((d.engine.serial, u) :: x.hist).take 16 }
  sats.foldl (fun z s => z.loopEvent 0x0901 1 i (Bits.le 2 i ++ Bits.le 2 s ++ Bits.le 4 d.frame.number)) (d.setLoop i y)

/-- One pass of loop i: steps 1 to 6. -/
def Dev.loopPass (d : Dev) (i : Nat) : Dev :=
  let x := d.loop i
  let wrap := d.loopFlag i 6
  let src := d.loopPar i 1
  let div := (d.loopPar i 5).toNat % 16
  let (s0, spq) := d.source src (d.loopPar i 3) wrap (d.loopPar i 13).toInt
  let s1 := if d.loopFlag i 0 then d.mapped15 ((d.loopPar i 7).toNat / 2 % 32) s0 else s0
  let (x, s2) := rampStep x (d.loopFlag i 7 && src.toNat / 2 ^ 28 == 1) wrap (20 / Nat.max 1 div) s1
  let (x, sp) := slewStep x (d.loopPar i 12).toNat wrap s2
  let (fb, fbq) := if (d.loopPar i 2).toNat / 2 ^ 28 = 0 then (0, 0) else d.source (d.loopPar i 2) (d.loopPar i 4) wrap 0
  if holds spq || holds fbq then d.loopHold i spq fbq { x with sp := sp, fb := fb }
  else d.loopRun i x sp fb (worseQ spq fbq)

/-- The status point of a loop (Table 9.4). -/
def Dev.loopStatus (d : Dev) (i : Nat) : Nat :=
  let x := d.loop i
  flagBits [x.enabled && !x.hold && x.started, x.hold, x.hiClamp, x.loClamp, x.satNow, x.slewing, x.ramping,
    (match d.loopBound i with
     | some b => decide ((b : Int) < (d.loopPar i 11).toInt) || decide ((d.loopPar i 10).toInt < -(b : Int))
     | none => false)] + 256 * x.holdCode + 65536 * Bits.sat 0xFFFF x.sats

/-- The four points of a loop at s+0.25 ms (R283) and its trace samples. -/
def Dev.loopPoints (d : Dev) (i : Nat) : Dev :=
  let x := d.loop i
  let st := BitVec.ofNat 32 d.frame.subAt
  let b := 4096 + 4 * i
  let d := d.post 9 b 4 (valFix 15 x.u) st x.quality
  let d := d.post 9 (b + 1) 4 (valFix 15 x.e) st x.quality
  let d := d.post 9 (b + 2) 4 (valFix 15 x.sp) st x.quality
  let d := d.postU 9 (b + 3) (d.loopStatus i) st
  let f := fun (k : Nat) (v : Int) (y : Dev) => y.traceFeed k i v (x.quality == 0) y.frame.subAt
  f 3 x.u (f 2 x.e (f 1 x.fb (f 0 x.sp d)))

/-! ### The pass (R21 to R25) -/

/-- Loops that run in sub-tick j (R23), ascending. -/
def Dev.dueLoops (d : Dev) (j : Nat) : List Nat :=
  (d.engine.loops.filter (fun p => p.2.enabled &&
    (let w := (d.loopPar p.1 5).toNat
     decide (0 < w % 16) && j % (w % 16) == w / 16 % 16))).map Prod.fst

/-- What a pass may change of a loop, before it (R25). -/
def Dev.undoOf (d : Dev) (i : Nat) : LoopUndo :=
  { loop := i, st := d.loop i, secs := (d.loopSecs i).map (fun s => (s, d.sec s)) }

/-- New set-points take effect in the first sub-tick at or after the handoff (R24). -/
def Dev.takeSetpoints (d : Dev) : Dev :=
  let e := d.engine
  match e.handed with
  | some s => { d with engine := { e with setpoints := s, handed := none, cmdPass := some e.serial } }
  | none => d

/-- CONTROL_ENGINE_PASS of the present sub-tick (Table 1.2): every due loop runs. What comes of the pass is written at s+0.25. -/
def Dev.enginePass (seen : PbSeen) (d : Dev) : Dev :=
  let d := { d with engine := { d.engine with serial := d.engine.serial + 1 } }
  let d := d.takeSetpoints
  let d := { d with frame := { d.frame with overruns := if d.engine.overrun then d.frame.overruns else 0 },
                    engine := { d.engine with overrun := false, undo := [], events := [] } }
  let l := if !d.engine.running || d.testing 3 then [] else d.dueLoops d.frame.sub
  let wait : PassWait := { due := d.time.now + (d.frame.subAt + 250000 - d.dev), loops := l, seen := seen }
  let d := { d with engine := { d.engine with undo := l.map d.undoOf, pass := some wait } }
  l.foldl (fun x i => x.loopPass i) d

/-- The loops of the pass in progress give what they found: their events, their points and their trace samples (R283). -/
def Dev.passOutputs (l : List Nat) (d : Dev) : Dev :=
  let ev := d.engine.events
  let d := { d with engine := { d.engine with events := [] } }
  let d := ev.foldl (fun (x : Dev) (e : LoopEvent) => x.raiseI e.code e.sev e.loop e.data) d
  l.foldl (fun x i => x.loopPoints i) d

/-- PASS_OVERRUN (R25): the loops from `first` on, which have not completed, keep their previous outputs and give nothing in
this pass. -/
def Dev.passOverrun (first : Nat) (d : Dev) : Dev :=
  if d.engine.undo.all (fun u => decide (u.loop < first)) then d
  else
    let n := d.frame.overruns + 1
    let d := (d.engine.undo.filter (fun u => decide (first ≤ u.loop))).foldl (fun (x : Dev) (u : LoopUndo) =>
      u.secs.foldl (fun (y : Dev) (s : Nat × Sec) => y.setSec s.1 s.2) (x.setLoop u.loop u.st)) d
    let d := { d with
      frame := { d.frame with overruns := n },
      engine := { d.engine with
        overrun := true, undo := [], events := d.engine.events.filter (fun (e : LoopEvent) => decide (e.loop < first)),
        pass := d.engine.pass.map (fun (w : PassWait) => { w with loops := w.loops.filter (fun i => decide (i < first)) }) } }
    let d := d.raise 0x0106 3 (Bits.le 4 d.frame.number ++ Bits.le 1 d.frame.sub ++ Bits.le 2 first)
    if n = 3 then d.raise 0x010A 4 (Bits.le 4 d.frame.number) else d

/-- OUTPUT_CLAMPED_LONG (R284). -/
def Dev.clampedLong (i : Nat) (d : Dev) : Dev :=
  let x := d.loop i
  if x.enabled && decide (1000 ≤ x.clampRun) && !x.clampRaised then
    (d.setLoop i { x with clampRaised := true }).raiseI 0x0904 0 i (Bits.le 2 i ++ Bits.le 1 (Bits.b2n x.hiClamp))
  else d

/-- ENGINE_RUN and LOOP_EN take effect at a tick (R282, R293): the points of a disabled loop read BAD. -/
def Dev.engineApply (d : Dev) : Dev :=
  let run := d.life.running496 && d.life.state != .retired && d.parB 0x18 1
  let d := { d with engine := { d.engine with running := run } }
  (Bits.upTo 256).foldl (fun x i =>
    let en := run && x.parB 0x18 (0x1000 + 16 * i)
    let l := x.loop i
    if l.enabled = en then x
    else if en then x.setLoop i { enabled := true, hist := l.hist }
    else
      let x := x.setLoop i { l with enabled := false, started := false, hold := false, quality := 3 }
      (Bits.upTo 4).foldl (fun y k => y.degrade (4096 + 4 * i + k) 3) x) d

/-! ### Thruster command records (R285 to R287, Table 9.6) -/

/-- The latest output of a loop at or before a sub-tick serial number. -/
def LoopSt.outputAt (x : LoopSt) (serial : Nat) : Option Int := (x.hist.find? (fun h => decide (h.1 ≤ serial))).map Prod.snd

/-- A command field and its slope (R285). -/
def Dev.cmdField (d : Dev) (loop serial : Nat) : Int × Int :=
  let x := d.loop loop
  let y := (x.outputAt serial).getD x.u
  match x.outputAt (serial - 5) with
  | some y5 => (y, rhu (y - y5) 5)
  | none => (y, 0)

/-- Bytes 0 to 19 and RCRC of a record. -/
def recordBytes (b : List Byte) : List Byte := b ++ Bits.le 4 (Bits.crc32c b).toNat

/-- CFLAGS of thruster j. -/
def Dev.cflags (d : Dev) (j : Nat) (limit : Bool) : Nat :=
  let l := (Bits.upTo 3).map (fun k => d.thrCmd j k)
  flagBits [d.engine.running && d.solver.mode != .idle, l.getD 0 255 != 255, l.getD 1 255 != 255, l.getD 2 255 != 255, limit,
    l.any (fun i => i != 255 && (d.loop i).hold)]

/-- The regular record of thruster j (Table 9.6). -/
def Dev.cmdRecord (d : Dev) (j : Nat) : List Byte :=
  let serial := d.engine.cmdPass.getD d.engine.serial
  let f := fun (k : Nat) =>
    if d.thrCmd j k = 255 then Bits.zeros 4
    else let (y, s) := d.cmdField (d.thrCmd j k) serial; Bits.leI 2 y ++ Bits.leI 2 s
  recordBytes (Bits.le 4 d.frame.number ++ Bits.le 1 j ++ Bits.le 1 (d.cflags j false) ++ f 0 ++ f 1 ++ f 2 ++
    Bits.le 2 (d.plant.thr.getD j {}).pb)

/-- The limit frame's record of thruster j (R287): the latest outputs, speed and pitch within ±PB_j, slopes 0. -/
def Dev.limitRecord (d : Dev) (j : Nat) : List Byte :=
  let pb := (d.plant.thr.getD j {}).pb
  let f := fun (k : Nat) =>
    if d.thrCmd j k = 255 then Bits.zeros 4
    else
      let y := (d.loop (d.thrCmd j k)).u
      Bits.leI 2 (if k = 0 then y else Bits.clampI (-(pb : Int)) pb y) ++ [0, 0]
  recordBytes (Bits.le 4 d.frame.number ++ Bits.le 1 j ++ Bits.le 1 (d.cflags j true) ++ f 0 ++ f 1 ++ f 2 ++ Bits.le 2 pb)

end Sys2Proof.Machine
end

