-- ==== Sys2Proof/Machine/Flows.lean ====
section
/-! DEFINITION. Machine/Flows.lean: flow contexts: opening, intake, timeouts, publication, status (03 R91 to R102, R531,
11 R344). -/

namespace Sys2Proof.Machine

open Sys2Proof

/-- A context. -/
def Dev.flow (d : Dev) (c : Nat) : FlowCtx := Bits.get (fun _ => ({} : FlowCtx)) d.flows.ctxs c

/-- A context replaced. -/
def Dev.setFlow (c : Nat) (x : FlowCtx) (d : Dev) : Dev :=
  { d with flows := { d.flows with ctxs := Bits.put (fun _ => ({} : FlowCtx)) d.flows.ctxs c x } }

/-- Points of a FLOW_OPEN payload entry e. -/
def entryPoints (payload : List Byte) (e : Nat) : List Nat :=
  let o := 36 + 8 * e
  if Bits.byteAt payload 1 = 0 then (Bits.upTo (Bits.at' payload (o + 4) 2)).map (fun k => Bits.at' payload o 4 + k)
  else [Bits.at' payload (o + 4) 4]

/-- The points of a context, in payload order. -/
def ctxPoints (payload : List Byte) : List Nat := (Bits.upTo (Bits.byteAt payload 33)).flatMap (entryPoints payload)

/-! ### Checks of a FLOW_OPEN (R92, R93, R344, Table 3.7) -/

/-- The periods a publish context may have (Table 3.7). -/
def publishPeriods : List Nat := [1, 2, 5, 10, 20, 50, 100, 200, 500, 1000]

/-- The offset of the first field of bytes 0 to 35 that breaks Table 3.7 or R344. -/
def Dev.flowHeadBad (d : Dev) (p : List Byte) : Option Nat :=
  let b := fun (i : Nat) => Bits.byteAt p i
  let h := fun (i : Nat) => Bits.at' p i 2
  let pub := b 0 == 1
  let checks : List (Nat × Bool) :=
    [(0, decide (b 0 ≤ 1)), (1, b 1 == 0 || (b 1 == 1 && !pub)), (2, decide (b 2 ≤ 1)),
     (3, decide (b 3 ≤ 3) && (b 3 != 1 || d.parB 0x20 0x40)),
     (20, if pub then publishPeriods.contains (h 20) else decide (1 ≤ h 20) && decide (h 20 ≤ 1000)),
     (22, !pub || decide (h 22 < h 20)), (24, pub || (decide (2 * h 20 ≤ h 24) && decide (h 24 ≤ 10000))),
     (26, pub || (decide (h 24 ≤ h 26) && decide (h 26 ≤ 60000))), (28, pub || decide (b 28 ≤ 1)),
     (29, !pub || (decide (b 29 ≤ 7) && d.parN 0x20 (0x50 + b 29) == b 3)),
     (30, !pub || (decide (300 ≤ h 30) && decide (h 30 ≤ 999))), (32, decide (b 32 ≤ 1)),
     (33, decide (1 ≤ b 33) && decide (b 33 ≤ (if b 1 = 0 then 8 else 64))), (34, h 34 == 0)]
  (checks.find? (fun c => !c.2)).map Prod.fst

/-- An index that a subscribe context may claim (R92); `others` are the payloads of contexts about to open. -/
def Dev.claimable (d : Dev) (others : List (List Byte)) (i : Nat) : Bool :=
  assignable i && (d.claimant i).isNone && (d.mapped i).isNone &&
    !(others.any (fun p => Bits.byteAt p 0 == 0 && flowCovers p i))

/-- The offset of the first offending field of entry e, with the points counted before it (R92, R94). DESIGN CHOICE: the
first-index field of a range offends where any index of the range cannot be claimed or read, and a count of 0 offends
(notes/assumptions/99.md). -/
def Dev.flowEntryBad (d : Dev) (others : List (List Byte)) (p : List Byte) (before e : Nat) : Option Nat :=
  let o := 36 + 8 * e
  let pub := Bits.byteAt p 0 == 1
  let ok := fun (i : Nat) => if pub then !(d.reserved i) else d.claimable others i
  if Bits.byteAt p 1 = 0 then
    let n := Bits.at' p (o + 4) 2
    if 131072 ≤ Bits.at' p o 4 ∨ !(ok (Bits.at' p o 4)) ∨ !((entryPoints p e).all ok) then some o
    else if n = 0 ∨ 1024 < before + n then some (o + 4)
    else if Bits.at' p (o + 6) 2 ≠ 0 then some (o + 6)
    else none
  else
    let t := Bits.byteAt p (o + 2)
    let x := Bits.byteAt p (o + 3)
    let n := x % 32
    let limit := if t = 4 then 31 else if t = 1 then 7 else 0
    if t = 0 ∨ 5 < t then some (o + 2)
    else if limit < n ∨ x / 32 % 4 ≠ 0 then some (o + 3)
    else if !(ok (Bits.at' p (o + 4) 4)) then some (o + 4)
    else none

/-- The first offending entry field, entry by entry. -/
def Dev.flowEntriesBad (d : Dev) (others : List (List Byte)) (p : List Byte) : Nat → Nat → Nat → Option Nat
  | 0, _, _ => none
  | fuel + 1, before, e =>
    match d.flowEntryBad others p before e with
    | some o => some o
    | none => d.flowEntriesBad others p fuel (before + (entryPoints p e).length) (e + 1)

/-- Records per second of open contexts of one direction as a fraction (R93). -/
def flowRate (dir : Nat) (ps : List (List Byte)) : Int × Nat :=
  (ps.filter (fun p => Bits.byteAt p 0 == dir)).foldl (fun a p =>
    fracAdd a 1 ((((ctxPoints p).length * 1000 : Nat) : Int), Bits.at' p 20 2)) (0, 1)

/-- Records due in the sub-tick at millisecond t of open publish contexts (R93). -/
def flowDue (ps : List (List Byte)) (t : Nat) : Nat :=
  (ps.filter (fun p => Bits.byteAt p 0 == 1 && t % Bits.at' p 20 2 == Bits.at' p 22 2)).foldl
    (fun a p => a + (ctxPoints p).length) 0

/-- The offset of the first entry at which a limit of R93 is exceeded. -/
def flowLoadBad (ps : List (List Byte)) (p : List Byte) : Option Nat :=
  let dir := Bits.byteAt p 0
  let per := Bits.at' p 20 2
  let base := flowRate dir ps
  let worst := if dir = 0 then 0
    else (Bits.upTo (1000 / per)).foldl (fun a k => Nat.max a (flowDue ps (k * per + Bits.at' p 22 2))) 0
  let upto := fun (e : Nat) => ((Bits.upTo (e + 1)).flatMap (entryPoints p)).length
  ((Bits.upTo (Bits.byteAt p 33)).find? (fun e =>
    fracLt (2000000, 1) (fracAdd base 1 (((upto e * 1000 : Nat) : Int), per)) ||
      (dir == 1 && decide (2048 < worst + upto e)))).map (fun e => 36 + 8 * e)

/-- The check of a FLOW_OPEN payload (R91): none where it may open; otherwise the offset of the first offending field and
whether a limit of R93 is exceeded. -/
def Dev.flowCheck (d : Dev) (others : List (List Byte)) (p : List Byte) : Option (Nat × Bool) :=
  match d.flowHeadBad p with
  | some o => some (o, false)
  | none => match d.flowEntriesBad others p (Bits.byteAt p 33) 0 0 with
    | some o => some (o, false)
    | none =>
      (flowLoadBad ((d.flows.ctxs.filter (fun c => c.2.state != 0)).map (fun c => c.2.payload) ++ others) p).map (fun o => (o, true))

/-- Event 0308h. -/
def Dev.flowRefused (c o : Nat) (d : Dev) : Dev := d.raiseI 0x0308 0 c (Bits.le 1 c ++ Bits.le 2 o)

/-! ### Opening and closing (R91, R95, R101) -/

/-- FLOW_OPEN (R91): ACCEPTED; the payload is checked, and the context opens at the next tick. -/
def Dev.flowOpenOp (tag : BitVec 6) (r : Req) (d : Dev) : OpRes :=
  if 255 < r.tgt then refuse d stRange
  else if (d.flow r.tgt).state != 0 || d.flows.opening.any (fun x => x.1 == r.tgt && !x.2.2.isEmpty) then refuse d stBusy
  else
    match d.flowCheck (d.flows.opening.map (fun x => x.2.2)) r.payload with
    | some (o, load) =>
      let d := if load then d.flowRefused r.tgt o else d
      deferred (d.finish tag { status := stRange, rarg := BitVec.ofNat 16 o }) (some 100000000)
    | none =>
      deferred { d with flows := { d.flows with opening := d.flows.opening ++ [(r.tgt, tag, r.payload)] } }
        (some 100000000)

/-- The CRC-32C that a stored context carries (R101). -/
def flowCrc (c : Nat) (p : List Byte) : Word := Bits.crc32c (Bits.le 1 c ++ p)

/-- A context opens: its counters are cleared and the points that it claims are at reset values (R91, R96). -/
def Dev.flowOpenAt (c : Nat) (p : List Byte) (d : Dev) : Dev :=
  let sub := Bits.byteAt p 0 = 0
  let d := if sub then (ctxPoints p).foldl (fun x i => x.setPt i {}) d else d
  let d := d.setFlow c { state := if sub then 1 else 2, payload := p, openedAt := d.time.now }
  let kept := if Bits.byteAt p 32 = 1 then Bits.put (fun _ => ({} : StoredFlow)) d.nvm.flows c { payload := p, crc := flowCrc c p }
    else d.nvm.flows
  { d with nvm := { d.nvm with flows := kept } }

/-- A context closes: every point it claimed is released, and its stored copy is removed (R85, R101). -/
def Dev.flowCloseAt (c : Nat) (d : Dev) : Dev :=
  let x := d.flow c
  let d := { d with nvm := { d.nvm with flows := Bits.put (fun _ => ({} : StoredFlow)) d.nvm.flows c {} } }
  if x.state = 0 then d
  else
    let d := d.setFlow c {}
    if Bits.byteAt x.payload 0 = 0 then (ctxPoints x.payload).foldl (fun y i => y.setPt i {}) d else d

/-- A context opened or closed is applied to the partner (R102): on a unit in control with a partner it is member 0 and the
partner, whose result is its own, member 1. A unit not in control that opens or closes one for its own host now differs
from its partner: cause 5. -/
def Dev.flowPair (c : Nat) (p : List Byte) (d : Dev) : Dev × List (Nat × Half) :=
  if !d.clasp.partnerHere then (d, [(0, stOk)])
  else if d.clasp.role.inControl then
    let d := (d.emit (.partnerFlow c p)).fresh
    (d, [(0, stOk), (1, Config.partnerFlow d.free)])
  else ({ d with clasp := { d.clasp with causes := d.clasp.causes ||| 0x20 } }, [(0, stOk)])

/-- FLOW_CLOSE. A close that follows an opening which still waits is made after it, at the tick (R46). -/
def Dev.flowCloseOp (tag : BitVec 6) (r : Req) (d : Dev) : OpRes :=
  if 255 < r.tgt then refuse d stRange
  else
    let (d, ms) := d.flowPair r.tgt []
    let d := if d.flows.opening.any (fun x => x.1 == r.tgt) then
        { d with flows := { d.flows with opening := d.flows.opening ++ [(r.tgt, tag, [])] } }
      else d.flowCloseAt r.tgt
    let f := fanFin 0 ms 0 []
    let d := if f.status = stPartial then d.partialEvent 0x29 0 ms else d
    { dev := d, ans := .fin f }

/-- What waits for the tick opens and closes (R91). -/
def Dev.flowTick (d : Dev) : Dev :=
  let l := d.flows.opening
  let d := { d with flows := { d.flows with opening := [], partnerAge := Bits.sat 1000 (d.flows.partnerAge + 1) } }
  l.foldl (fun x e =>
    if e.2.2.isEmpty then x.flowCloseAt e.1
    else match x.flowCheck [] e.2.2 with
      | some (o, load) =>
        (if load then x.flowRefused e.1 o else x).finish e.2.1 { status := stRange, rarg := BitVec.ofNat 16 o }
      | none =>
        let (y, ms) := (x.flowOpenAt e.1 e.2.2).flowPair e.1 e.2.2
        y.finishFan e.2.1 0x28 0 ms) d

/-- A FLOW_OPEN that reaches its limit is withdrawn (R48). -/
def Dev.flowOpenStop (tag : BitVec 6) (d : Dev) : Dev :=
  { d with flows := { d.flows with opening := d.flows.opening.filter (fun x => x.2.1 != tag || x.2.2.isEmpty) } }

/-- At start-up stored contexts reopen in ascending number; one that fails its checks stays closed (R101), and so does one
whose CRC fails, which is no stored context. -/
def Dev.flowStart (d : Dev) : Dev :=
  (d.nvm.flows.filter (fun (e : Nat × StoredFlow) => e.2.crc == flowCrc e.1 e.2.payload)).foldl
    (fun (x : Dev) (e : Nat × StoredFlow) =>
      match x.flowCheck [] e.2.payload with
      | some (o, _) => x.flowRefused e.1 o
      | none => x.flowOpenAt e.1 e.2.payload) d

/-- The 32-byte record of a context (Table 3.10). -/
def Dev.flowStatusBytes (d : Dev) (c : Nat) : List Byte :=
  let x := d.flow c
  let age := if x.hasSeq && Bits.byteAt x.payload 0 == 0 then Bits.sat 0xFFFFFFFF ((d.time.now - x.lastAt) / 1000) else 0xFFFFFFFF
  let h := fun (n : Nat) => Bits.le 2 (Bits.sat 0xFFFF n)
  Bits.le 1 (d.flowState x) ++ Bits.le 1 (Bits.byteAt x.payload 0) ++ Bits.le 2 (ctxPoints x.payload).length ++
    Bits.le 4 x.frames ++ Bits.le 4 x.gaps ++ h x.dups ++ h x.late ++ h x.errors ++ h x.missed ++ Bits.le 2 x.lastSeq ++
    [0, 0] ++ Bits.le 4 age ++ Bits.le 4 x.outages

/-- FLOW_STATUS (Table 3.10). -/
def Dev.flowStatusOp (r : Req) (d : Dev) : OpRes :=
  if 255 < r.tgt then refuse d stRange else reads d (d.flowStatusBytes r.tgt)

/-! ### Intake (R94, R96, R98, R99, R531) -/

/-- A frame matches every selection field of a subscribe context (R531 step 1). -/
def candidate (port : Nat) (f : EthFrame) (x : FlowCtx) : Bool :=
  let p := x.payload
  let mac := Bits.fromLe ((p.drop 4).take 6).reverse
  let ip := Bits.at' p 12 4
  x.state != 0 && Bits.byteAt p 0 == 0 && (portsOf (Bits.byteAt p 3)).contains port &&
    (if Bits.byteAt p 2 = 0 then !f.udp && f.ethType == 0x88B5
     else f.udp && f.udpPort == Bits.at' p 16 2 && (ip == 0 || ip == f.ipSrc)) &&
    (mac == 0 || mac == f.src) &&
    (if Bits.at' p 10 2 = 0xFFFF then (match f.vlan with | none => true | some v => v % 4096 == 0)
     else (match f.vlan with | none => false | some v => v % 4096 == Bits.at' p 10 2 % 4096))

/-- An accepted frame restores UP; 0302h with the outage after STALE or DOWN (R96). -/
def Dev.flowAccept (c : Nat) (d : Dev) : Dev :=
  let x := d.flow c
  let out := (d.time.now - (if x.hasSeq then x.lastAt else x.openedAt)) / 1000000
  let d := d.setFlow c { x with state := 2, frames := x.frames + 1, lastAt := d.time.now, hasSeq := true }
  if x.state = 3 ∨ x.state = 4 then d.raiseI 0x0302 0 c (Bits.le 1 c ++ Bits.le 4 out) else d

/-- A record that breaks R79 or R85 is dropped and counted, and 0304h is raised (R99 step 3). -/
def Dev.flowTypeDrop (c i : Nat) (d : Dev) : Dev :=
  (d.setFlow c { d.flow c with errors := (d.flow c).errors + 1 }).raiseI 0x0304 1 c (Bits.le 1 c ++ Bits.le 4 i)

/-- A fixed-layout context takes a frame (R94); a write of a type other than the point's is refused (R85), as R99 does it
(DEDUCED, notes/assumptions/99.md). -/
def Dev.flowFixed (c : Nat) (f : EthFrame) (d : Dev) : Dev :=
  let p := (d.flow c).payload
  let st := d.short
  (Bits.upTo (Bits.byteAt p 33)).foldl (fun x e =>
    let o := 36 + 8 * e
    let k := Bits.byteAt p (o + 3)
    let t := Bits.byteAt p (o + 2)
    match readField f.payload (Bits.at' p o 2) t (k % 32) (decide (128 ≤ k)) with
    | none => x.setFlow c { x.flow c with errors := (x.flow c).errors + 1 }
    | some v =>
      let i := Bits.at' p (o + 4) 4
      let y : Point := { value := v, stamp := st, quality := 0, typ := BitVec.ofNat 8 t, source := BitVec.ofNat 16 (0x1000 + c) }
      if typeOk (x.pt i).typ y.typ then x.setPt i y else x.flowTypeDrop c i) (d.flowAccept c)

/-- The index blocks of a point-stream payload: first index and records; none where the payload ends early. -/
def streamBlocks : Nat → List Byte → Option (List (Nat × List Point) × List Byte)
  | 0, bs => some ([], bs)
  | n + 1, bs =>
    let k := Bits.at' bs 4 2
    let body := bs.drop 8
    if bs.length < 8 ∨ body.length < 16 * k then none
    else match streamBlocks n (body.drop (16 * k)) with
      | none => none
      | some (l, rest) =>
        some ((Bits.at' bs 0 4, (Bits.upTo k).map (fun i => pointOf ((body.drop (16 * i)).take 16))) :: l, rest)

/-- One record of a point stream (R99 steps 3 and 4); `late` counts the records dropped as late. DESIGN CHOICE: a QUALITY above
05h or with bits [7:4] set is written as sent, since only SIGNAL_WRITE checks the quality code (notes/assumptions/99.md). -/
def Dev.flowRecord (c i : Nat) (p : Point) (valid : Bool) (s : Dev × Nat) : Dev × Nat :=
  let (d, late) := s
  let held := d.pt i
  if held.typ != 0 && !(Bits.later p.stamp held.stamp) then (d, late + 1)
  else if p.typ == 0 || !(typeOk held.typ p.typ) || !p.layoutOk then
    (d.flowTypeDrop c i, late)
  else
    (d.setPt i { p with stamp := if valid then p.stamp else d.short, source := BitVec.ofNat 16 (0x1000 + c) }, late)

/-- The signed 16-bit difference of two sequence numbers. -/
def seqDiff (a b : Nat) : Int := (BitVec.ofNat 16 a - BitVec.ofNat 16 b).toInt

/-- The sequence check (R99 step 2): none for a duplicate; otherwise the context after it and the missing periods. -/
def seqCheck (x : FlowCtx) (seq frag : Nat) : Option (FlowCtx × Nat) :=
  let mask := (x.frags.find? (fun e => e.1 == seq)).map Prod.snd
  let d := seqDiff seq x.lastSeq
  let keep := fun (l : List (Nat × Nat)) (top : Nat) => l.filter (fun e => decide (seqDiff e.1 top ≥ -32))
  if !x.hasSeq || decide (d < -32) then some ({ x with lastSeq := seq, frags := [(seq, 2 ^ frag)] }, 0)
  else if 1 ≤ d then
    some ({ x with lastSeq := seq, frags := (seq, 2 ^ frag) :: keep x.frags seq, gaps := x.gaps + (d - 1).toNat }, (d - 1).toNat)
  else match mask with
    | some m =>
      if m.testBit frag then none
      else some ({ x with frags := x.frags.map (fun e => if e.1 = seq then (seq, m ||| 2 ^ frag) else e) }, 0)
    | none => some ({ x with frags := x.frags ++ [(seq, 2 ^ frag)] }, 0)

/-- A point-stream context takes a frame (R99). -/
def Dev.flowStream (c : Nat) (bs : List Byte) (d : Dev) : Dev :=
  let x := d.flow c
  let seq := Bits.at' bs 6 2
  let flags := Bits.byteAt bs 3
  let bad := d.setFlow c { x with errors := x.errors + 1 }
  match streamBlocks (Bits.at' bs 20 2) (bs.drop 32) with
  | none => bad
  | some (blocks, rest) =>
    let body := (bs.drop 32).take (bs.length - 32 - rest.length)
    let inside := blocks.all (fun b => (Bits.upTo b.2.length).all (fun k => flowCovers x.payload (b.1 + k)))
    if Bits.at' bs 20 2 = 0 ∨ rest.length < 4 ∨ Bits.crc32c body ≠ Bits.wordAt rest 0 ∨ inside = false then bad
    else match seqCheck x seq (flags % 16) with
      | none => d.setFlow c { x with dups := x.dups + 1 }
      | some (x1, gap) =>
        let first := x.hasSeq
        let d := (d.setFlow c { x1 with hasSeq := first }).flowAccept c
        let d := if gap = 0 then d else d.raiseI 0x0303 0 c (Bits.le 1 c ++ Bits.le 2 gap)
        let recs := blocks.flatMap (fun b => (Bits.upTo b.2.length).map (fun k => (b.1 + k, b.2.getD k {})))
        let (d, late) := recs.foldl (fun s r => Dev.flowRecord c r.1 r.2 (decide (flags / 32 % 2 = 1)) s) (d, 0)
        if late = 0 then d
        else (d.setFlow c { d.flow c with late := (d.flow c).late + late }).raiseI 0x0305 0 c (Bits.le 1 c ++ Bits.le 2 late)

/-- The header of a point-stream payload holds (R531 step 3). -/
def streamHeadOk (bs : List Byte) : Bool :=
  Bits.at' bs 0 2 == 0x5D1A && Bits.byteAt bs 2 == 1 && Bits.crc32c (Bits.fit 28 bs) == Bits.wordAt bs 28

/-- A frame is offered to the open subscribe contexts (R531); one that none takes is counted (point 5428). DESIGN CHOICE: a
frame that a FORMAT 1 context takes is not counted there, though step 3 drops it for its FORMAT 0 candidates
(notes/assumptions/99.md). -/
def Dev.flowOffer (port : Nat) (f : EthFrame) (d : Dev) : Dev :=
  let cs := d.flows.ctxs.filter (fun c => candidate port f c.2)
  let fixed := (cs.filter (fun c => Bits.byteAt c.2.payload 1 == 1)).map Prod.fst
  let stream := if streamHeadOk f.payload then
      (cs.filter (fun c => Bits.byteAt c.2.payload 1 == 0 && Bits.at' c.2.payload 18 2 == Bits.at' f.payload 4 2)).map Prod.fst
    else []
  if fixed.isEmpty && stream.isEmpty then { d with net := { d.net with unoffered := d.net.unoffered + 1 } }
  else stream.foldl (fun x c => x.flowStream c f.payload) (fixed.foldl (fun x c => x.flowFixed c f) d)

/-- A frame for the module's own stack: within STORM_LIMIT it is offered to the flows. -/
def Dev.ownStack (port : Nat) (f : EthFrame) (d : Dev) : Dev :=
  let (within, d) := d.storm port f
  if within then d.flowOffer port f else d

/-- ETH_FRAME_RECEIVED: the duplicate discard, then the own stack (R100, R531). -/
def Dev.ethReceived (port : Nat) (f : EthFrame) (d : Dev) : Dev :=
  let (offered, d) := d.ethIntake port f
  if offered then d.ownStack port f else d

/-! ### Timeouts (R96) -/

/-- The zero of a type in a record: a FIX32 keeps its fraction bits. -/
def zeroValue (p : Point) : DWord := if p.typ = 4 then valFix (p.value >>> 32).toNat 0 else 0

/-- ON_TIMEOUT on one point. -/
def Dev.flowDegrade (onTimeout i : Nat) (d : Dev) : Dev :=
  if onTimeout = 0 then d.degrade i 1
  else
    let p := d.pt i
    if p.typ = 0 then d
    else d.setPt i { p with value := zeroValue p, quality := if qRank p.quality.toNat < 1 then 2 else p.quality }

/-- The raw instant from which a subscribe context's times run: its last accepted frame, or its opening (R96). -/
def FlowCtx.from' (x : FlowCtx) : Nat := if x.hasSeq then x.lastAt else x.openedAt

/-- FLOW_TIMEOUT: TIMEOUT has passed (R96). -/
def Dev.flowTimeout (c : Nat) (d : Dev) : Dev :=
  let x := d.flow c
  if Bits.byteAt x.payload 0 = 0 ∧ (x.state = 1 ∨ x.state = 2) ∧ 1000000 * Bits.at' x.payload 24 2 ≤ d.boundaryAge x.from' then
    let d := (ctxPoints x.payload).foldl (fun y i => y.flowDegrade (Bits.byteAt x.payload 28) i) d
    (d.setFlow c { x with state := 3, staleAt := d.time.now, outages := x.outages + 1 }).raiseI 0x0301 1 c (Bits.le 1 c ++ [3])
  else d

/-- FLOW_BAD_AFTER: BAD_AFTER has passed (R96). -/
def Dev.flowBadAfter (c : Nat) (d : Dev) : Dev :=
  let d := d.flowTimeout c
  let x := d.flow c
  if x.state = 3 ∧ 1000000 * Bits.at' x.payload 26 2 ≤ d.boundaryAge x.from' then
    let d := (ctxPoints x.payload).foldl (fun y i => y.degrade i 3) d
    (d.setFlow c { x with state := 4 }).raiseI 0x0301 1 c (Bits.le 1 c ++ [4])
  else d

/-! ### Publication (R97, R98) -/

/-- Index blocks of one fragment: first index and count. -/
abbrev Frag := List (Nat × Nat)

/-- The ranges packed into fragments: 1,436 bytes of blocks each, 8 + 16 n bytes a block (R98). -/
def packFrags : Nat → List (Nat × Nat) → Nat → Frag → List Frag
  | 0, _, _, cur => if cur.isEmpty then [] else [cur]
  | _, [], _, cur => if cur.isEmpty then [] else [cur]
  | fuel + 1, (i, n) :: rs, room, cur =>
    if n = 0 then packFrags fuel rs room cur
    else
      let k := (room - 8) / 16
      if k = 0 then cur :: packFrags fuel ((i, n) :: rs) 1436 []
      else if n ≤ k then packFrags fuel rs (room - 8 - 16 * n) (cur ++ [(i, n)])
      else (cur ++ [(i, k)]) :: packFrags fuel ((i + k, n - k) :: rs) 1436 []

/-- A point-stream payload (Table 3.9). -/
def Dev.streamPayload (d : Dev) (p : List Byte) (seq frag last sendTime : Nat) (blocks : Frag) : List Byte :=
  let h := Bits.le 2 0x5D1A ++ [1] ++ Bits.le 1 (frag % 16 + 16 * last + 32 * Bits.b2n d.timeValid) ++
    (p.drop 18).take 2 ++ Bits.le 2 seq ++ Bits.le 8 sendTime ++ Bits.le 4 d.frame.number ++ Bits.le 2 blocks.length ++
    Bits.le 2 (d.parN 0x20 1) ++ Bits.zeros 4
  let b := blocks.flatMap (fun x => Bits.le 4 x.1 ++ Bits.le 2 x.2 ++ [0, 0] ++
    (Bits.upTo x.2).flatMap (fun k => (d.readPt (x.1 + k)).bytes))
  h ++ Bits.le 4 (Bits.crc32c h).toNat ++ b ++ Bits.le 4 (Bits.crc32c b).toNat

/-- The ones'-complement sum of 16-bit words, most significant byte first. -/
def onesSum : List Byte → Nat
  | a :: b :: bs => a.toNat * 256 + b.toNat + onesSum bs
  | [a] => a.toNat * 256
  | [] => 0

/-- An IPv4 and UDP header before a payload (CARRIER 1). DESIGN CHOICE: the UDP checksum is 0, the source port is UDP_PORT, the
time to live 64 and the identification 0 (notes/assumptions/35.md). -/
def udpWrap (dstIp port : Nat) (payload : List Byte) : List Byte :=
  let h := fun (sum : Nat) => [0x45, 0] ++ Bits.be 2 (28 + payload.length) ++ [0, 0, 0, 0, 64, 17] ++ Bits.be 2 sum ++
    Bits.be 4 Config.ownIp ++ Bits.be 4 dstIp
  let s := onesSum (h 0)
  let s := s % 65536 + s / 65536
  let s := s % 65536 + s / 65536
  h (65535 - s) ++ Bits.be 2 port ++ Bits.be 2 port ++ Bits.be 2 (8 + payload.length) ++ [0, 0] ++ payload

/-- An Ethernet frame: addresses, the tag unless untagged, EtherType, payload. -/
def Dev.ethWrap (d : Dev) (dst : List Byte) (vlan ethType : Nat) (payload : List Byte) : List Byte :=
  dst ++ Bits.be 6 d.mac ++ (if vlan = 0xFFFF then [] else [0x81, 0x00] ++ Bits.be 2 vlan) ++ Bits.be 2 ethType ++ payload

/-- A publish frame that could not be queued before its launch time: it is not sent, counted in MISSED, and 0306h is raised
(R95, R97). -/
def Dev.publishMissed (c seq : Nat) (d : Dev) : Dev :=
  (d.setFlow c { d.flow c with missed := (d.flow c).missed + 1 }).raiseI 0x0306 1 c (Bits.le 1 c ++ Bits.le 2 seq)

/-- One publish context at a boundary at which it is due (R97). -/
def Dev.flowPublish (c : Nat) (d : Dev) : Dev :=
  let x := d.flow c
  let p := x.payload
  let q := Bits.byteAt p 29
  let seq := if x.hasSeq then (x.lastSeq + 1) % 65536 else 0
  let due := d.frame.subAt + 1000 * Bits.at' p 30 2
  let ranges := (Bits.upTo (Bits.byteAt p 33)).map (fun e => (Bits.at' p (36 + 8 * e) 4, Bits.at' p (40 + 8 * e) 2))
  let fs := packFrags 64 ranges 1436 []
  let d := d.setFlow c { x with lastSeq := seq, hasSeq := true }
  let (d, sent) := (Bits.upTo fs.length).foldl (fun (s : Dev × Nat) k =>
    let (d, n) := s
    let body := d.streamPayload p seq k (Bits.b2n (k + 1 == fs.length)) due (fs.getD k [])
    let frame := if Bits.byteAt p 2 = 0 then d.ethWrap ((p.drop 4).take 6) (Bits.at' p 10 2) 0x88B5 body
      else d.ethWrap ((p.drop 4).take 6) (Bits.at' p 10 2) 0x0800 (udpWrap (Bits.at' p 12 4) (Bits.at' p 16 2) body)
    if due ≤ d.dev then (d.publishMissed c seq, n)
    else
      let (ok, d) := d.launchPush q { frame := frame, due := due, port := d.parN 0x20 (0x50 + q) }
      if ok then (d, n + 1) else (d.publishMissed c seq, n)) (d, 0)
  d.setFlow c { d.flow c with frames := (d.flow c).frames + sent }

/-- FLOW_PUBLISH at s+0.25 ms: only the unit in control publishes (R97, R102). -/
def Dev.flowPublishAll (d : Dev) : Dev :=
  if d.clasp.role.inControl && d.frame.subAt % 1000000 == 0 then
    (d.flows.ctxs.filter (fun c => c.2.state != 0 && Bits.byteAt c.2.payload 0 == 1 && d.flowState c.2 == 2 &&
        d.frame.subAt / 1000000 % Bits.at' c.2.payload 20 2 == Bits.at' c.2.payload 22 2)).foldl
      (fun x c => x.flowPublish c.1) d
  else d

/-- The subscribe contexts that are UP, as FLOW_STATE reports them (Table 13.12). -/
def Dev.upMask (d : Dev) : Nat :=
  Bits.bitsOf ((d.flows.ctxs.filter (fun c => c.2.state == 2 && Bits.byteAt c.2.payload 0 == 0)).map Prod.fst)

end Sys2Proof.Machine
end

