-- ==== Sys2Proof/Machine/Fix.lean ====
section
/-! DEFINITION. Machine/Fix.lean: the real functions that the rules use, in fixed point: sines and arc tangents, and the
FLOAT32 of a fraction. Angles are in units of 2^-32 turn, values have 30 fraction bits (notes/assumptions/41.md). -/

namespace Sys2Proof.Machine.Fix

open Sys2Proof Sys2Proof.Machine

/-- One turn. -/
def turn : Int := 4294967296

/-- An angle wrapped to (−½, ½] turn. -/
def wrap (a : Int) : Int :=
  let r := a % turn
  if r ≤ 2147483648 then r else r - turn

/-- The product of two values with 40 fraction bits. -/
def mul40 (a b : Int) : Int := (a * b) / 1099511627776

/-- A power series in x2 with 40 fraction bits: each further term is the one before times −x2 / ((k+1)(k+2)). -/
def series : Nat → Int → Int → Int → Int → Int
  | 0, _, _, _, acc => acc
  | n + 1, k, x2, term, acc =>
    let t := -(mul40 term x2) / ((k + 1) * (k + 2))
    series n (k + 2) x2 t (acc + t)

/-- π/2 with 40 fraction bits. -/
def halfPi : Int := 1727108826179

/-- The sine and the cosine of r / 2^30 of a right angle, 40 fraction bits. -/
def quad (r : Int) : Int × Int :=
  let x := r * halfPi / 1073741824
  let x2 := mul40 x x
  (series 10 1 x2 x x, series 10 0 x2 1099511627776 1099511627776)

/-- The sine and the cosine of an angle, 30 fraction bits. -/
def sinCos (a : Int) : Int × Int :=
  let r := a % turn
  let (s, c) := quad (r % 1073741824)
  let s := (s + 512) / 1024
  let c := (c + 512) / 1024
  let q := r / 1073741824
  if q = 0 then (s, c) else if q = 1 then (c, -s) else if q = 2 then (-s, -c) else (-c, s)

/-- The arc tangent series in t, 40 fraction bits: t − t³/3 + t⁵/5 − … -/
def atanSeries : Nat → Int → Int → Int → Int → Int
  | 0, _, _, _, acc => acc
  | n + 1, k, t2, p, acc =>
    let p := -(mul40 p t2)
    atanSeries n (k + 2) t2 p (acc + p / (k + 2))

/-- The arc tangent of n / m for 0 ≤ n ≤ m, m positive, in units of 2^-32 turn. -/
def atan01 (n m : Int) : Int :=
  let t := n * 1099511627776 / m
  let big := decide (455427103140 < t)
  let t := if big then (t - 1099511627776) * 1099511627776 / (t + 1099511627776) else t
  let r := atanSeries 18 1 (mul40 t t) t t
  let r := if big then r + halfPi / 2 else r
  r * 1073741824 / halfPi

/-- The angle of the point (x, y), 0 at the origin, in (−½, ½] turn. -/
def atan2 (y x : Int) : Int :=
  let ax := Bits.absI x
  let ay := Bits.absI y
  if ax = 0 ∧ ay = 0 then 0
  else
    let a := if ay ≤ ax then atan01 ay ax else 1073741824 - atan01 ax ay
    let a := if x < 0 then 2147483648 - a else a
    wrap (if y < 0 then -a else a)

/-- The integer square root of a number that may be negative (then 0). -/
def sqrtI (x : Int) : Int := (Bits.isqrt x.toNat : Nat)

/-- The FLOAT32 of n / d, rounded to the nearest, ties to even; the range that the model uses needs no subnormal. -/
def float32Of (n : Int) (d : Nat) : Word :=
  let m := n.natAbs
  if m = 0 ∨ d = 0 then 0
  else
    let e0 : Int := (Nat.log2 m : Nat) - (Nat.log2 d : Nat)
    let scale := fun (e : Int) => if e ≤ 23 then (m * 2 ^ (23 - e).toNat, d) else (m, d * 2 ^ (e - 23).toNat)
    let (a, b) := scale e0
    let e := if a < b * 8388608 then e0 - 1 else e0
    let (a, b) := scale e
    let f := (Bits.roundEven a b).toNat
    let (f, e) := if f = 16777216 then (8388608, e + 1) else (f, e)
    let w := if e + 127 < 1 then 0 else if 254 < e + 127 then 0x7F800000 else (e + 127).toNat * 8388608 + (f - 8388608)
    BitVec.ofNat 32 (w + (if n < 0 then 2147483648 else 0))

/-- The integral part of a FLOAT32 scaled by 2^k, rounded half up; 0 where it is not finite. -/
def ofFloat (w : Word) (k : Nat) : Int :=
  match Bits.float32 w with
  | some (n, d) => Bits.roundUp (n * (2 ^ k : Nat)) d
  | none => 0

end Sys2Proof.Machine.Fix
end

