-- ==== Sys2Proof/Machine/Plant.lean ====
section
/-! DEFINITION. Machine/Plant.lean: power-plant awareness and phase-back (10 R296 to R319). Sections and islands are
numbered from 0 (B1), in state, points and event data. -/

namespace Sys2Proof.Machine

open Sys2Proof

/-! ### Fields and parts -/

/-- A section field (Table 10.5). -/
def Dev.secPar (d : Dev) (b o : Nat) : Nat := d.parN 0x1C (0x20 + 16 * b + o)
/-- A section. -/
def Dev.sect (d : Dev) (b : Nat) : Section := d.plant.sections.getD b {}
/-- A generator field. -/
def Dev.genPar (d : Dev) (g o : Nat) : Nat := d.parN 0x1C (0x100 + 8 * g + o)
/-- A generator. -/
def Dev.gen (d : Dev) (g : Nat) : Gen := d.plant.gens.getD g {}
/-- A thruster field (Table 7.14). -/
def Dev.thrPar (d : Dev) (j o : Nat) : Nat := d.parN 0x11 (0x20 + 32 * j + o)
/-- A thruster under the phase-back loop. -/
def Dev.pbThr (d : Dev) (j : Nat) : PbThr := d.plant.thr.getD j {}
/-- An island by its lowest section. -/
def Dev.pisl (d : Dev) (i : Nat) : PIsland := d.plant.islands.getD i {}
/-- The sections in use. -/
def Dev.sectsUsed (d : Dev) : List Nat := (Bits.upTo 8).filter (fun b => d.secPar b 0 == 1)
/-- The thrusters that are present, ascending. -/
def Dev.thrsPresent (d : Dev) : List Nat := (Bits.upTo 24).filter (fun j => d.thrPar j 0 != 0)
/-- The thrusters on a section: BUS is the section's number from 1. -/
def Dev.thrsOn (d : Dev) (b : Nat) : List Nat := d.thrsPresent.filter (fun j => d.thrPar j 6 == b + 1)
/-- The generators on a section. -/
def Dev.gensOn (d : Dev) (b : Nat) : List Nat := (Bits.upTo 16).filter (fun g => d.genPar g 0 == b + 1)

/-- A section changed. -/
def Dev.modSect (b : Nat) (f : Section → Section) (d : Dev) : Dev :=
  { d with plant := { d.plant with sections := Bits.modAt d.plant.sections b f } }
/-- A generator changed. -/
def Dev.modGen (g : Nat) (f : Gen → Gen) (d : Dev) : Dev :=
  { d with plant := { d.plant with gens := Bits.modAt d.plant.gens g f } }
/-- An island changed. -/
def Dev.modIsl (i : Nat) (f : PIsland → PIsland) (d : Dev) : Dev :=
  { d with plant := { d.plant with islands := Bits.modAt d.plant.islands i f } }
/-- A thruster changed. -/
def Dev.modPb (j : Nat) (f : PbThr → PbThr) (d : Dev) : Dev :=
  { d with plant := { d.plant with thr := Bits.modAt d.plant.thr j f } }

/-- Sections of an island. -/
def PIsland.sects (x : PIsland) : List Nat := Bits.maskBits 8 x.members.toNat
/-- The islands that have sections. -/
def Dev.islandsNow (d : Dev) : List Nat := (Bits.upTo 8).filter (fun i => (d.pisl i).members != 0)
/-- The thrusters of an island. -/
def Dev.islThrs (d : Dev) (i : Nat) : List Nat :=
  d.thrsPresent.filter (fun j => (d.pisl i).sects.contains (d.thrPar j 6 - 1))
/-- The generators of an island. -/
def Dev.islGens (d : Dev) (i : Nat) : List Nat := (d.pisl i).sects.flatMap d.gensOn

/-! ### Power points (R304, R305) -/

/-- The number a power or feedback point holds; none where its type is not one of R305 or it is not a number. -/
def Point.number (p : Point) : Option (Int × Nat) :=
  let w : Word := BitVec.ofNat 32 p.value.toNat
  let n := (p.value >>> 32).toNat % 32
  match p.typ.toNat with
  | 2 => some (w.toInt, 1)
  | 3 => some (w.toNat, 1)
  | 4 => some (w.toInt, 2 ^ n)
  | 5 => Bits.float32 w
  | _ => none

/-- A power in 0.001 kW, halves up (R305). -/
def Point.power (p : Point) : Option Int := p.number.map (fun x => Bits.roundUp (x.1 * 1000) x.2)

/-- A GOOD power point's value. -/
def Point.goodPower (p : Point) : Option Int := if p.quality = 0 then p.power else none

/-- K × x^1.5 rounded to the nearest, halves up, for x = n / m. -/
def pow15 (k n m : Nat) : Nat := (Bits.isqrt (4 * (k * k) * (n * n * n) / (m * m * m)) + 1) / 2

/-- The thruster power p_j in 0.001 kW from the points that `rd` reads (R304). -/
def Dev.thrPower (d : Dev) (rd : Nat → Point) (j : Nat) : Int :=
  let k := 1000 * d.thrPar j 5
  let fmax := d.thrPar j 3
  let w := d.parN 0x1C (0x202 + 4 * j)
  let fb := d.thrPar j 0xE
  match (if w = 0 then none else (rd w).goodPower) with
  | some p => if p < 0 then 0 else p
  | none =>
    match (if fb = 0 ∨ (rd (fb + 2)).quality ≠ 0 then none else (rd (fb + 2)).number) with
    | some (n, m) => if fmax = 0 then 0 else (pow15 k (10 * n.natAbs) (m * fmax) : Nat)
    | none => (pow15 k (d.engine.setpoints.getD j {}).thrust.natAbs 32768 : Nat)

/-- The thrusters in the solve, from the snapshot (R207). -/
def Dev.solveSet (d : Dev) : List Nat :=
  d.thrsPresent.filter (fun j =>
    let fb := d.thrPar j 0xE
    let a := d.snapPt fb
    d.thrPar j 0xF == 1 && !(d.thr j).unavailable && a.quality != 3 && !(a.value.toNat % 2 ^ 32 == 0))

/-- P_norm of a section: the rated power of its thrusters in the solve, kW (R214). -/
def Dev.pNorm (d : Dev) (b : Nat) : Nat :=
  ((d.thrsOn b).filter (fun j => d.solveSet.contains j)).foldl (fun a j => a + d.thrPar j 5) 0

/-! ### Sums of an island at the last tick (R306), 0.001 kW -/

/-- The online capacity of generators. -/
def Dev.capOn (d : Dev) (gs : List Nat) : Int :=
  Bits.sumI ((gs.filter (fun g => (d.gen g).closed)).map (fun g => (d.gen g).avail))

/-- The non-thruster load of generators and thrusters. -/
def Dev.loadOn (d : Dev) (gs ts : List Nat) : Int :=
  let x := Bits.sumI ((gs.filter (fun g => (d.gen g).closed)).map (fun g => (d.gen g).p)) -
    Bits.sumI (ts.map (fun j => (d.pbThr j).p))
  if x < 0 then 0 else x

/-- P_entry,I: the entry powers of the island's thrusters (R309, R313). -/
def Dev.entryOf (d : Dev) (i : Nat) : Int := Bits.sumI ((d.islThrs i).map (fun j => (d.pbThr j).entry))

/-- The lesser of two fractions. -/
def fracMin (a b : Int × Nat) : Int × Nat := if fracLt a b then a else b

/-- The greater of two fractions. -/
def fracMax (a b : Nat × Nat) : Nat × Nat := if a.1 * b.2 < b.1 * a.2 then b else a

/-! ### Generator data (R303) -/

/-- The three points of a generator: field offset and whether the type is allowed (R305). -/
def genPointOk (k : Nat) (p : Point) : Bool :=
  p.quality == 0 && (if k = 0 then p.typ == 1 else p.power.isSome)

/-- A point whose type is set and not allowed is reported once while that type stands (R305); `told` where the 0A05h of its
island has just been raised for it (R303). -/
def Dev.refuseType (k : Nat) (bad told : Bool) (isl gen : Nat) (d : Dev) : Dev :=
  if bad then
    if d.plant.refused.contains k then d
    else
      let d := { d with plant := { d.plant with refused := k :: d.plant.refused } }
      if told then d else d.raiseI 0x0A05 1 isl (Bits.le 1 isl ++ Bits.le 1 gen)
  else { d with plant := { d.plant with refused := d.plant.refused.filter (fun x => x != k) } }

/-- The type of a power point is set and not allowed. -/
def wrongPower (p : Point) : Bool := p.typ != 0 && (p.typ == 1 || decide (5 < p.typ.toNat))

/-- One generator's points are read; its held values move with the GOOD ones. -/
def Dev.genRead (rd : Nat → Point) (d : Dev) (g : Nat) : Dev :=
  let b := d.genPar g 0
  if b = 0 then d
  else
    let isl := (d.sect (b - 1)).island
    let pb := rd (d.genPar g 2)
    let pp := rd (d.genPar g 3)
    let pa := if d.genPar g 4 = 0 then none else some (rd (d.genPar g 4))
    let okA := match pa with | some p => genPointOk 2 p | none => true
    let x := d.gen g
    let since := fun (k : Nat) (ok : Bool) =>
      if ok then none else match x.bad.getD k none with | some t => some t | none => some d.time.now
    let firstBad := (d.islGens isl).all (fun y => (d.gen y).bad.all Option.isNone)
    let bad := [since 0 (genPointOk 0 pb), since 1 (genPointOk 1 pp), since 2 okA]
    let d := d.modGen g (fun x => { x with
      brkNow := if genPointOk 0 pb then pb.value.getLsbD 0 else x.brkNow
      pNow := if pp.quality = 0 then (pp.power.getD x.pNow) else x.pNow
      availNow := match pa with
        | none => 1000 * (d.genPar g 1 : Int)
        | some p => (match p.goodPower with | some v => (if v < 0 then 0 else v) | none => x.availNow)
      bad := bad })
    let told := firstBad && bad.any Option.isSome
    let d := if told then d.raiseI 0x0A05 1 isl (Bits.le 1 isl ++ Bits.le 1 g) else d
    let d := d.refuseType (3 * g) (pb.typ != 0 && pb.typ != 1) told isl g
    let d := d.refuseType (3 * g + 1) (wrongPower pp) told isl g
    d.refuseType (3 * g + 2) (match pa with | some p => wrongPower p | none => false) told isl g

/-- Fallback ends when every generator point of the island is GOOD again (R303). -/
def Dev.fallbackEnds (d : Dev) (i : Nat) : Dev :=
  if (d.pisl i).fallback && (d.islGens i).all (fun g => (d.gen g).bad.all Option.isNone) then
    (d.modIsl i (fun x => { x with fallback := false })).endFault 0x0A06 i
  else d

/-- PMS_FALLBACK (R303): a generator point has not been GOOD for PMS_HOLD. -/
def Dev.pmsFallback (i : Nat) (d : Dev) : Dev :=
  let hold := 1000000 * d.parN 0x1C 0xD
  if d.plant.running && (d.pisl i).members != 0 && !(d.pisl i).fallback &&
      (d.islGens i).any (fun g => (d.gen g).bad.any (fun t => match t with | some t0 => decide (hold ≤ d.time.now - t0) | none => false)) then
    (d.modIsl i (fun x => { x with fallback := true })).raiseI 0x0A06 2 i (Bits.le 1 i)
  else d

/-! ### Available power at the tick (R306, R307) -/

/-- H_I as a fraction of 0.001 kW (R306). -/
def Dev.headroom (d : Dev) (i : Nat) : Int × Nat :=
  let x := d.pisl i
  let gs := d.islGens i
  let ts := d.islThrs i
  let reserve := Bits.sumI (x.sects.map (fun b => 1000 * (d.secPar b 7 : Int)))
  let h := d.capOn gs - d.loadOn gs ts - reserve
  let h : Int × Nat := (if x.fallback then Bits.sumI (ts.map (fun j => (d.pbThr j).p)) else if h < 0 then 0 else h, 1)
  if x.state = .phaseBack then fracMin h (((x.shed.2 : Int) - (x.shed.1 : Int)) * d.entryOf i, x.shed.2) else h

/-- The rated power of a section's thrusters, kW. -/
def Dev.ratedOn (d : Dev) (b : Nat) : Nat := (d.thrsOn b).foldl (fun a j => a + d.thrPar j 5) 0

/-- P_avail,b (R307); a section not in use gives its rated power, and where P_norm is 0 over the island the value is free
(notes/assumptions/42.md). -/
def Dev.availOf (d : Dev) (b : Nat) : Nat :=
  let s := d.sect b
  if !d.plant.running || d.secPar b 0 != 1 then d.ratedOn b
  else if (s.cls = .dead ∨ s.cls = .unknown) ∧ (d.gensOn b).all (fun g => !(d.gen g).closed) then 0
  else
    let i := s.island
    let total := (d.pisl i).sects.foldl (fun a c => a + d.pNorm c) 0
    let h := (d.pisl i).avail
    if total = 0 then (Config.plantOpen d.free).toNat else (Bits.roundUp (h.1 * (d.pNorm b : Int)) (1000 * h.2 * total)).toNat

/-! ### Waveforms (R299 to R301) -/

/-- The sums of one least-squares fit. -/
structure FitSum where
  cc : Int := 0
  cs : Int := 0
  ss : Int := 0
  vc : Int := 0
  vs : Int := 0
deriving DecidableEq, Repr

/-- A phasor fit of R299 over samples, newest first: (a, b) with the samples' scale; τ and f_L are those of the newest. -/
def phasorFit (l : List RsOut) : Int × Int :=
  match l with
  | [] => (0, 0)
  | n :: _ =>
    let s := l.foldl (fun (s : FitSum) (o : RsOut) =>
      let (sn, c) := Fix.sinCos ((o.instant - n.instant) * (n.mhz : Int) * Fix.turn / 1000000000000)
      { cc := s.cc + c * c, cs := s.cs + c * sn, ss := s.ss + sn * sn, vc := s.vc + o.value * c, vs := s.vs + o.value * sn }) {}
    let det := s.cc * s.ss - s.cs * s.cs
    if det = 0 then (0, 0)
    else ((s.vc * s.ss - s.vs * s.cs) * 1073741824 / det, (s.vs * s.cc - s.vc * s.cs) * 1073741824 / det)

/-- The phase φ of a fit, 2^-32 turn. -/
def fitPhase (f : Int × Int) : Int := Fix.atan2 (-f.2) f.1

/-- The RMS of a fit in 2^-8 of its unit for a full scale in 0.1 units as peak value. -/
def fitRms (f : Int × Int) (scale : Nat) : Int :=
  let x := (f.1 * f.1 + f.2 * f.2).toNat * (scale * scale) * 65536 / (200 * 2 ^ 62)
  ((Bits.isqrt (4 * x) + 1) / 2 : Nat)

/-- The samples of a resampler that a boundary may use, newest first. -/
def Dev.plantSamples (d : Dev) (u : Nat) (s : Nat) : List RsOut :=
  let lim := (s : Int) - (d.stampOffset (d.rsChain u) + 250000)
  (d.rs u).samples.dropWhile (fun o => decide (lim < o.instant))

/-- A free value where R300 gives none yet. -/
def Dev.plantFree (d : Dev) : Int × Dev := (Config.plantOpen d.free, d.fresh)

/-- The measurements of one section at a boundary (R300, R301). -/
def Dev.measure (b : Nat) (vs : List RsOut) (d : Dev) : Dev :=
  match vs with
  | [] => d.modSect b (fun x => { x with psi := [], freq := [] })
  | n :: _ =>
    let x := d.sect b
    let fn : Int := d.parI 0x1C 2
    let win := d.parN 0x1C 0xF
    let fc := phasorFit (vs.take 256)
    let ff := phasorFit (vs.take win)
    let phc := fitPhase fc
    let psi := Fix.wrap (phc - fn * n.instant % 1000000000 * Fix.turn / 1000000000)
    let (free, d) := d.plantFree
    let f := match x.psi[9]? with
      | some (p, t) =>
        if n.instant = t then free
        else fn * 16777216 + Fix.wrap (psi - p) * 1000000000 / (256 * (n.instant - t))
      | none => free
    let (free, d) := d.plantFree
    let rocof := match x.freq[19]? with | some g => (f - g) * 50 | none => free
    let fl : Int := (n.mhz : Int) * 16777216 / 1000
    let drift := if fl = 0 then 0 else (f - fl) * (256 - (win : Int)) * Fix.turn / (512 * fl)
    let delta := Fix.wrap (fitPhase ff - phc - drift)
    let v := fitRms fc (d.secPar b 3)
    let cur := d.secPar b 2
    let hasI := cur != 0xFF
    let is := if hasI then (d.plantSamples cur d.frame.subAt).take 256 else []
    let fi := phasorFit is
    let i := fitRms fi (d.secPar b 4)
    let curQ := if is.isEmpty then 3 else is.foldl (fun a o => worseQ a o.quality) 0
    let (sn, cs) := Fix.sinCos (phc - fitPhase fi - d.parI 0x1C (0x25 + 16 * b) * Fix.turn / 36000)
    let kw := fun (c : Int) => Bits.roundUp (3 * v * i * c) (1000 * 2 ^ 46)
    d.modSect b (fun x => { x with
      psi := ((psi, n.instant) :: x.psi).take 11, freq := (f :: x.freq).take 21, rocof := rocof, delta := delta,
      vrms := v, irms := i, p := kw cs, qv := kw sn, hasI := hasI && !is.isEmpty, curQ := curQ, stamp := n.instant })

/-! ### Classes (R297, R302) -/

/-- The class of a section from its newest samples and its RMS voltage. -/
def Dev.classify (d : Dev) (b : Nat) (vs : List RsOut) : SecCls :=
  match vs with
  | [] => .unknown
  | n :: _ =>
    let lag := d.stampOffset (d.rsChain (d.secPar b 1)) + 250000
    if n.quality = 3 ∨ 50000000 ≤ (d.frame.subAt : Int) - n.instant - lag then .unknown
    else if n.quality = 4 then .settling
    else if n.quality = 2 ∨ (d.sect b).vrms * 100 < (d.parN 0x1C 0xE * d.secPar b 6 * 256 : Nat) then .dead
    else .live

/-- SECTION_CLASSIFY of one section: its measurements, class, quality and events. -/
def Dev.sectionStep (d : Dev) (b : Nat) : Dev :=
  let vs := (d.plantSamples (d.secPar b 1) d.frame.subAt).take 256
  let old := d.sect b
  let d := d.measure b vs
  let cls := d.classify b vs
  let used := vs.foldl (fun a o => worseQ a o.quality) 0
  let good := match vs with | n :: _ => n.quality == 0 | [] => false
  let run := if cls = .settling then 0 else if old.goodRun < 10 then (if good then old.goodRun + 1 else 0) else old.goodRun
  let q := if cls = .unknown then 3 else
    worseQ (worseQ (if run < 10 then 4 else 0) (if cls = .dead then 2 else 0)) used
  let died := decide (cls = .dead) && decide (old.cls ≠ .dead)
  let lives := decide (cls = .live) && old.deadRaised
  let d := d.modSect b (fun x => { x with
    cls := cls, goodRun := run, quality := q,
    deadAt := if died && !old.deadRaised then d.time.now else x.deadAt, deadRaised := (old.deadRaised || died) && !lives })
  let d := if died then d.raiseI 0x0A07 1 b (Bits.le 1 b) else d
  if lives then d.raiseI 0x0A08 0 b (Bits.le 1 b ++ Bits.le 4 ((d.time.now - old.deadAt) / 1000000)) else d

/-! ### Islands (R298, R313) -/

/-- The ties that join two sections in use; a tie whose point is not a GOOD BOOL is taken as closed. -/
def Dev.closedTies (d : Dev) : List (Nat × Nat) :=
  (Bits.upTo 8).filterMap (fun t =>
    let w := d.parN 0x1C (0xA0 + 4 * t)
    let p := d.pt (d.parN 0x1C (0xA1 + 4 * t))
    if w = 0 then none
    else if p.quality = 0 ∧ p.typ = 1 ∧ p.value.getLsbD 0 = false then none
    else some (w % 16 - 1, w / 16 % 16 - 1))

/-- The lowest section of each section's island: labels are lowered along closed ties, eight rounds at most. -/
def labelIslands (ties : List (Nat × Nat)) : Nat → List Nat → List Nat
  | 0, l => l
  | k + 1, l =>
    labelIslands ties k (ties.foldl (fun (l : List Nat) e =>
      let m := Nat.min (l.getD e.1 8) (l.getD e.2 8)
      Bits.setAt (Bits.setAt l e.1 m) e.2 m) l)

/-- The rank of a state (R313). -/
def PbState.rank : PbState → Nat
  | .phaseBack => 2 | .releasing => 1 | .normal => 0

/-- The island formed from parts of old islands (R313). -/
def mergeIsland (members : BitVec 8) (parts : List PIsland) : PIsland :=
  match parts with
  | [] => { members := members }
  | p :: ps =>
    let x := ps.foldl (fun (a : PIsland) (b : PIsland) =>
      let hi := if a.state.rank < b.state.rank then b else a
      { hi with step := fracMax a.step b.step, shed := fracMax a.shed b.shed, fallback := a.fallback || b.fallback,
                since := if a.state.rank = b.state.rank then Nat.min a.since b.since else hi.since,
                hold := if a.state.rank = b.state.rank then
                    (match a.hold, b.hold with | some s, some t => some (Nat.max s t) | _, _ => none) else hi.hold }) p
    { x with members := members }

/-- The magnitude of the latest output of a thruster's speed and pitch loops (R309); full scale where it names neither. -/
def Dev.outputMag (d : Dev) (j : Nat) : Nat :=
  let m := fun (k : Nat) => if d.thrCmd j k = 255 then none else some (d.loop (d.thrCmd j k)).u.natAbs
  match m 1, m 2 with
  | some a, some b => Nat.max a b
  | some a, none => a
  | none, some b => b
  | none, none => 32767

/-- PMS fallback follows the islands: it ends under a number that no longer has it and begins under one that has it anew. -/
def Dev.fallbackMoves (old : List PIsland) (d : Dev) : Dev :=
  (Bits.upTo 8).foldl (fun x i =>
    let was := (old.getD i {}).fallback
    let now := (x.pisl i).fallback
    if was && !now then x.endFault 0x0A06 i else if now && !was then x.raiseI 0x0A06 2 i (Bits.le 1 i) else x) d

/-- ISLAND_FORMATION at a boundary. The byte of 0A09h for a section not in use is free (notes/assumptions/42.md). -/
def Dev.formIslands (d : Dev) : Dev :=
  let used := d.sectsUsed
  let l := labelIslands (d.closedTies.filter (fun e => used.contains e.1 && used.contains e.2)) 8 (Bits.upTo 8)
  let mask := fun (i : Nat) => BitVec.ofNat 8 (Bits.bitsOf (used.filter (fun b => l.getD b 8 == i)))
  let masks := (Bits.upTo 8).map mask
  let same := masks == d.plant.islands.map PIsland.members
  let d := (Bits.upTo 8).foldl (fun x t =>
    let w := x.parN 0x1C (0xA0 + 4 * t)
    let p := x.pt (x.parN 0x1C (0xA1 + 4 * t))
    if w = 0 then x else x.refuseType (64 + t) (p.typ != 0 && p.typ != 1) false (x.sect (w % 16 - 1)).island 0) d
  if same then { d with plant := { d.plant with formed := true } }
  else
    let old := d.plant.islands
    let islands := masks.map (fun (m : BitVec 8) => if m = 0 then ({} : PIsland)
      else mergeIsland m (old.filter (fun (p : PIsland) => p.members &&& m != 0)))
    let wasNormal := fun (j : Nat) => old.all (fun (p : PIsland) => !(p.sects.contains (d.thrPar j 6 - 1)) || p.state == .normal)
    let d1 := { d with plant := { d.plant with
      islands := islands, sections := (Bits.upTo 8).map (fun b => { d.sect b with island := l.getD b 8 }) } }
    let d2 := d1.thrsPresent.foldl (fun x j =>
      if wasNormal j && (islands.any (fun (p : PIsland) => p.sects.contains (d.thrPar j 6 - 1) && p.state != .normal)) then
        x.modPb j (fun t => { t with u := d.outputMag j, entry := 0 }) else x) d1
    let d2 := d2.fallbackMoves old
    if d.plant.formed then
      let v := BitVec.ofInt 8 (Config.plantOpen d2.free)
      d2.fresh.raise 0x0A09 0 ((Bits.upTo 8).map (fun b => if used.contains b then BitVec.ofNat 8 (l.getD b 8) else v))
    else { d2 with plant := { d2.plant with formed := true } }

/-- P_AVAIL_HANDOVER at a tick, from the snapshot (R306, R307). -/
def Dev.plantTick (d : Dev) : Dev :=
  let d := if !d.plant.running then d
    else
      let d := if d.plant.formed then d else d.formIslands
      let d := (Bits.upTo 16).foldl (fun x g => x.genRead x.snapPt g) d
      let d := { d with plant := { d.plant with
        gens := d.plant.gens.map (fun (g : Gen) => { g with closed := g.brkNow, p := g.pNow, avail := g.availNow }) } }
      let d := d.thrsPresent.foldl (fun x j => x.modPb j (fun t => { t with p := d.thrPower d.snapPt j })) d
      d.islandsNow.foldl (fun x i => x.modIsl i (fun y => { y with avail := d.headroom i })) d
  let a := (Bits.upTo 8).map d.availOf
  ({ d with plant := { d.plant with avail := a }, solver := { d.solver with avail := a } } : Dev).fresh

/-! ### Causes (R308, Table 10.1) -/

/-- Causes 1, 2 and 4 on one section. -/
def Dev.sectionCauses (d : Dev) (b : Nat) : List PbCause :=
  let x := d.sect b
  let f := x.freq.headD 0
  if x.cls = .live ∧ x.quality = 0 then
    (if x.delta * 36000 ≤ -((d.parN 0x1C 3 : Nat) : Int) * Fix.turn then [⟨x.island, 1, b⟩] else []) ++
    (if x.rocof * 100 ≤ -((d.parN 0x1C 4 : Nat) : Int) * 16777216 then [⟨x.island, 2, b⟩] else []) ++
    (if f * 10000 < ((d.parN 0x1C 5 * d.parN 0x1C 2 : Nat) : Int) * 16777216 then [⟨x.island, 4, b⟩] else [])
  else []

/-- What the boundary has seen of the generators, for the next one. -/
def Gen.seen (g : Gen) : Gen := { g with brkSeen := g.brkNow && (g.bad.getD 0 none).isNone, availSeen := if g.brkNow then g.availNow else g.availSeen }

/-- The generators as this boundary has seen them. -/
def Dev.gensSeen (d : Dev) : Dev := { d with plant := { d.plant with gens := d.plant.gens.map Gen.seen } }

/-- SECTION_CLASSIFY, ISLAND_FORMATION and PHASE_BACK_JUDGE at s+0. -/
def Dev.plantJudge (d : Dev) : Dev × PbSeen :=
  if !d.plant.running then (d, {})
  else
    let d := d.sectsUsed.foldl Dev.sectionStep d
    let d := d.formIslands
    let before := d.plant.gens
    let d := (Bits.upTo 16).foldl (fun x g => x.genRead x.pt g) d
    let d := d.islandsNow.foldl Dev.fallbackEnds d
    let opened := (Bits.upTo 16).filter (fun g => d.genPar g 0 != 0 && (before.getD g {}).brkSeen && !(d.gen g).brkNow)
    let d := d.gensSeen
    let c3 := opened.filterMap (fun g =>
      let b := d.genPar g 0 - 1
      let x := d.sect b
      if x.cls = .live ∧ x.quality = 0 ∧ !(d.pisl x.island).fallback then some (⟨x.island, 3, b⟩ : PbCause) else none)
    (d, { causes := d.sectsUsed.flatMap d.sectionCauses ++ c3, opened := opened })

/-! ### Phase-back at s+0.25 (R309 to R312) -/

/-- s_step of a breaker opening (R309): Cap_I of the last tick less the generators that have opened since, with their values
held from before. -/
def Dev.stepOf3 (d : Dev) (i : Nat) : (Nat × Nat) × Dev :=
  let gs := d.islGens i
  let cap := d.capOn gs -
    Bits.sumI ((gs.filter (fun g => (d.gen g).closed && !(d.gen g).brkNow)).map (fun g => (d.gen g).availSeen))
  let e := d.entryOf i
  let num := 100 * e - (cap - d.loadOn gs (d.islThrs i)) * (100 - d.parI 0x1C 0xA)
  if e ≤ 0 then
    let (v, d) := d.plantFree
    (((Bits.clampI 0 65536 v).toNat, 65536), d)
  else (((Bits.clampI 0 (100 * e) num).toNat, (100 * e).toNat), d)

/-- A fraction in 0.1 %, halves up. -/
def permille (f : Nat × Nat) : Nat := if f.2 = 0 then 0 else (2000 * f.1 + f.2) / (2 * f.2)

/-- s_F (R310): nothing where no section of the island is LIVE. -/
def Dev.shedF (d : Dev) (i : Nat) : Nat × Nat :=
  let fs := ((d.pisl i).sects.filter (fun b => (d.sect b).cls == .live)).map (fun b => (d.sect b).freq.headD 0)
  match fs with
  | [] => (0, 1)
  | f :: r =>
    let fmin := r.foldl (fun a b => if b < a then b else a) f
    let nom : Int := (d.parN 0x1C 2 : Nat) * 16777216
    let den := (d.parI 0x1C 5 - d.parI 0x1C 6) * nom
    let num := d.parI 0x1C 5 * nom - 10000 * fmin
    if den ≤ 0 then (0, 1) else ((Bits.clampI 0 den num).toNat, den.toNat)

/-- U × (1 − s)^(1/e) to the nearest, halves up, exactly (R310). -/
def pbValue (u : Nat) (s : Nat × Nat) (exp : Nat) : Nat :=
  let r := s.2 - s.1
  let m := if s.2 = 0 then 2 * u
    else if exp = 0 then 2 * u * r / s.2
    else if exp = 1 then Bits.icbrt (8 * (u * u * u) * (r * r) / (s.2 * s.2))
    else if exp = 2 then Bits.isqrt (4 * (u * u) * r / s.2)
    else Bits.icbrt (8 * (u * u * u) * r / s.2)
  (m + 1) / 2

/-- PB_j of a thruster on an island in PHASE_BACK. -/
def Dev.pbOf (d : Dev) (i j : Nat) : Nat :=
  if d.parN 0x1C (0x200 + 4 * j) != 1 then 32767
  else
    let floor := (2 * d.parN 0x1C (0x203 + 4 * j) * 32767 + 100) / 200
    Nat.max floor (pbValue (d.pbThr j).u (d.pisl i).shed (d.parN 0x1C (0x201 + 4 * j)))

/-- The frequency and RoCoF of every LIVE section of an island allow its release; one must be LIVE (R312). -/
def Dev.mayRelease (d : Dev) (i : Nat) : Bool :=
  let l := (d.pisl i).sects.filter (fun b => (d.sect b).cls == .live)
  !l.isEmpty && l.all (fun b => decide (((d.parN 0x1C 7 * d.parN 0x1C 2 : Nat) : Int) * 16777216 ≤ (d.sect b).freq.headD 0 * 10000) &&
    decide (0 ≤ (d.sect b).rocof))

/-- An island enters PHASE_BACK (R308, R309). -/
def Dev.pbEnter (i : Nat) (cs : List PbCause) (opened : Bool) (d : Dev) : Dev :=
  let code := cs.foldl (fun a c => Nat.min a c.code) 9
  let sect := ((cs.find? (fun c => c.code == code)).map PbCause.sect).getD 0
  let d := (d.islThrs i).foldl (fun x j => x.modPb j (fun t => { t with u := x.outputMag j, entry := x.thrPower x.pt j })) d
  let quick := cs.any (fun c => c.code == 1 || c.code == 2)
  let (step, d) := if cs.any (fun c => c.code == 3) || (quick && opened) then d.stepOf3 i
    else if quick then ((d.parN 0x1C 0xB, 100), d) else ((0, 1), d)
  let d := d.modIsl i (fun x => { x with
    state := .phaseBack, step := step, since := d.time.now, hold := none, cause := code,
    shed := fracMax step (d.shedF i) })
  d.raiseI 0x0A01 1 i (Bits.le 1 i ++ Bits.le 1 sect ++ Bits.le 1 code ++ Bits.le 2 (permille (d.pisl i).shed))

/-- One island at s+0.25; the flag says that it entered PHASE_BACK. -/
def Dev.pbIsland (seen : PbSeen) (i : Nat) (d : Dev) : Bool × Dev :=
  let x := d.pisl i
  let cs := seen.causes.filter (fun c => c.island == i)
  let opened := !x.fallback && seen.opened.any (fun g => (d.islGens i).contains g)
  let enters := decide (x.state ≠ .phaseBack) && !cs.isEmpty
  let d := if enters then d.pbEnter i cs opened
    else if x.state = .phaseBack ∧ opened then
      let (s, d) := d.stepOf3 i
      if x.step.1 * s.2 < s.1 * x.step.2 then
        (d.modIsl i (fun y => { y with step := s })).raiseI 0x0A02 0 i (Bits.le 1 i ++ Bits.le 2 (permille s))
      else d
    else d
  let x := d.pisl i
  let d := if x.state = .phaseBack then
      let d := d.modIsl i (fun y => { y with
        shed := fracMax y.step (d.shedF i),
        hold := if d.mayRelease i then (match y.hold with | some t => some t | none => some d.time.now) else none })
      let keeps := fun (j : Nat) => !enters && (d.sect (d.thrPar j 6 - 1)).cls == .dead
      ((d.islThrs i).filter (fun j => !(keeps j))).foldl (fun z j => z.modPb j (fun t => { t with pb := d.pbOf i j })) d
    else if x.state = .releasing then
      let rise := (d.parN 0x1C 9 * 32767 + 99999) / 100000
      let d := (d.islThrs i).foldl (fun z j => z.modPb j (fun t => { t with pb := Nat.min 32767 (t.pb + rise) })) d
      if (d.islThrs i).all (fun j => (d.pbThr j).pb == 32767) then
        let d := (d.islThrs i).foldl (fun z j => z.modPb j (fun t => { t with entry := 0 })) d
        (d.modIsl i (fun y => { y with state := .normal, step := (0, 1), shed := (0, 1), hold := none })).raiseI
          0x0A04 0 i (Bits.le 1 i)
      else d
    else (d.islThrs i).foldl (fun z j => z.modPb j (fun t => { t with pb := 32767 })) d
  (enters, d)

/-- RELEASE_HOLD_EXPIRY (R312). -/
def Dev.releaseHold (i : Nat) (d : Dev) : Dev :=
  let x := d.pisl i
  match x.hold with
  | some t =>
    if d.plant.running ∧ x.state = .phaseBack ∧ 1000000 * d.parN 0x1C 8 ≤ d.time.now - t then
      (d.modIsl i (fun y => { y with state := .releasing, hold := none })).raiseI 0x0A03 0 i
        (Bits.le 1 i ++ Bits.le 4 ((d.time.now - x.since) / 1000000))
    else d
  | none => d

/-! ### Points (R316) -/

/-- kW of 0.001 kW, halves up. -/
def kwOf (m : Int) : Int := Bits.roundUp m 1000

/-- The points of one section. -/
def Dev.sectionPoints (d : Dev) (b : Nat) : Dev :=
  let x := d.sect b
  let i := x.island
  let y := d.pisl i
  let k := 5120 + 16 * b
  let f := x.freq.headD 0
  let st := BitVec.ofInt 32 x.stamp
  let deg := fun (a : Int) => Bits.roundUp (a * 360) 1024
  let put := fun (o n : Nat) (v : Int) (q : Nat) (z : Dev) => z.post 10 (k + o) 4 (valFix n v) st q
  let qi := if x.hasI then worseQ x.quality x.curQ else 3
  let stale := (d.gensOn b).any (fun g => (d.gen g).bad.any Option.isSome)
  let low := decide (f * 10000 < ((d.parN 0x1C 5 * d.parN 0x1C 2 : Nat) : Int) * 16777216)
  let cls := match x.cls with | .live => 0 | .dead => 1 | .unknown => 2 | .settling => 3
  let status := cls + 16 * flagBits [stale, y.fallback, decide (y.state = .phaseBack), low]
  let d := put 0 24 f x.quality d
  let d := put 1 24 x.rocof x.quality d
  let d := put 2 8 x.vrms x.quality d
  let d := put 3 8 x.irms qi d
  let d := put 4 22 (deg (x.psi.headD (0, 0)).1) x.quality d
  let d := put 5 22 (deg x.delta) x.quality d
  let d := put 6 0 x.p qi d
  let d := put 7 0 x.qv qi d
  let d := put 8 0 (d.plant.avail.getD b 0 : Nat) x.quality d
  let d := put 9 0 (kwOf (d.capOn (d.gensOn b))) x.quality d
  let d := put 10 0 (kwOf (d.loadOn (d.gensOn b) (d.thrsOn b))) x.quality d
  let d := put 11 0 (kwOf (Bits.sumI ((d.thrsOn b).map (fun j => (d.pbThr j).p)))) x.quality d
  let d := d.post 10 (k + 12) 3 (val32 (BitVec.ofNat 32 i)) st x.quality
  d.post 10 (k + 13) 3 (val32 (BitVec.ofNat 32 status)) st x.quality

/-- The points of Table 10.4, written at s+0.25. -/
def Dev.plantPoints (d : Dev) : Dev :=
  let st := BitVec.ofNat 32 d.frame.subAt
  let d := d.sectsUsed.foldl Dev.sectionPoints d
  let d := (Bits.upTo 24).foldl (fun x j =>
    let p := if x.thrPar j 0 = 0 then 0 else x.thrPower x.pt j
    (x.postF 10 (5248 + j) 15 ((x.pbThr j).pb : Nat) st).postF 10 (5272 + j) 0 (kwOf p) st) d
  (Bits.upTo 8).foldl (fun x i =>
    let y := x.pisl i
    let k := 5296 + 4 * i
    let code := match y.state with | .normal => 0 | .phaseBack => 1 | .releasing => 2
    let x := x.postU 10 k (code + 256 * y.cause) st
    let x := x.postF 10 (k + 1) 16 (Bits.roundUp ((y.shed.1 : Int) * 65536) y.shed.2) st
    let x := x.postF 10 (k + 2) 0 (Bits.roundUp y.avail.1 (1000 * y.avail.2)) st
    x.postF 10 (k + 3) 0 (kwOf (x.entryOf i)) st) d

/-- PHASE_BACK at s+0.25 with the points; the thrusters of which a limit frame is due by R311. -/
def Dev.plantAct (seen : PbSeen) (d : Dev) : Dev × List Nat :=
  if !d.plant.running then (d, [])
  else
    let (d, entered) := d.islandsNow.foldl (fun (s : Dev × List Nat) i =>
      let (e, x) := s.1.pbIsland seen i
      (x, if e then i :: s.2 else s.2)) (d, [])
    let d := (Bits.upTo 24).foldl (fun x j =>
      let w := x.parN 0x1C (0x202 + 4 * j)
      if w = 0 ∨ x.thrPar j 0 = 0 then x
      else x.refuseType (96 + j) (wrongPower (x.pt w)) false (x.sect (x.thrPar j 6 - 1)).island 0) d
    let due := d.thrsPresent.filter (fun j =>
      entered.any (fun i => (d.islThrs i).contains j) ||
        decide ((d.pbThr j).pb + d.parN 0x1C 0xC < (d.pbThr j).carried))
    (d.plantPoints, due)

/-- PLANT_RUN takes effect at a tick: 0 sets every point BAD and every PB_j to 32767 (Table 10.5). -/
def Dev.plantApply (d : Dev) : Dev :=
  let run := d.life.running496 && d.life.state != .retired && d.parB 0x1C 1
  if run = d.plant.running then d
  else if run then { d with plant := { d.plant with running := true } }
  else
    let a := d.plant.avail
    (List.range' 5120 256).foldl (fun x i => if Bits.get (fun _ => ({} : Point)) x.image.live i = {} then x else x.degrade i 3)
      (Dev.fallbackMoves d.plant.islands { d with plant := { avail := a } })

end Sys2Proof.Machine
end

