-- ==== Sys2Proof/Machine/Thrust.lean ====
section
/-! DEFINITION. Machine/Thrust.lean: thruster commands on their way out: building, launch, limit frames, withdrawal and
confirmation (01 Table 1.1, 09 R286 to R289, 11 R345 and R346, 12 R361 to R367, 02 R76). -/

namespace Sys2Proof.Machine

open Sys2Proof

/-! ### The slots of Table 1.1 -/

/-- The slots that act once a frame, by bit of `frame.slots`. -/
inductive Slot where
  | sub0 | fusion | deadline | handoff | cutoff | launch | tail | refineFrom | refineTo
deriving DecidableEq, Repr

/-- The bit of a slot. -/
def slotBit : Slot → Nat
  | .sub0 => 0 | .fusion => 1 | .deadline => 2 | .handoff => 3 | .cutoff => 4 | .launch => 5 | .tail => 6
  | .refineFrom => 7 | .refineTo => 8

/-- The slot has not acted in this frame, and its offset from t0 has come. -/
def Dev.slotDue (d : Dev) (s : Slot) (offset : Nat) : Bool :=
  !(d.frame.slots.getLsbD (slotBit s)) && decide (d.frame.t0 + offset ≤ d.dev)

/-- The slot has acted. -/
def Dev.slotDone (s : Slot) (d : Dev) : Dev :=
  { d with frame := { d.frame with slots := d.frame.slots ||| BitVec.ofNat 16 (2 ^ slotBit s) } }

/-! ### Command frames on Ethernet (R345) -/

/-- The thruster is carried on Ethernet (THR_NET bit 7); its group. -/
def Dev.thrGroup (d : Dev) (j : Nat) : Option Nat :=
  let w := d.parN 0x20 (0x60 + j)
  if w.testBit 7 then some (w % 8) else none

/-- The thrusters of a destination group, ascending. -/
def Dev.groupThrs (d : Dev) (g : Nat) (l : List Nat) : List Nat := l.filter (fun j => d.thrGroup j == some g)

/-- A thruster command frame (Table 11.6). -/
def Dev.cmdFrame (d : Dev) (g due : Nat) (limit : Bool) (recs : List (List Byte)) : List Byte :=
  let h := Bits.le 2 0x5D1B ++ [0x01] ++ Bits.le 1 recs.length ++ Bits.le 4 d.frame.number ++ Bits.le 8 due ++
    Bits.le 2 (d.parN 0x20 1) ++ Bits.le 1 (flagBits [limit, d.timeValid]) ++ [0]
  let dst := Bits.le 4 (d.parN 0x20 (0x80 + 4 * g)) ++ Bits.le 2 (d.parN 0x20 (0x81 + 4 * g))
  d.ethWrap dst (d.parN 0x20 (0x82 + 4 * g)) 0x88B5 (h ++ Bits.le 4 (Bits.crc32c h).toNat ++ recs.flatten)

/-- One group's command frame is queued for its launch. -/
def Dev.queueGroup (due : Nat) (limit : Bool) (rec' : Nat → List Byte) (l : List Nat) (g : Nat) (d : Dev) : Dev :=
  let js := d.groupThrs g l
  if js.isEmpty then d
  else
    let q := d.parN 0x20 (0x83 + 4 * g) % 8
    (d.launchPush q { frame := d.cmdFrame g due limit (js.map rec'), due := due, port := d.parN 0x20 (0x50 + q),
                      thrusters := BitVec.ofNat 24 (Bits.bitsOf js), limit := limit }).2

/-- The thruster entries of queue q that are due leave it, in queue order. -/
def Dev.launchThr (q : Nat) (due : LaunchEnt → Bool) (d : Dev) : Dev :=
  ((d.net.launch.getD q []).filter (fun e => e.thrusters != 0 && due e)).foldl (fun x e => x.launchOne q e) d

/-! ### Building and launch (Table 1.1, R361, R365) -/

/-- COMMAND_QUEUE_CUTOFF at t0+15.8 ms: the records of the unit in control are built and queued; those not queued in time
get no command and are named in 0104h. -/
def Dev.cutoff (notQueued : BitVec 24) (d : Dev) : Dev :=
  if !d.leaseLive || !d.clasp.role.inControl then d
  else
    let all := d.thrsPresent
    let js := all.filter (fun j => !(notQueued.getLsbD j))
    let d := { d with frame := { d.frame with launched := true, queued := BitVec.ofNat 24 (Bits.bitsOf js) } }
    let d := js.foldl (fun x j => x.modThr j (fun t => { t with built := d.cmdRecord j })) d
    let due := d.frame.t0 + 16000000
    let d := (Bits.upTo 8).foldl (fun x g => x.queueGroup due false (fun j => (x.thr j).built) js g) d
    let lost := all.filter (fun j => notQueued.getLsbD j)
    if lost.isEmpty then d else d.raise 0x0104 1 (Bits.le 4 d.frame.number ++ Bits.le 3 (Bits.bitsOf lost))

/-- One thruster's record is launched: its buffers on every controller that carries it (R361, R365). -/
def Dev.launchRecord (d : Dev) (j : Nat) : Dev :=
  let r := (d.thr j).built
  let d := (d.thrCtrls j).foldl (fun x c => if x.canMode c ≠ 0 then (x.loadThr c j r false).noteRecord c j r else x) d
  let d := d.modPb j (fun p => { p with carried := Bits.at' r 18 2 })
  d.modThr j (fun t => { t with frame := d.frame.number, rcrc := Bits.wordAt r 20, sent := true })

/-- The launch of t0+16 ms: CAN records, then the thruster entries of the launch queues. -/
def Dev.launchThrusters (d : Dev) : Dev :=
  if !d.leaseLive then d
  else
  let d := (Bits.maskBits 24 d.frame.queued.toNat).foldl Dev.launchRecord d
  let d := { d with frame := { d.frame with queued := 0 } }
  (Bits.upTo 8).foldl (fun x q => x.launchThr q (fun e => decide (e.due ≤ x.dev))) d

/-! ### Limit frames (R287, R311, R362) -/

/-- A pending regular record rewritten in place: speed and pitch within ±PB, LIMIT and RCRC (R362). -/
def rewriteRecord (pb : Nat) (r : List Byte) : List Byte :=
  let lim := fun (o : Nat) => Bits.leI 2 (Bits.clampI (-(pb : Int)) pb (Bits.atI r o 2))
  let h := r.take 10 ++ lim 10 ++ (r.drop 12).take 2 ++ lim 14 ++ (r.drop 16).take 2 ++ Bits.le 2 pb
  h ++ Bits.le 4 (Bits.crc32c h).toNat

/-- A limit frame of thruster j on one controller (R362). -/
def Dev.limitOn (j : Nat) (d : Dev) (c : Nat) : Dev :=
  let b := (d.ctrl c).buf j
  if d.canMode c = 0 then d
  else if (b.state = .pending ∨ b.state = .blocked) ∧ !b.limit then
    let r := rewriteRecord (d.pbThr j).pb b.data
    (d.modCtrl c (fun k => k.setBuf j { b with data := r })).noteRecord c j r
  else d.loadThr c j (d.limitRecord j) true

/-- LIMIT_FRAME_LAUNCH at s+0.5 ms, by the unit in control while ENABLE is 1 (R286, R311). -/
def Dev.limitFrames (js : List Nat) (d : Dev) : Dev :=
  if js.isEmpty || !d.leaseLive || !d.clasp.role.inControl || !d.engine.running || d.solver.mode == .idle then d
  else
    let d := js.foldl (fun x j => (x.thrCtrls j).foldl (Dev.limitOn j) x) d
    let d := js.foldl (fun x j => x.modPb j (fun p => { p with carried := p.pb })) d
    let due := d.frame.subAt + 500000
    let d := (Bits.upTo 8).foldl (fun x g => x.queueGroup due true x.limitRecord js g) d
    (Bits.upTo 8).foldl (fun x q => x.launchThr q (fun e => e.limit)) d

/-! ### The tick: withdrawal and confirmation (R361, R367) -/

/-- A thruster's count after a frame; unavailable after CONFIRM_LIMIT frames without confirmation, and back after as many
with it (R367). -/
def ThrSt.judge (limit : Nat) (ok : Bool) (t : ThrSt) : ThrSt :=
  if ok then
    let t := { t with good := t.good + 1, unconfirmed := 0 }
    if limit ≤ t.good then { t with unavailable := false } else t
  else
    let t := { t with good := 0, unconfirmed := t.unconfirmed + 1 }
    if limit ≤ t.unconfirmed then { t with unavailable := true } else t

/-- CONFIRM_LIMIT (R76). -/
def Dev.confirmLimit (d : Dev) : Nat := d.parN 0x11 1

/-- Confirmed by CAN or by Ethernet in the frame that ends. -/
def Dev.confirmed (d : Dev) (j : Nat) : Bool :=
  d.net.ack.getLsbD j || d.can.ctrls.any (fun k => k.confirmed.getLsbD j)

/-- THRUSTER_CONFIRMATION and RECORD_WITHDRAWN at a tick, for the frame that ends. -/
def Dev.confirmTick (d : Dev) : Dev :=
  let d := (Bits.upTo 8).foldl (fun x c => x.withdrawRecords c) d
  let judged := d.frame.launched && d.clasp.role.inControl
  let js := if judged then d.thrsPresent else []
  let bad := js.filter (fun j => !(d.confirmed j))
  let d := js.foldl (fun x j => x.modThr j (ThrSt.judge d.confirmLimit (d.confirmed j))) d
  let d := if bad.isEmpty then d else d.raise 0x0C07 1 (Bits.le 4 d.frame.number ++ Bits.le 3 (Bits.bitsOf bad))
  let d := d.ackRoll
  { d with
    can := { d.can with ctrls := d.can.ctrls.map (fun k => { k with confirmedPrev := k.confirmed, confirmed := 0 }),
                        thr := d.can.thr.map (fun t => { t with sent := false, built := [] }) },
    frame := { d.frame with launched := false, queued := 0 } }

end Sys2Proof.Machine
end

