-- ==== Sys2Proof/Machine/Clasp.lean ====
section
/-! DEFINITION. Machine/Clasp.lean: roles, lanes, ownership lines, the lease, claims, return, feeds and the role record
(13). The contents of the mirror and of CONFIG_IMAGE are in Machine/Mirror.lean. -/

namespace Sys2Proof.Machine

open Sys2Proof

/-- This unit's identity, 0 A or 1 B, and preference, as latched (S19, S20). -/
def Dev.unitId (d : Dev) : Nat := Bits.b2n (d.island.bezel.getLsbD 18)
/-- PREFERRED as latched (S20). -/
def Dev.preferred (d : Dev) : Bool := d.island.bezel.getLsbD 19

/-- SERIAL of Table 2.10: fields SERIAL_W0 to SERIAL_W3. -/
def Dev.serial (d : Dev) : List Byte := (Bits.upTo 4).flatMap (fun i => Bits.le 4 (d.parN 1 (0x30 + i)))

/-- a comes after b in ASCII order. -/
def serialHigher : List Byte → List Byte → Bool
  | x :: xs, y :: ys => if x = y then serialHigher xs ys else decide (y.toNat < x.toNat)
  | _, _ => false

/-- The Clasp block changed. -/
def Dev.modClasp (f : ClaspSt → ClaspSt) (d : Dev) : Dev := { d with clasp := f d.clasp }

/-- LEASE_LEFT in µs. -/
def Dev.leaseLeft (d : Dev) : Nat := if d.clasp.lease then (d.clasp.leaseAt - d.time.now) / 1000 else 0

/-! ### Roles (R374, R375) -/

/-- The role changes; the change raises 0D01h. -/
def Dev.setRole (r : Role) (d : Dev) : Dev :=
  let o := d.clasp.role
  if o = r then d
  else (d.modClasp (fun c => { c with role := r, roleSince := d.frame.number })).raise 0x0D01 0
    (Bits.le 1 o.code ++ Bits.le 1 r.code ++ Bits.le 4 d.frame.number)

/-- The Hallmark of the last heartbeat was this unit’s own at that moment (R375, Table 13.5 cause 1). -/
def Dev.sameMark (d : Dev) : Bool := d.clasp.partner.isSome && d.clasp.markSame

/-- The role of a unit in control (R374, R375). -/
def Dev.controlRole (d : Dev) : Role :=
  if d.clasp.partnerHere && (d.clasp.role == .active || d.sameMark) then .active else .solo

/-- Control is taken: the lease is renewed and OWN_OUT asserted (R385), in IDLE where nobody's state is mirrored. -/
def Dev.takeLease (idle : Bool) (d : Dev) : Dev :=
  let d := d.modClasp (fun c => { c with
    lease := true, leaseAt := d.time.now + 60000000, ownOut := true, claimDue := false, waiting := false,
    released := false, releaseUntil := none, takeBack := none, returnReq := false, holdoffFrom := none,
    returnSuspended := false, suspSeen := false, orphan := false, orphanDue := false })
  { d with solver := { d.solver with
    mode := if idle then .idle else d.solver.mode, joyAt := d.time.now } }

/-- A claim (R385, R394): control is taken, 0D04h raised, the role set. Kinds: 0 start-up, 1 lapse, 2 release. A start-up
claim is made in IDLE. -/
def Dev.claim (kind : Nat) (d : Dev) : Dev :=
  let fromReturn := kind = 2 && d.clasp.releaseCause = 3
  let d := d.takeLease (kind = 0)
  let d := (d.raise 0x0D04 1 (Bits.le 1 kind ++ Bits.le 4 d.clasp.mirrorAck)).setRole d.controlRole
  if fromReturn then d.raise 0x0D0C 0 (Bits.le 4 d.frame.number) else d

/-! ### Fences and releases (R383, R384, R386, R400) -/

/-- LEASE_EXPIRY: the hardware timer expires and fences (R382, R383). -/
def Dev.leaseExpires (d : Dev) : Dev := if d.clasp.lease && decide (d.clasp.leaseAt ≤ d.time.now) then d.fence 1 else d

/-- FENCE_ACK: the supervisor acknowledges an expiry fence, and RELEASE goes out with cause 1 (R384, R386). -/
def Dev.fenceAck (d : Dev) : Dev :=
  match d.clasp.ackSince with
  | some _ =>
    let d := d.modClasp (fun c => { c with
      ackSince := none, released := true, releaseUntil := some (d.time.now + 40000000) })
    (d.sendRelease).raise 0x0D03 0 (Bits.le 1 1)
  | none => d

/-- RELEASE is repeated at every sub-tick until the partner shows LEASE, or for 40 ms (Table 13.2). -/
def Dev.releaseRepeat (d : Dev) : Dev :=
  match d.clasp.releaseUntil with
  | some t => if d.time.now ≤ t then d.sendRelease else d.modClasp (fun c => { c with releaseUntil := none })
  | none => d

/-- A ROLE_RELEASE in progress gets its final reply (R400). -/
def Dev.endRelease (f : Fin) (d : Dev) : Dev :=
  match d.clasp.releasing with
  | .given (some t) => (d.modClasp (fun c => { c with releasing := .no })).finish t f
  | .due _ (some t) => (d.modClasp (fun c => { c with releasing := .no })).finish t f
  | _ => d.modClasp (fun c => { c with releasing := .no })

/-- RETURN_RELEASE and ROLE_RELEASE at t0+16 ms: after the launch and the heartbeat the unit fences (R399, R400). -/
def Dev.releaseAtLaunch (d : Dev) : Dev :=
  match d.clasp.releasing with
  | .due f t =>
    if f = d.frame.number && d.clasp.lease then
      let d := d.modClasp (fun c => { c with
        releasing := .given t, doneDue := t.isNone, returnSuspended := t.isSome || c.returnSuspended })
      d.fence (if t.isSome then 5 else 3)
    else d
  | _ => d

/-- ROLE_RELEASE (R400). -/
def Dev.roleReleaseOp (tag : BitVec 6) (d : Dev) : OpRes :=
  if !(d.beatFlag 1 && d.beatFlag 2) then refuse d stRole 1
  else if d.clasp.releasing != .no then refuse d stBusy
  else
    let f := if d.sinceT0 < 15800000 then d.frame.number else d.nextNo
    deferred (d.modClasp (fun c => { c with releasing := .due f (some tag) })) (some 200000000)

/-- The lease is taken back at the second tick after the fence (R386). -/
def Dev.takeBack (d : Dev) : Dev :=
  match d.clasp.takeBack with
  | none => d
  | some n =>
    if d.beatFlag 0 then d.modClasp (fun c => { c with takeBack := none })
    else if n = 0 then d.modClasp (fun c => { c with takeBack := some 1 })
    else if d.clasp.ackSince.isSome then d
    else
      let d := d.modClasp (fun c => { c with takeBack := none })
      if d.healthCheck && !d.clasp.ownIn && d.life.state.mayControl then
        let d := d.modClasp (fun c => { c with
          lease := true, leaseAt := d.time.now + 60000000, ownOut := true, released := false, releaseUntil := none,
          returnSuspended := false, suspSeen := false })
        (d.setRole d.controlRole).endRelease { status := stTimeout }
      else d

/-! ### Ownership lines (R376, R387, R401) -/

/-- OWN_IN_EDGE: a valid edge; after three OWN_IN reads asserted (R376). -/
def Dev.ownEdge (d : Dev) : Dev :=
  d.modClasp (fun c =>
    let n := if c.ownEdges != 0 && decide (300000 < d.time.now - c.ownEdgeAt) then 1 else c.ownEdges + 1
    { c with ownEdges := n, ownEdgeAt := d.time.now, ownIn := c.ownIn || decide (3 ≤ n),
             ownSince := if !c.ownIn && decide (3 ≤ n) then d.time.now else c.ownSince })

/-- OWN_IN_TIMEOUT: no valid edge for 300 µs (R376). -/
def Dev.ownQuiet (d : Dev) : Dev :=
  if 300000 ≤ d.time.now - d.clasp.ownEdgeAt then
    d.modClasp (fun c => { c with ownEdges := 0, ownIn := false, twoOwners := false, ownSince := if c.ownIn then d.time.now else c.ownSince })
  else d

/-- This unit is the one that fences when two own (R387). -/
def Dev.fencesAsSecond (d : Dev) : Bool :=
  let (pid, ppref, pser) := match d.clasp.partner with
    | some b => (Bits.b2n (b.unit.getLsbD 0), b.unit.getLsbD 1, b.serial)
    | none => (1 - d.unitId, false, [])
  if d.preferred != ppref then !d.preferred
  else if pid != d.unitId then d.unitId == 1
  else serialHigher d.serial pser

/-- SECOND_OWNER (R387): OWN_IN asserted for 1 ms while the lease is held. -/
def Dev.secondOwner (d : Dev) : Dev :=
  if d.clasp.lease && d.clasp.ownIn && !d.clasp.twoOwners && decide (1000000 ≤ d.time.now - d.clasp.ownSince) then
    let me := d.fencesAsSecond
    let d := (d.modClasp (fun c => { c with secondSeen := true, twoOwners := true })).raise 0x0D0E 3
      (Bits.le 1 (if me then d.unitId else 1 - d.unitId))
    if me then d.fence 6 else d
  else d

/-- OWNERSHIP_MISMATCH (R401): 1 OWN_IN without heartbeats for 1 s; 2 LEASE heartbeats without OWN_IN for 100 ms. -/
def Dev.mismatch (kind : Nat) (d : Dev) : Dev :=
  let holds := if kind = 1 then d.clasp.ownIn && decide (1000000000 ≤ d.time.now - d.clasp.beatAt)
    else kind = 2 && !d.clasp.role.inControl && d.beatFlag 0 && !d.clasp.ownIn && decide (100000000 ≤ d.time.now - d.clasp.ownSince)
  if d.life.ready && holds && !(d.clasp.mismatch.getLsbD (kind - 1)) then
    (d.modClasp (fun c => { c with mismatch := c.mismatch ||| BitVec.ofNat 2 kind })).raise 0x0D0D 3 (Bits.le 1 kind)
  else d

/-! ### Heartbeats and lanes (R377 to R381) -/

/-- The HEARTBEAT (Table 13.3). -/
def Dev.beatBytes (d : Dev) : List Byte :=
  let b := Bits.le 2 0x5D1D ++ [0x01, 0x01] ++ Bits.le 4 d.frame.number ++ [d.unitByte] ++ Bits.le 1 d.clasp.role.code ++
    Bits.le 2 d.beatFlags ++ Bits.le 1 d.worst ++ Bits.le 1 d.solver.mode.code ++ Bits.le 1 d.nsCause ++ [0] ++
    Bits.le 4 d.leaseLeft ++ Bits.le 4 d.clasp.mirrorAck ++ Bits.le 8 d.cfg.hallmark.toNat ++ d.serial
  b ++ Bits.le 4 (Bits.crc32c b).toNat

/-- HEARTBEAT_SEND (R378). -/
def Dev.beatSend (d : Dev) : Dev := if d.life.ready then d.emit (.lane d.beatBytes) else d

/-- A heartbeat as received; none where its format or CRC fails (R377). -/
def beatOf (bs : List Byte) : Option Beat :=
  if bs.length = 52 && Bits.at' bs 0 2 == 0x5D1D && Bits.byteAt bs 2 == 1 && Bits.byteAt bs 3 == 1 &&
      Bits.crc32c (bs.take 48) == Bits.wordAt bs 48 then
    some { frame := Bits.at' bs 4 4, unit := bs.getD 8 0, role := Bits.byteAt bs 9,
           hflags := BitVec.ofNat 16 (Bits.at' bs 10 2), worst := Bits.byteAt bs 12, mode := Bits.byteAt bs 13,
           nsCause := Bits.byteAt bs 14, leaseLeft := Bits.at' bs 16 4, mirrorAck := Bits.at' bs 20 4,
           hallmark := BitVec.ofNat 64 (Bits.at' bs 24 8), serial := (bs.drop 32).take 16 }
  else none

/-- A message discarded for its CRC is counted (R377, Table 13.8). -/
def Dev.laneError (bs : List Byte) (d : Dev) : Dev :=
  if 4 ≤ bs.length && Bits.crc32c (bs.take (bs.length - 4)) == Bits.wordAt bs (bs.length - 4) then d
  else d.modClasp (fun c => { c with laneErrors := Bits.sat 0xFFFFFFFF (c.laneErrors + 1) })

/-- A valid heartbeat on a lane: three in a row bring it up (R381). -/
def Dev.laneGood (lane : Nat) (d : Dev) : Dev :=
  let l := d.clasp.lanes.getD lane {}
  if l.got then d
  else
    let up := l.up || decide (3 ≤ l.good + 1)
    let n : Lane := { l with got := true, good := l.good + 1, bad := 0, up := up }
    let d1 := d.modClasp (fun c => { c with lanes := Bits.setAt c.lanes lane n })
    if up && !l.up then d1.raiseI 0x0D08 0 lane (Bits.le 1 lane) else d1

/-- LANE_DOWN (R381): three frames in a row without a valid heartbeat. -/
def Dev.laneDown (lane : Nat) (d : Dev) : Dev :=
  let l := d.clasp.lanes.getD lane {}
  if l.up && decide (3 ≤ l.bad) then
    (d.modClasp (fun c => { c with lanes := Bits.setAt c.lanes lane { l with up := false, good := 0 } })).raiseI 0x0D07 1
      lane (Bits.le 1 lane)
  else d

/-- What the partner's MIRROR_ACK says of what the mirrors carried (R71, R103). -/
def Dev.ackMirror (b : Beat) (d : Dev) : Dev :=
  let acked := fun (f : Nat) => b.mirrorAck != 0xFFFFFFFF && decide (0 ≤ Bits.diff32 b.mirrorAck f)
  let missed := fun (f : Nat) => !(acked f) && decide (0 < Bits.diff32 b.frame f)
  let lost := (d.image.carried.filter (fun c => missed c.1)).flatMap Prod.snd
  let kept := d.cfg.marks.filter (fun m => match m.sent with | some f => !(acked f) | none => true)
  let cm := kept.map (fun m => match m.sent with
    | some f => if missed f then { m with sent := none } else m
    | none => m)
  { d with
    image := { d.image with
      carried := d.image.carried.filter (fun c => !(acked c.1) && !(missed c.1)),
      marks := lost.foldl (fun m i => insNat i m) d.image.marks },
    cfg := { d.cfg with marks := cm } }

/-- HEARTBEAT_RECEIVED (R377 to R381, R386, R394). -/
def Dev.beatReceived (lane : Nat) (bs : List Byte) (d : Dev) : Dev :=
  match beatOf bs with
  | none => d.laneError bs
  | some b =>
    let d := d.laneGood lane
    if d.clasp.lastBeatFrame = some b.frame then d
    else
      let found := d.clasp.absent
      let lease := b.hflags.getLsbD 0
      let clash := b.unit.getLsbD 0 == d.unitByte.getLsbD 0
      let d := d.modClasp (fun c => { c with
        partner := some b, beatAt := d.time.now, lastBeatFrame := some b.frame, partnerHere := true, absent := false,
        leaseBeat := c.leaseBeat || lease, leaseBeatAt := if lease then d.time.now else c.leaseBeatAt,
        releaseSeen := if lease then false else c.releaseSeen || b.hflags.getLsbD 4,
        releaseCause := if lease then 0 else c.releaseCause,
        frameDiffers := b.frame != d.frame.number, markSame := b.hallmark == d.cfg.hallmark, clash := clash,
        failFrom := c.failFrom.filter (fun f => decide (Bits.diff32 b.frame f < 0)),
        released := if lease then false else c.released,
        releaseUntil := if lease then none else c.releaseUntil,
        takeBack := if lease then none else c.takeBack,
        returnSuspended := c.returnSuspended && (lease || !(c.suspSeen && b.hflags.getLsbD 4)),
        suspSeen := c.returnSuspended && (lease || (c.suspSeen && !(b.hflags.getLsbD 4))),
        waiting := c.waiting && !lease,
        claimWaitAt := if c.waiting && clash && !c.clash && serialHigher d.serial b.serial
          then c.claimWaitAt.map (fun t => t + 100000000) else c.claimWaitAt })
      let d := d.ackMirror b
      let d := if found then d.raise 0x0D0A 0 (Bits.le 1 b.role) else d
      let d := if clash && !d.clasp.clashRaised then
          (d.modClasp (fun c => { c with clashRaised := true })).raise 0x0D0D 3 (Bits.le 1 3) else d
      match d.clasp.releasing, lease with
      | .given _, true => d.endRelease { status := stOk }
      | _, _ => d

/-- PARTNER_LOST (R381): WARNING or NOTICE by PAIR_EXPECTED. -/
def Dev.partnerLost (d : Dev) : Dev :=
  if d.life.ready && !d.clasp.absent && decide (80000000 ≤ d.time.now - d.clasp.beatAt) then
    (d.modClasp (fun c => { c with partnerHere := false, absent := true, lastBeatFrame := none })).raise 0x0D09
      (if d.parB 0x28 4 then 1 else 0) []
  else d

/-- A lane message other than a heartbeat: type, frame, segment, part, parts, payload; none where CRC or format fails. -/
def laneOf (bs : List Byte) : Option (Nat × Nat × Nat × Nat × Nat × List Byte) :=
  let len := Bits.at' bs 14 2
  if bs.length = 20 + len && len % 4 == 0 && decide (len ≤ 4076) && Bits.at' bs 0 2 == 0x5D1D && Bits.byteAt bs 2 == 1 &&
      Bits.crc32c (bs.take (16 + len)) == Bits.wordAt bs (16 + len) then
    some (Bits.byteAt bs 3, Bits.at' bs 4 4, Bits.byteAt bs 8, Bits.at' bs 10 2, Bits.at' bs 12 2, (bs.drop 16).take len)
  else none

/-- A message of a type and frame is taken once; its second copy is discarded (R377). -/
def Dev.takeOnce (typ frame : Nat) (d : Dev) : Bool × Dev :=
  if d.clasp.taken.any (fun p => p.1 == typ && p.2 == frame) then (false, d)
  else (true, d.modClasp (fun c => { c with taken := Bits.putBy (fun p => p.1 == typ) (typ, frame) c.taken }))

/-- RELEASE_RECEIVED (R377, R385). -/
def Dev.releaseReceived (bs : List Byte) (d : Dev) : Dev :=
  match laneOf bs with
  | some (2, f, _, _, _, p) =>
    let (new, d) := d.takeOnce 2 f
    if new then d.modClasp (fun c => { c with
      releaseSeen := true, releaseCause := Bits.byteAt p 0,
      returnSuspended := c.returnSuspended && !c.suspSeen, suspSeen := false })
    else d
  | some _ => d
  | none => d.laneError bs

/-- FLOW_STATE_RECEIVED (R103, Table 13.12). -/
def Dev.flowStateReceived (bs : List Byte) (d : Dev) : Dev :=
  match laneOf bs with
  | some (7, f, _, _, _, p) =>
    let (new, d) := d.takeOnce 7 f
    if new then { d with flows := { d.flows with partnerUp := BitVec.ofNat 256 (Bits.fromLe (p.take 32)), partnerAge := 0 } }
    else d
  | some _ => d
  | none => d.laneError bs

/-! ### Causes and SYNCED (R390, R391, R502) -/

/-- The mirrors and lanes of the frame that has ended are counted (R381, R390, Table 13.5). -/
def Dev.claspCount (d : Dev) : Dev :=
  d.modClasp (fun c =>
    let ok := c.mirrorDone && c.mirrorMatch
    { c with
      goodMirrors := if c.leaseBeat then (if ok then c.goodMirrors + 1 else 0) else c.goodMirrors,
      wholeMirrors := if c.leaseBeat then (if c.mirrorDone then c.wholeMirrors + 1 else 0) else c.wholeMirrors,
      badMirrors := if c.leaseBeat then (if c.mirrorDone then 0 else c.badMirrors + 1) else c.badMirrors,
      leaseBeat := false, mirrorDone := false, mirrorMatch := false, mirrorOpen := true,
      bodies := c.bodies.filter (fun b => b.typ == 6), segs := [],
      lanes := c.lanes.map (fun l => if l.got then { l with got := false } else { l with bad := if d.life.ready then l.bad + 1 else l.bad, good := 0 }),
      mismatch := (if c.ownIn then c.mismatch else c.mismatch &&& 2) &&& (if c.ownIn then 1 else 3) })

/-- The Hallmarks are equal: the last heartbeat showed this unit's own, or a commit to this unit has made its own the one
it showed. Silence alone never makes them equal (Table 13.5 cause 1). -/
def Dev.markEqual (d : Dev) : Bool :=
  match d.clasp.partner with
  | some b => d.clasp.markSame || b.hallmark == d.cfg.hallmark
  | none => true

/-- The causes of Table 13.5 that stand at a tick. A suspended cause 9 does not stand (R502). -/
def Dev.causesNow (d : Dev) : BitVec 16 :=
  let c := d.clasp
  let differs := (c.partnerHere || c.causes.getLsbD 1) && !d.markEqual
  let susp := d.life.stuck && c.partnerHere &&
    (!(d.beatFlag 2) || (match c.partner with | some b => b.worst != 255 && decide (3 ≤ b.worst) | none => false))
  BitVec.ofNat 16 (flagBits [false, differs, c.causes.getLsbD 2 && (differs || c.failFrom.isSome), (c.partnerHere || c.causes.getLsbD 3) && c.frameDiffers,
    (c.causes.getLsbD 4 && decide (c.wholeMirrors < 3)) || decide (3 ≤ c.badMirrors), c.causes.getLsbD 5,
    decide (0 < d.health.testHold), c.causes.getLsbD 7 && decide (c.wholeMirrors < 3), !d.life.state.mayControl,
    d.life.stuck && !susp])

/-- The partner, seen to hold the lease, has given it up by lapse: the suspension of R400 ends. -/
def Dev.suspTick (d : Dev) : Dev :=
  if d.clasp.suspSeen && decide (80000000 ≤ d.time.now - d.clasp.leaseBeatAt) then
    d.modClasp (fun c => { c with returnSuspended := false, suspSeen := false })
  else d

/-- SYNCED is judged of a standby at a tick (R390); 0D05h and 0D06h on the change. Of a unit in control it is not judged: its causes
stand as they were when it took control, but for 8 and 9 (notes/assumptions/61.md). -/
def Dev.syncTick (d : Dev) : Dev :=
  let d := d.claspCount.suspTick
  if d.clasp.role.inControl then
    d.modClasp (fun c => { c with
      causes := (c.causes &&& 0xFCFF) ||| (d.causesNow &&& 0x0300),
      nsFrames := if c.synced then 0 else c.nsFrames + 1 })
  else
    let was := d.clasp.synced
    let d := d.modClasp (fun c => { c with causes := d.causesNow })
    let now := d.clasp.causes == 0 && decide (3 ≤ d.clasp.goodMirrors)
    let d := d.modClasp (fun c => { c with
      synced := now, nsFrames := if was then (if now then 0 else 1) else c.nsFrames + 1,
      holdoffFrom := if now then (match c.holdoffFrom with | some t => some t | none => some d.time.now) else none,
      returnReq := c.returnReq && now })
    if was && !now then d.raise 0x0D05 1 (Bits.le 1 d.nsCause)
    else if !was && now then d.raise 0x0D06 0 (Bits.le 4 (d.clasp.nsFrames - 1))
    else d

/-! ### Claims and roles at a tick (R385, R393, R394) -/

/-- A standby may claim at this tick (R385). -/
def Dev.mayClaim (d : Dev) : Bool :=
  d.clasp.role == .standby && !d.criticalStands &&
    (decide (80000000 ≤ d.time.now - d.clasp.leaseBeatAt) || d.clasp.releaseSeen) && !d.clasp.ownIn && d.clasp.synced &&
    d.clasp.mirrorAck != 0xFFFFFFFF && decide (-6 ≤ Bits.diff32 d.clasp.mirrorAck d.frame.number) &&
    d.clasp.takeBack.isNone && !d.clasp.released

/-- CLAIM_WAIT_EXPIRY (R394): the unit claims at the next tick. -/
def Dev.claimWaitEnds (d : Dev) : Dev :=
  match d.clasp.claimWaitAt with
  | some t =>
    if d.clasp.waiting && decide (t ≤ d.time.now) then
      let ok := !d.clasp.ownIn && !d.beatFlag 0 && !d.criticalStands && d.life.state.mayControl && !d.life.stuck
      d.modClasp (fun c => { c with waiting := false, claimWaitAt := none, claimDue := ok })
    else d
  | none => d

/-- The unit cannot claim and nobody is heard for ORPHAN_TIME (R393). -/
def Dev.orphanTime (d : Dev) : Bool := decide (1000000 * d.parN 0x28 7 ≤ d.time.now - d.clasp.beatAt)

/-- ORPHAN_SOLO (R393): the role is taken at the next tick. -/
def Dev.orphanSolo (d : Dev) : Dev :=
  if !d.clasp.role.inControl && d.orphanTime && !d.clasp.waiting && !d.clasp.ownIn && !(d.clasp.causes.getLsbD 8) &&
      !(d.clasp.causes.getLsbD 2) && !d.criticalStands && d.life.ready then
    d.modClasp (fun c => { c with orphanDue := true })
  else d

/-- An orphan takes SOLO in IDLE at the tick (R393). -/
def Dev.orphanTake (d : Dev) : Dev :=
  let cause := d.nsCause
  let d := (d.takeLease true).setRole .solo
  (d.modClasp (fun c => { c with orphan := true })).raise 0x0D0F 2 (Bits.le 1 cause)

/-- Roles at a tick (R374, R385, R386, R393, R394). -/
def Dev.roleTick (d : Dev) : Dev :=
  let d := d.takeBack
  let d := if d.clasp.doneDue then (d.modClasp (fun c => { c with doneDue := false })).raise 0x0D0C 0 (Bits.le 4 d.frame.number) else d
  if d.clasp.role.inControl then d.setRole d.controlRole
  else if d.clasp.claimDue && !d.clasp.ownIn && !(d.beatFlag 0) then d.claim 0
  else if d.mayClaim then d.claim (if d.clasp.releaseSeen then 2 else 1)
  else if d.clasp.orphanDue && !d.clasp.ownIn then d.orphanTake
  else
    let stuck := d.orphanTime && !d.clasp.waiting && (d.clasp.ownIn || d.clasp.causes.getLsbD 2 || d.clasp.causes.getLsbD 8)
    let r := if stuck then .ineligible else d.idleRole
    let d := d.setRole r
    if r = .ineligible then { d with solver := { d.solver with mode := .idle } } else d

/-! ### Return of the preferred unit (R397 to R399) -/

/-- RETURN_HOLDOFF in ns (Table 13.9; S22, S21). -/
def Dev.holdoffNs (d : Dev) : Nat :=
  let k := 2 * Bits.b2n (d.island.bezel.getLsbD 21) + Bits.b2n (d.island.bezel.getLsbD 20)
  1000000000 * (if k = 0 then 30 else if k = 1 then 120 else if k = 2 then 600 else 1800)

/-- RETURN_HOLDOFF_EXPIRY (R397). -/
def Dev.holdoffEnds (d : Dev) : Dev :=
  match d.clasp.holdoffFrom with
  | some t =>
    if d.preferred && d.parB 0x28 5 && d.clasp.role = .standby && d.clasp.synced && !d.clasp.returnSuspended &&
        decide (d.holdoffNs ≤ d.time.now - t) then d.modClasp (fun c => { c with returnReq := true })
    else d
  | none => d

/-- The deferral conditions of Table 13.6. -/
def Dev.deferBits (d : Dev) : Nat :=
  let bad := fun (w : Nat) => w != 255 && decide (2 ≤ w)
  flagBits [bad d.worst || (match d.clasp.partner with | some b => bad b.worst | none => false), d.modeChanging,
    d.commitPending, d.islandBusy || d.beatFlag 7, !(d.beatFlag 1) || !d.sameMark, d.clasp.imageOut != []]

/-- The return is judged at a tick by the unit in control (R398, R399). -/
def Dev.returnTick (d : Dev) : Dev :=
  if d.clasp.lease && d.beatFlag 3 && d.clasp.releasing = .no then
    let b := d.deferBits
    let d := d.modClasp (fun c => { c with defer := BitVec.ofNat 8 b })
    if b = 0 then d.modClasp (fun c => { c with releasing := .due d.frame.number none, deferRaised := [] })
    else if d.clasp.deferRaised.contains b then d
    else (d.modClasp (fun c => { c with deferRaised := b :: c.deferRaised })).raise 0x0D0B 0 (Bits.le 1 b)
  else d

/-! ### Feeds (R402, R403) -/

/-- A feed's measured voltage in 10 mV. -/
def Dev.setFeed (feed volts : Nat) (valid : Bool) (d : Dev) : Dev :=
  let bit := BitVec.ofNat 2 (2 ^ feed)
  d.modClasp (fun c => { c with
    feedA := if feed = 0 then volts else c.feedA, feedB := if feed = 0 then c.feedB else volts,
    feeds := if valid then c.feeds ||| bit else c.feeds &&& ~~~ bit })

/-- Both feeds have failed: fence, RELEASE, relays, 0D12h, and what the hold-up energy is spent on (R403, R472, R511). -/
def Dev.bothFeedsFailed (d : Dev) : Dev :=
  let d := d.fence 4
  let d := (d.modClasp (fun c => { c with onHoldup := true })).relays
  ((d.raise 0x0D12 1 (Bits.le 4 d.frame.number)).laneWrite.locketCommit 64).opWrite

/-- FEED_INVALID (R402). -/
def Dev.feedInvalid (feed volts : Nat) (d : Dev) : Dev :=
  if d.clasp.feeds.getLsbD feed then
    let d := (d.setFeed feed volts false).raiseI 0x0D10 1 feed (Bits.le 1 feed ++ Bits.le 2 volts)
    if d.clasp.feeds = 0 then d.bothFeedsFailed else d
  else d

/-- FEED_VALID (R402, R403). -/
def Dev.feedValid (feed volts : Nat) (d : Dev) : Dev :=
  if d.clasp.feeds.getLsbD feed then d
  else
    let d := (d.setFeed feed volts true).modClasp (fun c => { c with onHoldup := false })
    (d.relays).raiseI 0x0D11 0 feed (Bits.le 1 feed)

/-! ### ROLE_READ (R404) -/

/-- The 32 bytes of ROLE_READ (Table 13.8). -/
def Dev.roleRecord (d : Dev) : List Byte :=
  let c := d.clasp
  let prole := if c.partnerHere then (match c.partner with | some b => b.role | none => 0xFF) else 0xFF
  let left := match c.holdoffFrom with
    | some t => if d.preferred && d.parB 0x28 5 && c.role = .standby then
        (t + d.holdoffNs - d.time.now) / 1000000000 else 0xFFFFFFFF
    | none => 0xFFFFFFFF
  Bits.le 1 c.role.code ++ Bits.le 1 prole ++ [d.unitByte] ++ Bits.le 1 d.roleFlags ++ Bits.le 1 d.linkFlags ++
    Bits.le 1 d.nsCause ++ Bits.le 1 c.defer.toNat ++
    Bits.le 1 (c.feeds.toNat + 4 * Bits.b2n (d.beatFlag 9) + 8 * Bits.b2n (d.beatFlag 10)) ++ Bits.le 4 d.leaseLeft ++
    Bits.le 4 c.lastMirror ++ Bits.le 4 left ++ Bits.le 4 c.roleSince ++ Bits.le 2 c.feedA ++ Bits.le 2 c.feedB ++
    Bits.le 4 c.laneErrors

end Sys2Proof.Machine
end

