-- ==== Sys2Proof/Machine/Num.lean ====
section
/-! DEFINITION. Machine/Num.lean: real numbers with 62 fraction bits, vectors and matrices of them, and the narrowing of the
array to its 32-bit formats (07 R216, R218; 06 R196). A stored number has 31 fraction bits whatever its format, so that the
product of two stored numbers is exact (notes/assumptions/41.md). -/

namespace Sys2Proof.Machine.Num

open Sys2Proof Sys2Proof.Machine

/-! ### Numbers with 62 fraction bits -/

/-- One. -/
def one : Int := 4611686018427387904
/-- π. -/
def pi : Int := 14488038916154245685
/-- One half of the square root of 2. -/
def halfRoot2 : Int := 3260954456333195553

/-- The product. -/
def mul (a b : Int) : Int := a * b / one
/-- The quotient; a division by 0, which the manual gives no result, is free. -/
def div (a b : Int) : Int := if b = 0 then Config.quotient a else a * one / b
/-- n / m. -/
def frac (n : Int) (m : Nat) : Int := if m = 0 then Config.quotient n else n * one / (m : Int)
/-- The square root, 0 below 0. -/
def sqrt (a : Int) : Int := Fix.sqrtI (a * one)
/-- The number of a word with n fraction bits, and the word nearest to a number, held to 32 bits. -/
def ofRaw (n : Nat) (r : Int) : Int := r * 2 ^ (62 - n)
/-- The word with n fraction bits nearest to a number, held to 32 bits (R7). -/
def toRaw (n : Nat) (a : Int) : Int := Bits.clampI (-2147483648) 2147483647 (Bits.roundUp a (2 ^ (62 - n)))

/-- The number held to 32 bits with n fraction bits, and 1 where that clamps it. -/
def fit (n : Nat) (a : Int) : Int × Nat :=
  let r := Bits.roundUp a (2 ^ (62 - n))
  let c := Bits.clampI (-2147483648) 2147483647 r
  (ofRaw n c, if c = r then 0 else 1)

/-- Terms of a power series of the exponential. -/
def expTerms : Nat → Int → Int → Int → Int → Int
  | 0, _, _, _, acc => acc
  | n + 1, k, x, t, acc =>
    let t := mul t x / k
    expTerms n (k + 1) x t (acc + t)

/-- The exponential of a number of magnitude below 1. -/
def exp (x : Int) : Int := expTerms 24 1 x one one

/-- An angle in radians as a fraction of a turn, 2^-32. -/
def turnOf (a : Int) : Int := Bits.roundUp (a * 2147483648) pi.toNat
/-- An angle in 2^-32 turn as radians. -/
def radOf (t : Int) : Int := t * pi / 2147483648
/-- Degrees as radians. -/
def radDeg (a : Int) : Int := mul a pi / 180
/-- Radians as degrees. -/
def degRad (a : Int) : Int := a * 180 * one / pi
/-- The sine and the cosine of an angle in radians. -/
def sinCos (a : Int) : Int × Int :=
  let (s, c) := Fix.sinCos (turnOf a)
  (s * 4294967296, c * 4294967296)
/-- The angle of (x, y) in radians, in (−π, π]. -/
def atan2 (y x : Int) : Int := radOf (Fix.atan2 y x)
/-- An angle brought into (−π, π]. -/
def wrapPi (a : Int) : Int :=
  let r := a % (2 * pi)
  if r ≤ pi then r else r - 2 * pi

/-! ### Vectors and matrices: rows of numbers -/

/-- A vector. -/
abbrev Vec := List Int
/-- A matrix by rows. -/
abbrev Mat := List (List Int)

/-- n zeros. -/
def zeros (n : Nat) : Vec := List.replicate n 0
/-- A vector with one entry. -/
def unit (n k : Nat) (v : Int) : Vec := (Bits.upTo n).map (fun i => if i = k then v else 0)
/-- The sum of two vectors. -/
def addV (a b : Vec) : Vec := List.zipWith (· + ·) a b
/-- The difference of two vectors. -/
def subV (a b : Vec) : Vec := List.zipWith (· - ·) a b
/-- A vector times a number. -/
def scale (k : Int) (a : Vec) : Vec := a.map (mul k)
/-- The exact product sum, before any rescaling. -/
def dotX (a b : Vec) : Int := Bits.sumI (List.zipWith (· * ·) a b)
/-- The scalar product. -/
def dot (a b : Vec) : Int := dotX a b / one
/-- A matrix times a vector. -/
def mulV (m : Mat) (v : Vec) : Vec := m.map (fun r => dot r v)
/-- The transpose; `n` is the number of columns. -/
def transpose (n : Nat) (m : Mat) : Mat := (Bits.upTo n).map (fun j => m.map (fun r => r.getD j 0))
/-- The product of two matrices; `n` is the number of columns of the second. -/
def mulM (n : Nat) (a b : Mat) : Mat :=
  let t := transpose n b
  a.map (fun r => t.map (fun c => dot r c))
/-- The sum of two matrices. -/
def addM (a b : Mat) : Mat := List.zipWith addV a b
/-- The difference of two matrices. -/
def subM (a b : Mat) : Mat := List.zipWith subV a b
/-- A matrix times a number. -/
def scaleM (k : Int) (m : Mat) : Mat := m.map (scale k)
/-- A diagonal matrix. -/
def diag (v : Vec) : Mat := v.zipIdx.map (fun x => unit v.length x.2 x.1)
/-- The identity. -/
def ident (n : Nat) : Mat := diag (List.replicate n one)
/-- The product of a column and a row. -/
def outer (a b : Vec) : Mat := a.map (fun x => scale x b)
/-- A matrix m and its transpose on the left and right of a: m a mᵀ; `n` columns of m. -/
def sandwich (n : Nat) (m a : Mat) : Mat := mulM m.length (mulM n m a) (transpose n m)

/-- Gauss and Jordan: the rows still to reduce and those reduced, each the row of the matrix and its right side. -/
def solveGo : Nat → List (Vec × Vec) → List (Vec × Vec) → List Vec
  | 0, _, done => done.map Prod.snd
  | n + 1, rows, done =>
    match rows with
    | [] => done.map Prod.snd
    | (p, b) :: rest =>
      let d := p.headD 0
      let p' := p.tail.map (fun x => div x d)
      let b' := b.map (fun x => div x d)
      let clear := fun (x : Vec × Vec) =>
        let f := x.1.headD 0
        (subV x.1.tail (scale f p'), subV x.2 (scale f b'))
      solveGo n (rest.map clear) (done.map clear ++ [(p', b')])

/-- The inverse of a positive definite matrix. -/
def inverse (m : Mat) : Mat := solveGo m.length (List.zip m (ident m.length)) []

/-- vᵀ m⁻¹ v (R183). -/
def quad (m : Mat) (v : Vec) : Int := dot v (mulV (inverse m) v)

/-- UD factors of a symmetric matrix (R196): m = U D Uᵀ with U upper triangular of unit diagonal. The last row and column go
first; answers D and, for each column from the last, the entries of U above its diagonal. -/
def udGo : Nat → Mat → List (Int × Vec)
  | 0, _ => []
  | n + 1, m =>
    let last := m.getLastD []
    let d := last.getLastD 0
    let u := (last.dropLast).map (fun x => if d = 0 then 0 else div x d)
    let rest := (m.dropLast.map List.dropLast)
    (d, u) :: udGo n (subM rest (outer u (u.map (fun x => mul x d))))

/-- D, then U row by row, of a symmetric matrix. -/
def udList (m : Mat) : Vec :=
  let c := (udGo m.length m).reverse
  c.map Prod.fst ++ (Bits.upTo m.length).flatMap (fun i => (c.drop (i + 1)).map (fun x => x.2.getD i 0))

/-- Rows of an upper triangle cut from a list. -/
def rowsOf : Nat → Vec → Mat
  | 0, _ => []
  | n + 1, l => l.take n :: rowsOf n (l.drop n)

/-- The n by n matrix of D and U given row by row. -/
def udMatrix (n : Nat) (l : Vec) : Mat :=
  let dv := l.take n
  let u := l.drop n
  let rows := (rowsOf n u).zipIdx.map (fun x => zeros x.2 ++ [one] ++ x.1)
  mulM n rows (mulM n (diag dv) (transpose n rows))

/-! ### Stored numbers (R216, R218): 31 fraction bits -/

/-- One as a stored number. -/
def unit31 : Int := 2147483648

/-- A number narrowed to Q(ib).(32 − ib), rounded half up and clamped, and whether that is a saturation (R218). -/
def narrow (ib : Nat) (a : Int) : Int × Nat :=
  let r := Bits.roundUp a (2 ^ (30 + ib))
  let c := Bits.clampI (-2147483648) 2147483647 r
  (c * 2 ^ (ib - 1), if c = r then 0 else 1)

/-- A vector narrowed, with its saturations. -/
def narrowV (ib : Nat) (v : Vec) : Vec × Nat :=
  let l := v.map (narrow ib)
  (l.map Prod.fst, l.foldl (fun a x => a + x.2) 0)

/-- A matrix narrowed, with its saturations. -/
def narrowM (ib : Nat) (m : Mat) : Mat × Nat :=
  let l := m.map (narrowV ib)
  (l.map Prod.fst, l.foldl (fun a x => a + x.2) 0)

/-- The reciprocal square root of a stored number in Q(ib).(32 − ib) by the divide and square-root unit: an input at or
below 2^-24, or a result outside the format, is a saturation and gives the upper limit (R218, R219). -/
def recipRoot (ib : Nat) (p : Int) : Int × Nat :=
  if p ≤ 128 then ((narrow ib (2 ^ (62 + ib))).1, 1)
  else narrow ib (Bits.isqrt (2 ^ 155 / p.toNat) : Nat)

/-- A matrix times a vector, the entries of the matrix stored, those of the vector with 62 fraction bits. -/
def mulVS (m : Mat) (v : Vec) : Vec := m.map (fun r => dotX r v / unit31)

end Sys2Proof.Machine.Num
end

