-- ==== Sys2Proof/Machine/Vessel.lean ====
section
/-! DEFINITION. Machine/Vessel.lean: the vessel model that fusion and the solver share (06 R180, R188; 07 R209, R214): the
refined mass and damping matrices, the delivered forces and the motion that they give. Numbers have 62 fraction bits, in
t, kN, m, s and rad. -/

namespace Sys2Proof.Machine

open Sys2Proof

/-! ### Matrices (R188, R209) -/

/-- Refined parameter i of R240: MASS_X, MASS_Y, INERTIA_N, MASS_YN, DAMP_X, DAMP_Y, DAMP_N, DAMP_YN. -/
def Dev.refined (d : Dev) (i : Nat) : Int := Num.ofRaw 16 (d.solver.refine.values.getD i 0)

/-- A matrix of surge apart from sway and yaw, symmetric in sway and yaw (DEDUCED: notes/assumptions/90.md). -/
def symYaw (x y n yn : Int) : Num.Mat := [[x, 0, 0], [0, y, yn], [0, yn, n]]

/-- The damping matrix D. -/
def Dev.damping (d : Dev) : Num.Mat := symYaw (d.refined 4) (d.refined 5) (d.refined 6) (d.refined 7)

/-- The inverse of the mass matrix M. -/
def Dev.massInv (d : Dev) : Num.Mat :=
  let y := d.refined 1
  let n := d.refined 2
  let yn := d.refined 3
  let det := Num.mul y n - Num.mul yn yn
  symYaw (Num.div Num.one (d.refined 0)) (Num.div n det) (Num.div y det) (Num.div (-yn) det)

/-- The rotation C(ψ) from the body frame to north and east, with the heading left as it is. -/
def rotation (psi : Int) : Num.Mat :=
  let (s, c) := Num.sinCos psi
  [[c, -s, 0], [s, c, 0], [0, 0, Num.one]]

/-- The acceleration of M ν̇ = τ − D ν. -/
def Dev.acceleration (d : Dev) (tau nu : Num.Vec) : Num.Vec :=
  Num.mulV d.massInv (Num.subV tau (Num.mulV d.damping nu))

/-- One step of R188 over h seconds: position, heading and velocities under a body force (DESIGN CHOICE, the step is Euler's:
notes/assumptions/90.md). -/
def Dev.move (d : Dev) (h : Int) (tau : Num.Vec) (eta nu : Num.Vec) : Num.Vec × Num.Vec :=
  (Num.addV eta (Num.scale h (Num.mulV (rotation (eta.getD 2 0)) nu)), Num.addV nu (Num.scale h (d.acceleration tau nu)))

/-! ### Forces (R180, R209, R214) -/

/-- A force in polar form: magnitude (signed for tunnel and shaft) in Q1.31, angle in 2^-32 turn. -/
structure Polar where
  r : Int
  a : Int
deriving DecidableEq, Repr

/-- The force of a thruster's set-point in force. -/
def Dev.setForce (d : Dev) (j : Nat) : Polar :=
  let s := d.engine.setpoints.getD j {}
  { r := s.thrust * 65536, a := s.az * 65536 % Fix.turn }

/-- The force that a thruster's feedback tells: none unless azimuth and thrust are both GOOD. -/
def Dev.fedForce (d : Dev) (j : Nat) : Option Polar :=
  let fb := d.thrPar j 0xE
  let pa := d.snapPt (fb + 1)
  let pt := d.snapPt (fb + 2)
  let f := d.thrPar j 3
  if pa.quality = 0 ∧ pt.quality = 0 ∧ f ≠ 0 then
    match pa.number, pt.number with
    | some x, some y =>
      some { r := Bits.roundUp (y.1 * 10 * 2147483648) (y.2 * f), a := x.1 * Fix.turn / (360 * (x.2 : Int)) % Fix.turn }
    | _, _ => none
  else none

/-- The delivered force: feedback where azimuth and thrust are GOOD, else the set-point in force (R214). -/
def Dev.delivered (d : Dev) (j : Nat) : Polar :=
  match d.fedForce j with
  | some p => p
  | none => d.setForce j

/-- The vector of a polar force. -/
def Polar.vec (p : Polar) : Int × Int :=
  let (s, c) := Fix.sinCos p.a
  let q := fun (x : Int) => Bits.clampI (-2147483648) 2147483647 (Bits.roundUp (p.r * x) 1073741824)
  (q c, q s)

/-- Surge and sway of a thruster's polar force, Q1.31: a tunnel thruster acts along +y, a shaft thruster along +x. -/
def Dev.forceXY (d : Dev) (j : Nat) (p : Polar) : Int × Int :=
  if d.thrPar j 0 = 1 then p.vec else if d.thrPar j 0 = 2 then (0, p.r) else (p.r, 0)

/-- The force and moment on the hull of one thruster, kN and kN·m, from its normalised force (R209). -/
def Dev.forceOf (d : Dev) (j : Nat) (f : Int × Int) : Num.Vec :=
  let k := fun (x : Int) => x * 2147483648 * (d.thrPar j 3 : Int) / 10
  let x := d.parI 0x11 (0x21 + 32 * j)
  let y := d.parI 0x11 (0x22 + 32 * j)
  let (fx, fy) := (k f.1, k f.2)
  [fx, fy, (x * fy - y * fx) / 1000]

/-- The sum of forces on the hull. -/
def sumForces (l : List Num.Vec) : Num.Vec := l.foldl Num.addV [0, 0, 0]

/-- The thrust that fusion takes: delivered, a substituted set-point, or zero for a thruster marked unavailable (R180). -/
def Dev.thrustIn (d : Dev) : Num.Vec :=
  sumForces (d.thrsPresent.map (fun j =>
    if (d.thr j).unavailable then [0, 0, 0] else d.forceOf j (d.forceXY j (d.delivered j))))

/-- The thrust of the demands in force (R206). -/
def Dev.thrustSet (d : Dev) : Num.Vec :=
  sumForces (d.thrsPresent.map (fun j => d.forceOf j (d.forceXY j (d.setForce j))))

end Sys2Proof.Machine
end

