-- ==== Sys2Proof/Machine/Sky.lean ====
section
/-! DEFINITION. Machine/Sky.lean: the ranging engine up to its latch (05 R137 to R152): sample links and the fit of their
counts, the acquisition bank, the tracking channels and their loops, the latch and the raw copies. What a channel measures
of a real signal, and what the sky holds, is free (notes/assumptions/13.md). -/

namespace Sys2Proof.Machine

open Sys2Proof

/-! ### Parts -/

/-- A field of table GNSS. -/
def Dev.gPar (d : Dev) (p : Nat) : Nat := d.parN 8 p
/-- The ranging engine changed. -/
def Dev.modGnss (f : GnssSt → GnssSt) (d : Dev) : Dev := { d with gnss := f d.gnss }
/-- Antennas in use: two or four (R170). -/
def Dev.antCount (d : Dev) : Nat := if d.gPar 2 = 4 then 4 else 2
/-- A link. -/
def Dev.glink (d : Dev) (n : Nat) : Link := d.gnss.links.getD n {}
/-- A link is used (R137). -/
def Dev.linkUsed (d : Dev) (n : Nat) : Bool := decide (n < 3 * d.antCount)
/-- The next free value. -/
def Dev.gnssFree (d : Dev) : Nat × Dev := (Config.gnss d.free, d.fresh)
/-- A tracking channel: antenna a, channel c; an idle one where it is not listed. -/
def Dev.chan (d : Dev) (a c : Nat) : Chan := Bits.get (fun _ => ({} : Chan)) d.gnss.chans (96 * a + c)
/-- A channel replaced. -/
def Dev.setChan (k : Nat) (x : Chan) (d : Dev) : Dev :=
  d.modGnss (fun g => { g with chans := Bits.put (fun _ => ({} : Chan)) g.chans k x })

/-- The system of a signal code (Table 5.3). -/
def signalSystem (s : Nat) : Nat :=
  if s ≤ 3 then 0 else if s ≤ 6 then 1 else if s ≤ 8 then 2 else if s ≤ 11 then 3 else if s ≤ 13 then 4 else 5

/-- The band of a signal code (Table 5.3). -/
def signalBand (s : Nat) : Nat :=
  if s = 2 ∨ s = 8 then 1 else if s = 3 ∨ s = 5 ∨ s = 6 ∨ s = 11 ∨ s = 13 then 2 else 0

/-- The carrier of a signal in 10 kHz units; k of a GLONASS channel as it is reported, k + 7 (Table 5.3). -/
def carrier10k (s k : Nat) : Nat :=
  if s = 7 then 160200 + 225 * k / 4 - 394 else if s = 8 then 124600 + 175 * k / 4 - 306
  else if s = 9 then 156110 else if s = 2 then 122760 else if s = 6 then 120714
  else if signalBand s = 2 then 117645 else 157542

/-- The component that a channel tracks (R142): 0 the data component, 1 the pilot, 2 E1-B and E1-C combined. -/
def component (s : Nat) : Nat :=
  if s = 4 then 2 else if s = 0 ∨ s = 7 ∨ s = 8 ∨ s = 9 ∨ s = 12 ∨ s = 14 then 0 else 1

/-- Navigation data is demodulated from this signal (R142). -/
def carriesNav (s : Nat) : Bool := s == 0 || s == 4 || s == 7 || s == 9 || s == 12 || s == 14

/-! ### Links (R139 to R141) -/

/-- Why a link frame is bad: 0 for a good one (R140, Table 5.14). Where several causes hold, the lowest code stands for it
(DESIGN CHOICE: notes/assumptions/93.md); the first frame of a link has no previous count to be checked against. -/
def Dev.linkCause (d : Dev) (n : Nat) (f : LinkFrame) : Nat :=
  let id := n % 3 + 4 * (n / 3) + 16
  if f.codeError then 1
  else if Bits.crc32c (Bits.fit 1038 f.bytes) != Bits.wordAt f.bytes 1038 then 2
  else if Bits.byteAt f.bytes 0 != id then 3
  else if (match (d.glink n).last with | some c => Bits.at' f.bytes 2 4 != (c + 1024) % 2 ^ 32 | none => false) then 4
  else if !((f.bytes.getD 1 0).getLsbD 0) then 5 else 0

/-- A channel without lock since now; its latched record keeps the bits that lock does not decide. -/
def Chan.lose (now : Nat) (x : Chan) : Chan :=
  { x with now := { x.now with state := x.now.state &&& 0x1C, lockTime := 0 }, lostAt := some now, sync := false, preamble := false,
           aid := none }

/-- Every channel that a link feeds loses lock; all three links down lose the antenna (R140, R166). -/
def Dev.linkFalls (n : Nat) (d : Dev) : Dev :=
  let a := n / 3
  let d := d.modGnss (fun g => { g with chans := g.chans.map (fun (p : Nat × Chan) =>
    if p.1 / 96 == a && signalBand p.2.now.signal == n % 3 && p.2.lostAt.isNone then (p.1, p.2.lose d.time.now) else p) })
  let d := d.raiseI 0x0501 1 n (Bits.le 1 n)
  if (Bits.upTo 3).all (fun b => !(d.glink (3 * a + b)).up) && !d.gnss.antLost.getLsbD a then
    (d.modGnss (fun g => { g with antLost := g.antLost ||| BitVec.ofNat 4 (2 ^ a) })).raiseI 0x050C 1 a (Bits.le 1 a)
  else d

/-- A good frame joins its antenna's fit: the instant of its first sample, LINK_LAT before its arrival, and its count, over
the last 60,000 frames of all three bands (R141). -/
def Dev.fitFrame (n count : Nat) (d : Dev) : Dev :=
  let a := n / 3
  let at0 : Int := (d.dev : Int) - (d.gPar (0x23 + 4 * a) : Nat)
  d.modGnss (fun g => { g with fits := Bits.modAt g.fits a (fun l => ((at0, count) :: l).take 60000) })

/-- The sample count of an antenna at an instant, 2^-16 sample, by the least squares fit of R141; none before two instants. -/
def Dev.countAt (d : Dev) (a : Nat) (t : Nat) : Option Int :=
  match d.gnss.fits.getD a [] with
  | [] => none
  | (t0, c0) :: l =>
    let p := ((0 : Int), (0 : Int)) :: l.map (fun e => (e.1 - t0, Bits.diff32 e.2 c0))
    let n : Int := (p.length : Nat)
    let sx := Bits.sumI (p.map Prod.fst)
    let sy := Bits.sumI (p.map Prod.snd)
    let den := n * Bits.sumI (p.map (fun e => e.1 * e.1)) - sx * sx
    let num := n * Bits.sumI (p.map (fun e => e.1 * e.2)) - sx * sy
    if den ≤ 0 then none
    else some ((c0 : Int) * 65536 + (65536 * (sy * den + num * (n * ((t : Int) - t0) - sx))) / (n * den))

/-- LINK_FRAME (R140, R141): a good frame brings its samples, a bad one zeros; after a frame whose count cannot be read the
next one is expected 1,024 further (DESIGN CHOICE: notes/assumptions/93.md). -/
def Dev.linkFrame (n : Nat) (f : LinkFrame) (d : Dev) : Dev :=
  if !d.gnss.running || !d.linkUsed n then d
  else
    let x := d.glink n
    let cause := d.linkCause n f
    let next := match x.last with | some c => some ((c + 1024) % 2 ^ 32) | none => none
    let last := if cause = 0 ∨ 4 ≤ cause then some (Bits.at' f.bytes 2 4) else next
    let x := { x with last := last, samples := if cause = 0 then (f.bytes.drop 14).take 1024 else Bits.zeros 1024 }
    let put := fun (y : Link) (z : Dev) => z.modGnss (fun g => { g with links := Bits.setAt g.links n y })
    if cause = 0 then
      let x := { x with status := f.bytes.getD 1 0, agc := Bits.at' f.bytes 6 2 }
      let d := d.fitFrame n (Bits.at' f.bytes 2 4)
      let good := if x.good < 64 then x.good + 1 else 64
      if !x.up && good = 64 then
        let d := put { x with up := true, bad := 0, good := good } d
        (d.modGnss (fun g => { g with antLost := g.antLost &&& ~~~ BitVec.ofNat 4 (2 ^ (n / 3)) })).raiseI 0x0502 0 n
          (Bits.le 1 n ++ Bits.le 4 ((d.time.now - x.downAt) / 1000000))
      else put { x with bad := 0, good := good } d
    else
      let bad := if x.bad < 8 then x.bad + 1 else 8
      let falls := x.up && bad = 8
      let d := put { x with up := x.up && !falls, bad := bad, good := 0, badTotal := x.badTotal + 1,
                            downAt := if falls then d.time.now else x.downAt } d
      let d := d.raiseI 0x0503 0 n (Bits.le 1 n ++ Bits.le 1 cause)
      if falls then d.linkFalls n else d

/-! ### Channels (R147) -/

/-- An antenna's idle channels, rising. -/
def Dev.idleChannels (d : Dev) (a : Nat) : List Nat := (Bits.upTo 96).filter (fun c => (d.chan a c).now.system == 0xFF)

/-- What is held of a satellite. -/
def Dev.satData (d : Dev) (sys sat : Nat) : Option SatData := d.gnss.sats.find? (fun s => s.system == sys && s.sat == sat)

/-- The elevation of a satellite, 0.01°, the lowest where it is not known. -/
def Dev.elevation (d : Dev) (sys sat : Nat) : Int :=
  match d.satData sys sat with
  | some s => (s.dir.map Prod.fst).getD (-9000)
  | none => -9000

/-- A satellite is above `mask` (0.01°), or its elevation is not known. -/
def Dev.aboveMask (d : Dev) (sys sat : Nat) (mask : Int) : Bool :=
  match (d.satData sys sat).bind SatData.dir with
  | some e => decide (mask < e.1)
  | none => true

/-- The rank of a signal among the enabled ones of its system, from 1 (R147). -/
def Dev.signalRank (d : Dev) (sig : Nat) : Nat :=
  ((Bits.upTo (sig + 1)).filter (fun s => signalSystem s == signalSystem sig && (d.gPar 3).testBit s)).length

/-- Channel x gives way before channel y: a higher rank number, then a lower elevation. -/
def Dev.givesWay (d : Dev) (x y : Chan) : Bool :=
  let r := fun (c : Chan) => d.signalRank c.now.signal
  let e := fun (c : Chan) => d.elevation c.now.system c.now.sat
  decide (r y < r x) || (r x == r y && decide (e x < e y))

/-- The busy channel of an antenna that gives way first. -/
def Dev.weakest (d : Dev) (a : Nat) : Option Nat :=
  (Bits.upTo 96).foldl (fun (m : Option Nat) c =>
    match m with
    | none => some c
    | some b => if d.givesWay (d.chan a c) (d.chan a b) then some c else some b) none

/-- The channel of an antenna that tracks a signal of a satellite. -/
def Dev.channelOf (d : Dev) (a sys sat sig : Nat) : Option Nat :=
  (Bits.upTo 96).find? (fun c =>
    (d.chan a c).now.signal == sig && (d.chan a c).now.sat == sat && (d.chan a c).now.system == sys)

/-- A verified signal is handed to tracking (R145, R147): the channel that lost it takes it up again, an idle one begins, or
it preempts, at most once per second and antenna, a signal of a higher rank number. -/
def Dev.handover (a sat sig gloK : Nat) (d : Dev) : Dev :=
  let sys := signalSystem sig
  let t : Chan := { now := { system := sys, sat := sat, signal := sig, state := 1, gloK := if sys = 2 then gloK % 14 else 0xFF },
                    handedAt := d.time.now }
  match d.channelOf a sys sat sig with
  | some c => if (d.chan a c).lostAt.isSome then d.setChan (96 * a + c) t else d
  | none =>
    match d.idleChannels a with
    | c :: _ => d.setChan (96 * a + c) t
    | [] =>
      match d.weakest a with
      | none => d
      | some c =>
        let ok := match d.gnss.preemptAt.getD a none with | some t0 => decide (1000000000 ≤ d.time.now - t0) | none => true
        if ok && decide (d.signalRank sig < d.signalRank (d.chan a c).now.signal) then
          (d.setChan (96 * a + c) t).modGnss (fun g => { g with preemptAt := Bits.setAt g.preemptAt a (some d.time.now) })
        else d

/-! ### The acquisition bank (R144 to R146) -/

/-- A signal that the bank can search on its own: the others are reached by handover alone (Table 5.4). -/
def searchable (sig : Nat) : Bool := sig == 0 || sig == 4 || sig == 7 || sig == 9 || sig == 12 || sig == 14

/-- The cells of a search (Table 5.4). -/
def searchCells (k : SearchKind) (sig : Nat) : Nat :=
  match k with
  | .handover => 96
  | .aided => if sig = 4 then 1280 else 256
  | .cold => if sig = 4 then 793848 else if sig = 9 then 102300 else if sig = 7 then 25550 else 51150

/-- The dwell of a search, ns: of handover size 4 coherent periods, 4 ms for Galileo E1 and 1 ms for the others (PRESUMED
where Table 5.4 gives none: notes/assumptions/93.md). -/
def searchDwell (k : SearchKind) (sig : Nat) : Nat :=
  match k with
  | .handover => if sig = 4 then 16000000 else 4000000
  | _ => if sig = 4 then 16000000 else 8000000

/-- The satellites of a system that a search tries; a GLONASS search goes by frequency channel (PRESUMED numbers:
notes/assumptions/93.md). -/
def satNumbers (sys : Nat) : List Nat :=
  if sys = 0 then List.range' 1 32 else if sys = 1 then List.range' 1 36 else if sys = 2 then List.range 14
  else if sys = 3 then List.range' 1 63 else if sys = 4 then List.range' 193 10 else List.range' 120 39

/-- The lowest-coded enabled signal of a system that the bank can search. -/
def Dev.firstSignal (d : Dev) (sys : Nat) : Option Nat :=
  (Bits.upTo 15).find? (fun s => signalSystem s == sys && (d.gPar 3).testBit s && searchable s)

/-- A search of a satellite is aided with valid device time, a position and an almanac, otherwise cold (R144). -/
def Dev.searchKind (d : Dev) (sys sat : Nat) : SearchKind :=
  let known := match d.satData sys sat with | some s => s.almanac.isSome || s.ephemeris.isSome | none => false
  if d.timeValid && d.gnss.position.isSome && known then .aided else .cold

/-- A signal can reach the bank: its link is up. -/
def Dev.fed (d : Dev) (a sig : Nat) : Bool := (d.glink (3 * a + signalBand sig)).up

/-- The searches due on an antenna: lost signals for 10 s after the loss, further signals of tracked satellites, then
satellites that are not tracked, in descending elevation (R144, R147, R148, R166). -/
def Dev.searchesDue (d : Dev) (a : Nat) : List SearchJob :=
  let cs := (d.gnss.chans.filter (fun p => p.1 / 96 == a)).map Prod.snd
  let back := (cs.filter (fun c => c.lostAt.isSome && d.fed a c.now.signal)).map (fun c =>
    ({ ant := a, system := c.now.system, sat := c.now.sat, signal := c.now.signal, gloK := c.now.gloK, kind := .handover,
       cells := 96 } : SearchJob))
  let held := ((cs.filter (fun c => c.lostAt.isNone)).map (fun c => (c.now.system, c.now.sat, c.now.gloK))).eraseDups
  let more := held.flatMap (fun h => ((Bits.upTo 15).filter (fun s =>
      signalSystem s == h.1 && (d.gPar 3).testBit s && d.fed a s && (d.channelOf a h.1 h.2.1 s).isNone)).map (fun s =>
    ({ ant := a, system := h.1, sat := h.2.1, signal := s, gloK := h.2.2, kind := .handover, cells := 96 } : SearchJob)))
  let fresh := (Bits.upTo 6).flatMap (fun sys =>
    match d.firstSignal sys with
    | none => []
    | some sig => if !d.fed a sig then [] else
      ((satNumbers sys).filter (fun n => if sys = 2 then true else
          (d.channelOf a sys n sig).isNone && d.aboveMask sys n (100 * d.gPar 4))).map (fun n =>
        let k := d.searchKind sys n
        ({ ant := a, system := sys, sat := n, signal := sig, gloK := if sys = 2 then n else 0xFF, kind := k,
           cells := searchCells k sig } : SearchJob)))
  let order := fun (x y : SearchJob) => decide (d.elevation y.system y.sat ≤ d.elevation x.system x.sat)
  back ++ more ++ fresh.mergeSort order

/-- The searches packed into a pass of 16,384 cells: those that it ends, and those left for further passes (R144). -/
def packPass : Nat → List SearchJob → List SearchJob × List SearchJob
  | _, [] => ([], [])
  | room, j :: l =>
    if room = 0 then ([], j :: l)
    else if j.cells ≤ room then
      let (done, rest) := packPass (room - j.cells) l
      (j :: done, rest)
    else ([], { j with cells := j.cells - room } :: l)

/-- A search has ended: a detection is free; it goes to a second dwell on 3 × 3 cells, and from there to tracking (R145). -/
def Dev.searchEnds (d : Dev) (j : SearchJob) : Dev :=
  let (v, d) := d.gnssFree
  if v % 2 = 0 then d
  else if j.verify then d.handover j.ant (if j.system = 2 then (if j.kind = .handover then j.sat else 1 + v / 2 % 24) else j.sat) j.signal j.gloK
  else d.modGnss (fun g => { g with bank := { j with cells := 9, verify := true } :: g.bank })

/-- ACQUISITION_PASS: a pass ends for the searches packed into it. No pass starts at 100 % throttle or in a test of CORREL; at
x % the passes take 100 / (100 − x) of their time (R144 to R146, Table 15.4). -/
def Dev.acquisitionPass (d : Dev) : Dev :=
  if !d.gnss.running || decide (100 ≤ d.health.x) || d.testedThisFrame 1 || decide (d.time.now < d.gnss.passDue) then d
  else
    let all := if d.gnss.bank.isEmpty then (Bits.upTo d.antCount).flatMap d.searchesDue else d.gnss.bank
    let (done, rest) := packPass 16384 all
    let dwell := (done ++ rest.take 1).foldl (fun m j => Nat.max m (searchDwell j.kind j.signal)) 0
    let d := d.modGnss (fun g => { g with bank := rest, passDue := d.time.now + dwell * 100 / (100 - d.health.x) })
    done.foldl Dev.searchEnds d

/-! ### Tracking (R148, R149) -/

/-- TRACKING_LOSS_OF_LOCK (Table 5.5, R166). -/
def Dev.lossOfLock (a c : Nat) (d : Dev) : Dev :=
  let x := d.chan a c
  if x.now.system = 0xFF ∨ x.lostAt.isSome then d else d.setChan (96 * a + c) (x.lose d.time.now)

/-- REACQUISITION_EXPIRY: 10 s after the loss the channel is released (Table 5.5). -/
def Dev.reacqExpiry (a c : Nat) (d : Dev) : Dev :=
  match (d.chan a c).lostAt with
  | some t => if 10000000000 ≤ d.time.now - t then d.setChan (96 * a + c) {} else d
  | none => d

/-- What the loops of a channel run with (Table 5.5): carrier loop order and bandwidth in 0.1 Hz, DLL bandwidth in 0.01 Hz,
coherent integration in ms, early–late spacing in 0.1 chip, the component, the aiding velocity. -/
def Dev.loopOf (d : Dev) (x : Chan) : List Int :=
  let s := x.now.signal
  let fll := decide (d.time.now - x.handedAt < 200000000)
  let bw : Nat := if fll then 100 else if x.aid.isSome then d.gPar 7 else d.gPar 6
  let geo := signalSystem s == 5 || (s == 9 && (x.now.sat ≤ 5 || 59 ≤ x.now.sat))
  [if fll then 2 else 3, (bw : Int), (d.gPar 8 : Nat), if !x.sync then 1 else if geo then 2 else 20,
   if s = 3 ∨ s = 5 ∨ s = 6 ∨ s = 11 ∨ s = 13 then 5 else 1, (component s : Nat), x.aid.getD 0]

/-- The velocity of antenna a over the ground, north and east, by the vessel state record of the previous frame (R149). -/
def Dev.antVelocity (d : Dev) (a : Nat) : Int × Int :=
  let r := fun (i n : Nat) => Num.ofRaw n (d.fusion.record.getD i 0).toInt
  let psi := Num.radDeg (r 2 22)
  let w := Num.radDeg (r 7 24)
  let x := Num.frac (d.parI 8 (0x20 + 4 * a)) 1000
  let y := Num.frac (d.parI 8 (0x21 + 4 * a)) 1000
  let v := Num.mulV (rotation psi) [r 5 24 - Num.mul w y, r 6 24 + Num.mul w x, 0]
  (v.getD 0 0, v.getD 1 0)

/-- The line of sight to a satellite: north, east, down. -/
def sightOf (e : Int × Int) : Num.Vec :=
  let (sa, ca) := Num.sinCos (Num.radDeg (Num.frac e.2 100))
  let (se, ce) := Num.sinCos (Num.radDeg (Num.frac e.1 100))
  [Num.mul ce ca, Num.mul ce sa, -se]

/-- At every sub-tick each carrier NCO receives the line-of-sight velocity of its antenna while aiding is in force (R149). -/
def Dev.aidChannels (d : Dev) : Dev :=
  if !d.gnss.running then d
  else
    d.modGnss (fun g => { g with chans := g.chans.map (fun (p : Nat × Chan) =>
      let dir := (d.satData p.2.now.system p.2.now.sat).bind SatData.dir
      (p.1, { p.2 with aid := match (if g.aiding && p.2.lostAt.isNone then dir else none) with
        | some e =>
          let (vn, ve) := d.antVelocity (p.1 / 96)
          some (Bits.roundUp (Num.dot (sightOf e) [vn, ve, 0]) (2 ^ 46))
        | none => none })) })

/-! ### The latch (R150 to R152) -/

/-- One channel as the latch finds it (R148, R150): carrier lock takes 300 ms from handover at the least (FLL, then the mean over
100 ms); phase is positive for a decreasing range and the range follows it; the half cycle of a data component is resolved
with the preamble, of a pilot with its synchronisation (R143). What the loops measure is free, by the parameters they run
with; bit 4 waits for the solution and reads 0 until then (DESIGN CHOICE: notes/assumptions/93.md). -/
def Dev.latchChan (d : Dev) (v : Nat) (x : Chan) : Chan :=
  if x.lostAt.isSome then { x with now := { x.now with state := 0, lockTime := 0, cn0 := v % 6000 } }
  else
    let w := Config.channel v (d.loopOf x)
    let was := x.now.state.testBit 1
    let lock := was || (w.testBit 0 && decide (300000000 ≤ d.time.now - x.handedAt))
    let sync := x.sync || (lock && w.testBit 1)
    let pre := x.preamble || (sync && carriesNav x.now.signal && w.testBit 2)
    let half := lock && (if component x.now.signal = 0 then pre else sync)
    let slip := was && lock && w.testBit 3
    let step : Int := ((w / 2 ^ 32 % 2 ^ 48 : Nat) : Int) - 2 ^ 47
    let noise : Int := ((w / 2 ^ 80 % 2 ^ 32 : Nat) : Int) - 2 ^ 31
    let move := step * 299792458 * 16777216 / (4294967296 * 10000 * (carrier10k x.now.signal x.now.gloK : Int))
    let range := if was then ((x.now.range : Int) - move + noise) % 2 ^ 64 else ((w / 2 ^ 112 % 2 ^ 64 : Nat) : Int)
    { x with
      sync := sync, preamble := pre,
      now := { x.now with
        state := 1 + (if lock then 2 else 0) + (if half then 4 else 0) + (if slip then 8 else 0), cn0 := w / 2 ^ 176 % 6000,
        range := range.toNat, carrier := (((if was then (x.now.carrier : Int) else 0) + step) % 2 ^ 64).toNat,
        doppler := w / 2 ^ 192 % 2 ^ 32, lockTime := if lock then Bits.sat 65535 (x.now.lockTime + 2) else 0 } }

/-- Navigation data of a channel with its preamble: ephemeris, almanac and health of its satellite, each free. A
new ephemeris more than 5 km off the previous one or the almanac is refused (R142, R165). -/
def SatData.learn (v : Nat) (s : SatData) : SatData :=
  { s with
    ephemeris := if v % 4 = 0 then (if s.ephemeris.isSome && v / 4 % 2 == 0 then s.ephemeris else some (v / 16)) else s.ephemeris,
    almanac := if v / 8 % 2 = 0 then some (v / 32) else s.almanac,
    healthy := v / 64 % 4 != 0 }

/-- The satellites after the navigation data of this latch; alerts come with SBAS messages. -/
def learnSats (v : Nat) (chans : List Chan) (l : List SatData) : List SatData :=
  let sbas := chans.any (fun c => c.preamble && c.now.system == 5)
  let alerts := fun (x : SatData × Nat) => { x.1 with alert := sbas && (v / 2 ^ (2 * x.2)) % 4 == 3 }
  (chans.filter (fun c => c.preamble)).foldl (fun m c =>
    let s := (m.find? (fun s => s.system == c.now.system && s.sat == c.now.sat)).getD { system := c.now.system, sat := c.now.sat }
    Bits.putBy (fun s => s.system == c.now.system && s.sat == c.now.sat) (s.learn (v / 2 ^ (12 * c.now.sat + c.now.system))) m)
    (l.zipIdx.map alerts)

/-- Where the satellites stand at this latch: free, but known only with a position and orbit data (R147). -/
def Dev.placeSats (d : Dev) (v : Nat) (l : List SatData) : List SatData :=
  l.zipIdx.map (fun (x : SatData × Nat) =>
    let w := v / 2 ^ (40 * x.2)
    let dir : Int × Int := (((w % 18001 : Nat) : Int) - 9000, ((w / 2 ^ 20 % 36000 : Nat) : Int))
    { x.1 with dir := if d.gnss.position.isSome && (x.1.almanac.isSome || x.1.ephemeris.isSome) then some dir else none })

/-- Fusion reports DEGRADED: one of its DEGRADED faults stands. -/
def Dev.fusionDegraded (d : Dev) : Bool :=
  d.faults.active.any (fun s => s.code == 0x0605 || s.code == 0x0606 || s.code == 0x060B)

/-- The raw-output copy of a latch (R152). -/
def Dev.copyOf (d : Dev) : RawCopy :=
  { frame := d.gnss.latchFrame, time := d.frame.t0, valid := d.timeValid,
    linksUp := BitVec.ofNat 2 (flagBits [(Bits.upTo 3).all (fun b => (d.glink b).up), (Bits.upTo 3).all (fun b => (d.glink (3 + b)).up)]),
    tracks := d.gnss.latch }

/-- MEASUREMENT_LATCH at t0 (R149, R150): every channel of every antenna in use at one instant, each antenna's sample count from
its fit; satellites 2° below the mask are released (R147); the copy of the latch begins (R152). -/
def Dev.gnssLatchTick (d : Dev) : Dev :=
  if !d.gnss.running then d
  else
    let (v, d) := d.gnssFree
    let (w, d) := d.gnssFree
    let d := d.modGnss (fun g => { g with sats := d.placeSats w (learnSats v (g.chans.map Prod.snd) g.sats) })
    let d := d.modGnss (fun g => { g with chans := g.chans.filter (fun p =>
      d.aboveMask p.2.now.system p.2.now.sat (100 * (d.gPar 4 : Int) - 200)) })
    let ks := d.gnss.chans.map Prod.fst
    let d := ks.foldl (fun x k => x.fresh.setChan k (x.latchChan x.free (Bits.get (fun _ => ({} : Chan)) x.gnss.chans k))) d
    let d := d.modGnss (fun g => { g with
      latch := g.chans.map (fun p => (p.1, p.2.now)), counts := (Bits.upTo 4).map (fun a => d.countAt a d.frame.t0),
      latchFrame := d.frame.number, solving := true, solved := false,
      aiding := d.gPar 9 == 1 && !d.fusion.sflags.getLsbD 0 && !d.fusionDegraded && d.fusion.initialised })
    if d.antCount = 2 then d.modGnss (fun g => { g with copyOld := g.copy, copy := d.copyOf }) else d

/-- A channel record (Table 5.7). -/
def Track.bytes (x : Track) : List Byte :=
  if x.system = 0xFF then [0xFF] ++ Bits.zeros 31
  else Bits.le 1 x.system ++ Bits.le 1 x.sat ++ Bits.le 1 x.signal ++ Bits.le 1 x.state ++ Bits.le 2 x.cn0 ++ Bits.le 1 x.gloK ++
    [0] ++ Bits.le 8 x.range ++ Bits.le 8 x.carrier ++ Bits.le 4 x.doppler ++ Bits.le 2 x.lockTime ++ [0, 0]

/-- The newest complete copy: that of this frame's latch from t0+1.0 ms on, before that the one before (R152). -/
def Dev.rawCopy (d : Dev) : RawCopy :=
  if d.gnss.copy.frame = d.frame.number ∧ d.sinceT0 < 1000000 then d.gnss.copyOld else d.gnss.copy

/-- The payload of GNSS_RAW_READ: channels first to first + n - 1 of antenna a in the newest complete copy (R152). -/
def Dev.rawBytes (d : Dev) (a first n : Nat) : List Byte :=
  let c := d.rawCopy
  Bits.le 4 c.frame ++ Bits.le 8 c.time ++ Bits.le 1 a ++ Bits.le 1 n ++ Bits.le 1 first ++
    Bits.le 1 (flagBits [c.valid, c.linksUp.getLsbD a]) ++
    (Bits.upTo n).flatMap (fun i => (Bits.get (fun _ => ({} : Track)) c.tracks (96 * a + first + i)).bytes)

/-- GNSS_RAW_READ (R152); refused in quad-antenna configuration (R151). -/
def Dev.gnssRawOp (r : Req) (d : Dev) : OpRes :=
  let a := r.tgt % 256
  let first := r.tgt / 256 % 256
  let n := r.tgt / 65536 % 256
  let n := if n = 0 then 96 else n
  if d.antCount = 4 then refuse d stBadOpcode 3
  else if 2 ≤ a ∨ 2 ^ 24 ≤ r.tgt ∨ 96 < first + n then refuse d stRange
  else if maxPayload r.src.tr < 16 + 32 * n then refuse d stBadLength (16 + 32 * ((maxPayload r.src.tr - 16) / 32))
  else
    reads d (d.rawBytes a first n)

end Sys2Proof.Machine
end

