-- ==== Sys2Proof/Machine/Gnss.lean ====
section
/-! DEFINITION. Machine/Gnss.lean: the ranging engine from its latch on (05 R153 to R171): corrections, solution, attitude,
points, store, start and stop. What the solution finds in the measurements is free (notes/assumptions/13.md); what is
decided on it follows the rules. -/

namespace Sys2Proof.Machine

open Sys2Proof

/-! ### Corrections (R161 to R164) -/

/-- Age of a stream's newest accepted MSM epoch in ns; none where there is none. -/
def Corr.age (c : Corr) (now : Nat) : Option Nat := c.epochAt.map (fun t => now - t)

/-- A stream is valid (R164). -/
def Dev.streamValid (d : Dev) (s : Nat) : Bool :=
  d.gPar (0x10 + 4 * s) != 0xFF &&
    (match (d.gnss.streams.getD s {}).age d.time.now with
     | some a => decide (a ≤ 1000000000 * d.gPar 0xC) | none => false)

/-- The message types of Table 5.10: 1 MSM, 2 station reference point, 3 other; none where it is ignored. -/
def rtcmKind (t : Nat) : Option Nat :=
  if (1074 ≤ t ∧ t ≤ 1077) ∨ (1084 ≤ t ∧ t ≤ 1087) ∨ (1094 ≤ t ∧ t ≤ 1097) ∨ (1124 ≤ t ∧ t ≤ 1127) then some 1
  else if t = 1005 ∨ t = 1006 then some 2
  else if t = 1007 ∨ t = 1008 ∨ t = 1033 ∨ t = 1230 then some 3 else none

/-- The system of an MSM message. -/
def msmSystem (t : Nat) : Nat := if t < 1080 then 0 else if t < 1090 then 2 else if t < 1100 then 1 else 3

/-- The signal code of Table 5.3 that an MSM signal number names (PRESUMED from RTCM 3: notes/assumptions/93.md). -/
def msmSignal (sys i : Nat) : Option Nat :=
  let band := fun (lo hi c : Nat) (other : Option Nat) => if lo ≤ i ∧ i ≤ hi then some c else other
  if sys = 0 then band 2 2 0 (band 30 32 1 (band 15 17 2 (band 22 24 3 none)))
  else if sys = 1 then band 2 6 4 (band 22 24 5 (band 14 16 6 none))
  else if sys = 2 then band 2 2 7 (band 8 8 8 none)
  else band 2 4 9 (band 30 32 10 (band 22 24 11 none))

/-- n bits of a message from bit `at0` on, most significant first; 0 past its end. -/
def bitField (p : List Byte) (at0 n : Nat) : Nat :=
  if 8 * p.length < at0 + n then 0
  else (p.foldl (fun a b => 256 * a + b.toNat) 0) / 2 ^ (8 * p.length - at0 - n) % 2 ^ n

/-- A two's complement field of a message. -/
def bitFieldI (p : List Byte) (at0 n : Nat) : Int :=
  let x := bitField p at0 n
  if x < 2 ^ (n - 1) then x else (x : Int) - (2 ^ n : Nat)

/-- The signals of an MSM message with their lock-time indicators (PRESUMED layout of RTCM 3: notes/assumptions/93.md). -/
def msmCells (typ : Nat) (p : List Byte) : List CorrCell :=
  let bits := bitField p
  let sats := (List.range' 1 64).filter (fun i => bits (72 + i) 1 == 1)
  let sigs := (List.range' 1 32).filter (fun i => bits (136 + i) 1 == 1)
  let held := ((sats.flatMap (fun s => sigs.map (fun g => (s, g)))).zipIdx.filter (fun e => bits (169 + e.2) 1 == 1)).map Prod.fst
  let m := typ % 10
  let from0 := 169 + sats.length * sigs.length + sats.length * (if m = 5 ∨ m = 7 then 36 else 18) +
    held.length * (if m ≤ 5 then 37 else 44)
  let w := if m ≤ 5 then 4 else 10
  held.zipIdx.filterMap (fun e => (msmSignal (msmSystem typ) e.1.2).map (fun c =>
    { system := msmSystem typ, sat := e.1.1, signal := c, lock := bits (from0 + w * e.2) w }))

/-- The distance in ns of an MSM epoch from the latch time, by the epoch's own scale (RTCM 3): GPS and Galileo time of week,
BeiDou 14 s behind it, GLONASS time of day at UTC + 3 h. The result is epoch − t0, to the nearer side. -/
def Dev.epochDiff (d : Dev) (typ field : Nat) : Int :=
  let t : Int := (d.frame.t0 : Nat)
  let gps := t - 315964819000000000
  let near := fun (x m : Int) => let r := x % m; if 2 * r < m then r else r - m
  if 1084 ≤ typ ∧ typ ≤ 1087 then
    near (1000000 * (field % 2 ^ 27 : Nat) - (t - 1000000000 * d.utcOffset + 10800000000000)) 86400000000000
  else if 1124 ≤ typ then near (1000000 * (field : Int) - (gps - 14000000000)) 604800000000000
  else near (1000000 * (field : Int) - gps) 604800000000000

/-- Earth-centred coordinates in m of a point by latitude, longitude (rad) and height on WGS 84, with its axes north, east
and up (R179). -/
def ecefOf (lat lon h : Int) : Num.Vec × Num.Mat :=
  let (sp, cp) := Num.sinCos lat
  let (sl, cl) := Num.sinCos lon
  let e2 := Num.frac 669437999014 100000000000000
  let n := Num.div (6378137 * Num.one) (Num.sqrt (Num.one - Num.mul e2 (Num.mul sp sp)))
  ([Num.mul (n + h) (Num.mul cp cl), Num.mul (n + h) (Num.mul cp sl), Num.mul (Num.mul n (Num.one - e2) + h) sp],
   [[-Num.mul sp cl, -Num.mul sp sl, cp], [-sl, cl, 0], [Num.mul cp cl, Num.mul cp sl, sp]])

/-- Antenna 0 in earth-centred coordinates, m; none before a position is known. -/
def Dev.antennaEcef (d : Dev) : Option Num.Vec :=
  d.gnss.position.map (fun p =>
    let (o, axes) := ecefOf (Num.radDeg (Num.frac (d.parI 0xC 2) 10000000)) (Num.radDeg (Num.frac (d.parI 0xC 3) 10000000))
      (Num.frac (d.parI 0xC 4) 1000)
    Num.addV o (Num.mulV (Num.transpose 3 axes) [Num.ofRaw 10 p.1, Num.ofRaw 10 p.2.1, Num.ofRaw 10 p.2.2]))

/-- A station stands within CORR_MAX_DIST of antenna 0; before a position is known the distance is not judged (DESIGN CHOICE:
notes/assumptions/93.md). -/
def Dev.stationNear (d : Dev) (c : Corr) : Bool :=
  match d.antennaEcef with
  | none => true
  | some a =>
    let v := Num.subV [Num.frac c.arp.1 10000, Num.frac c.arp.2.1 10000, Num.frac c.arp.2.2 10000] a
    let m := 1000 * (d.gPar 0xD : Int) * Num.one
    decide (Num.dotX v v ≤ m * m)

/-- A frame is rejected (R163). -/
def Dev.corrReject (s reason : Nat) (d : Dev) : Dev := d.raiseI 0x0507 0 s (Bits.le 1 s ++ Bits.le 1 reason)

/-- An accepted MSM message of stream s: its signals and epoch, where it is not older than the newest one; a satellite whose
lock-time indicator decreased has its ambiguities reset (R163). -/
def Dev.corrMsm (s typ station : Nat) (p : List Byte) (e : Int) (d : Dev) : Dev :=
  let c := d.gnss.streams.getD s {}
  let at0 := ((d.frame.rawT0 : Int) + e).toNat
  if (match c.epochAt with | some t => decide (at0 < t) | none => false) then d
  else
    let sys := msmSystem typ
    let cells := msmCells typ p
    let fell := fun (sat : Nat) => c.cells.any (fun x => x.system == sys && x.sat == sat &&
      cells.any (fun y => y.sat == sat && y.signal == x.signal && decide (y.lock < x.lock)))
    let used := d.gnss.stream == some s
    let next := { c with station := station, stale := false, epochAt := some at0,
                         cells := c.cells.filter (fun x => x.system != sys) ++ cells }
    d.modGnss (fun g => { g with
      streams := Bits.setAt g.streams s next,
      ambiguities := if used then g.ambiguities.filter (fun x => !(x.2.1 == sys && fell x.2.2.1)) else g.ambiguities })

/-- What a message of Table 5.10 that is neither MSM nor a reference point leaves: descriptors as received, GLONASS biases. -/
def Corr.record (typ : Nat) (p : List Byte) (c : Corr) : Corr :=
  if typ = 1230 then
    let n := ((Bits.upTo 4).filter (fun i => bitField p (28 + i) 1 == 1)).length
    { c with gloBias := (Bits.upTo n).map (fun i => bitFieldI p (32 + 16 * i) 16) }
  else { c with descriptors := Bits.putBy (fun x => x.1 == typ) (typ, p) c.descriptors }

/-- One frame with a correct CRC: whether it is accepted. A message too short for its own fields counts as one with a wrong CRC
(DESIGN CHOICE: notes/assumptions/93.md). -/
def Dev.corrFrame (s : Nat) (p : List Byte) (d : Dev) : Bool × Dev :=
  let typ := bitField p 0 12
  let station := bitField p 12 12
  let c := d.gnss.streams.getD s {}
  let want := d.gPar (0x13 + 4 * s)
  let set := fun (x : Corr) (z : Dev) => z.modGnss (fun g => { g with streams := Bits.setAt g.streams s x })
  match rtcmKind typ with
  | none => (false, d)
  | some k =>
    if p.length < (if k = 1 then 22 else if k = 2 then 19 else 4) then (false, d.corrReject s 1)
    else if want != 0xFFFFFFFF && station != want then (false, d.corrReject s 2)
    else if k = 2 then
      (true, set { c with arpAt := some d.time.now, arp := (bitFieldI p 34 38, bitFieldI p 74 38, bitFieldI p 114 38) } d)
    else if k = 3 then (true, set (c.record typ p) d)
    else if (match c.arpAt with | some t => decide (60000000000 < d.time.now - t) | none => true) then (false, d.corrReject s 3)
    else if !d.stationNear c then (false, d.corrReject s 4)
    else
      let e := d.epochDiff typ (bitField p 24 30)
      if 1000000000 < Bits.absI e then (false, d.corrReject s 5)
      else (true, d.corrMsm s typ station p e)

/-- Whole frames at the head of a stream's bytes: those accepted, and what is left. -/
def Dev.corrTake : Nat → Nat → List Byte → Nat → Dev → Nat × List Byte × Dev
  | 0, _, bs, n, d => (n, bs, d)
  | fuel + 1, s, bs, n, d =>
    let bs := bs.dropWhile (fun b => b != 0xD3)
    let len := (bs.getD 1 0).toNat % 4 * 256 + (bs.getD 2 0).toNat
    if bs.length < 3 ∨ bs.length < len + 6 then (n, bs, d)
    else
      let rest := bs.drop (len + 6)
      let crc := (bs.drop (len + 3)).take 3
      if (Bits.crc24q (bs.take (len + 3))).toNat = crc.foldl (fun a b => 256 * a + b.toNat) 0 then
        let (ok, d) := d.corrFrame s ((bs.drop 3).take len)
        Dev.corrTake fuel s rest (n + Bits.b2n ok) d
      else Dev.corrTake fuel s rest n (d.corrReject s 1)

/-- Bytes reach a stream: the number of frames accepted. -/
def Dev.corrBytes (s : Nat) (bs : List Byte) (d : Dev) : Nat × Dev :=
  let all := (d.gnss.streams.getD s {}).buffer ++ bs
  let (n, left, d) := Dev.corrTake (all.length / 6 + 1) s all 0 d
  (n, d.modGnss (fun g => { g with streams := Bits.modAt g.streams s (fun (c : Corr) => { c with buffer := left }) }))

/-- GNSS_CORR_FEED (R162). -/
def Dev.corrFeedOp (r : Req) (d : Dev) : OpRes :=
  let s := r.tgt
  if 4 ≤ s then refuse d stRange
  else if d.gPar (0x10 + 4 * s) != 0 then refuse d stRange
  else
    let (n, d) := d.corrBytes s ((r.payload.drop 4).take (Bits.at' r.payload 0 4))
    done d n

/-- CORRECTION_DATAGRAM: interface 0 PORT_C, 1 PORT_D (R162). -/
def Dev.corrDatagram (iface port : Nat) (bs : List Byte) (d : Dev) : Dev :=
  if !d.portUp (2 + iface) then d
  else
    (Bits.upTo 4).foldl (fun x s =>
      if x.gPar (0x10 + 4 * s) == 1 && x.gPar (0x11 + 4 * s) == port && (x.gPar (0x12 + 4 * s)).testBit iface then
        (x.corrBytes s bs).2 else x) d

/-- CORRECTIONS_STALE (R164, R166). -/
def Dev.corrStale (s : Nat) (d : Dev) : Dev :=
  let c := d.gnss.streams.getD s {}
  match c.age d.time.now with
  | some a =>
    if !c.stale && decide (1000000000 * d.gPar 0xC < a) then
      (d.modGnss (fun g => { g with streams := Bits.setAt g.streams s { c with stale := true } })).raiseI 0x0506 1 s
        (Bits.le 1 s ++ Bits.le 4 (a / 1000000))
    else d
  | none => d

/-! ### What enters the solution (R154, R155, R165) -/

/-- The satellites an antenna uses: system and number, each once. -/
def Dev.satsUsed (d : Dev) (a : Nat) : List (Nat × Nat) :=
  ((d.gnss.latch.filter (fun p => p.1 / 96 == a && p.2.state.testBit 4)).map (fun p => (p.2.system, p.2.sat))).eraseDups

/-- An antenna has a position: at least 3 + S satellites, where QZSS and SBAS count with GPS (R154). -/
def Dev.antPosition (d : Dev) (a : Nat) : Bool :=
  let l := d.satsUsed a
  let s := ((l.map (fun p => if p.1 = 4 ∨ p.1 = 5 then 0 else p.1)).eraseDups).length
  !l.isEmpty && decide (3 + s ≤ l.length)

/-- An antenna's position of this frame is issued (R154, R165). -/
def Dev.antIssued (d : Dev) (a : Nat) : Bool :=
  d.antPosition a && !(d.gnss.antStale.getLsbD a) && d.gnss.dropped != some a

/-- A latched channel enters the solution (R155, Tables 5.11 to 5.13). -/
def Dev.enters (d : Dev) (k : Nat) (t : Track) : Bool :=
  t.system != 0xFF && t.state.testBit 0 && t.state.testBit 1 && decide (k / 96 < d.antCount) && d.gnss.dropped != some (k / 96) &&
    d.aboveMask t.system t.sat (100 * d.gPar 4) && decide (100 * d.gPar 5 ≤ t.cn0) && (t.system != 5 || d.gPar 0xE == 1) &&
    (match d.satData t.system t.sat with | some s => s.healthy && s.ephemeris.isSome | none => false) &&
    !(d.gnss.excluded.any (fun e => e.1 == t.system && e.2.1 == t.sat))

/-- The channels that enter the solution are marked as used. -/
def Dev.markUsed (d : Dev) : Dev :=
  d.modGnss (fun g => { g with latch := g.latch.map (fun (p : Nat × Track) =>
    (p.1, { p.2 with state := p.2.state % 16 + (if d.enters p.1 p.2 then 16 else 0) })) })

/-- The satellites excluded by broadcast health and SBAS alerts, with their row of Table 5.11. -/
def Dev.standing (d : Dev) : List (Nat × Nat × Nat) :=
  d.gnss.sats.flatMap (fun s => (if s.healthy then [] else [(s.system, s.sat, 1)]) ++
    (if s.alert && d.gPar 0xE == 1 then [(s.system, s.sat, 3)] else []))

/-- The residual test of an antenna, whose outcome is free: at most twice the worst satellite is excluded, then the
antenna's position is not issued (Table 5.11). -/
def Dev.residualTest : Nat → Nat → Dev → Dev
  | 0, _, d => d
  | n + 1, a, d =>
    let l := d.satsUsed a
    let (v, d) := d.gnssFree
    if l.isEmpty || v % 2 == 0 then d
    else if n = 0 then d.modGnss (fun g => { g with antStale := g.antStale ||| BitVec.ofNat 4 (2 ^ a) })
    else
      let w := l.getD (v / 2 % l.length) (0, 0)
      Dev.residualTest n a (d.modGnss (fun g => { g with excluded := g.excluded ++ [(w.1, w.2, 4)] })).markUsed

/-- The checks of Table 5.11 on satellites; each new exclusion raises 0509h (R165). -/
def Dev.integrity (d : Dev) : Dev :=
  let old := d.gnss.excluded
  let d := (d.modGnss (fun g => { g with excluded := d.standing, antStale := 0 })).markUsed
  let d := (Bits.upTo d.antCount).foldl (fun x a => x.residualTest 3 a) d
  (d.gnss.excluded.eraseDups.filter (fun e => !(old.contains e))).foldl (fun x e =>
    x.raise 0x0509 0 (Bits.le 1 e.1 ++ Bits.le 1 e.2.1 ++ Bits.le 1 e.2.2)) d

/-! ### Mode and ambiguities (R156, R161, R164) -/

/-- The carrier phases that stream s serves: antenna, system, satellite, signal. QZSS and SBAS take no part (R161). -/
def Dev.phases (d : Dev) (s : Nat) : List (Nat × Nat × Nat × Nat) :=
  let cells := (d.gnss.streams.getD s {}).cells
  (d.gnss.latch.filter (fun p => p.2.state.testBit 4 && p.2.system != 4 && p.2.system != 5 &&
    cells.any (fun c => c.system == p.2.system && c.sat == p.2.sat && c.signal == p.2.signal))).map (fun p =>
      (p.1 / 96, p.2.system, p.2.sat, p.2.signal))

/-- The double differences of phases: all but the first of each antenna and signal. -/
def doubleDiffs (l : List (Nat × Nat × Nat × Nat)) : List (Nat × Nat × Nat × Nat) :=
  (l.zipIdx.filter (fun e => (l.take e.2).any (fun f => f.1 == e.1.1 && f.2.1 == e.1.2.1 && f.2.2.2 == e.1.2.2.2))).map Prod.fst

/-- A phase slipped since the previous latch (Table 5.5). -/
def Dev.slipped (d : Dev) (x : Nat × Nat × Nat × Nat) : Bool :=
  d.gnss.latch.any (fun p => p.1 / 96 == x.1 && p.2.system == x.2.1 && p.2.sat == x.2.2.1 && p.2.signal == x.2.2.2 && p.2.state.testBit 3)

/-- The mode with stream s in use, the highest row of Table 5.8 whose condition holds, and the ambiguities held: which are newly
fixed, and the ratio, are free by the biases of message 1230. A moved stream or station resets every ambiguity, and
RTK_FIXED drops to RTK_FLOAT (R164). -/
def Dev.rtk (d : Dev) (s v w : Nat) (moved : Bool) : Nat × List (Nat × Nat × Nat × Nat) :=
  let dd := doubleDiffs (d.phases s)
  let kept := if moved then [] else d.gnss.ambiguities.filter (fun x => dd.contains x && !d.slipped x)
  let v := Config.channel v (d.gnss.streams.getD s {}).gloBias
  let good := decide (d.gPar 0xA ≤ w % 1000) && !moved
  let held := if good then (dd.zipIdx.filter (fun e => kept.contains e.1 || v.testBit e.2)).map Prod.fst else kept
  (if good && decide (5 ≤ held.length) then 4 else if !dd.isEmpty || (moved && d.gnss.mode == 4) then 3 else 2, held)

/-! ### Attitude (R157) -/

/-- The two antennas of a baseline. -/
def baselineAnts (b : Nat) : Nat × Nat :=
  if b = 0 then (0, 1) else if b = 1 then (0, 2) else if b = 2 then (0, 3) else if b = 3 then (1, 2) else if b = 4 then (1, 3) else (2, 3)

/-- A baseline in the body frame, mm: its first antenna as seen from its second (DEDUCED from the chapter's worked example:
notes/assumptions/93.md). -/
def Dev.baselineVec (d : Dev) (b : Nat) : Int × Int × Int :=
  let (p, q) := baselineAnts b
  let c := fun (k : Nat) => d.parI 8 (0x20 + 4 * p + k) - d.parI 8 (0x20 + 4 * q + k)
  (c 0, c 1, c 2)

/-- Two directions are not collinear. -/
def notCollinear (a b : Int × Int × Int) : Bool :=
  !(a.1 * b.2.1 == a.2.1 * b.1 && a.1 * b.2.2 == a.2.2 * b.1 && a.2.1 * b.2.2 == a.2.2 * b.2.1)

/-- The square of a vector's length. -/
def square3 (v : Int × Int × Int) : Int := v.1 * v.1 + v.2.1 * v.2.1 + v.2.2 * v.2.2

/-- The length error of a candidate (2^-20 m) for a baseline, in 2^-20 mm. -/
def Dev.lengthError (d : Dev) (b : Nat) (v : Int × Int × Int) : Int :=
  Fix.sqrtI (square3 v * 1000000) - Fix.sqrtI (square3 (d.baselineVec b) * 1099511627776)

/-- A free vector of 32-bit components. -/
def freeVec (v : Nat) : Int × Int × Int :=
  (Bits.int32 (BitVec.ofNat 32 v), Bits.int32 (BitVec.ofNat 32 (v / 2 ^ 32)), Bits.int32 (BitVec.ofNat 32 (v / 2 ^ 64)))

/-- The n candidates left for a baseline, best first: one of a wrong length is rejected with 0508h and the next is tested; one of
the right length is fixed with a ratio of RATIO_MIN, else it stays a float (R157). Candidates and ratios are free. -/
def Dev.fixBaseline : Nat → Nat → Dev → (Nat × (Int × Int × Int)) × Dev
  | 0, b, d => ((3, d.gnss.fix.vectors.getD b (0, 0, 0)), d)
  | n + 1, b, d =>
    let (v, d) := d.gnssFree
    let e := d.lengthError b (freeVec v)
    if (d.gPar 0xB : Int) * 1048576 < Bits.absI e then
      Dev.fixBaseline n b (d.raiseI 0x0508 0 b (Bits.le 1 b ++ Bits.leI 4 (Bits.roundUp e 1048576)))
    else ((if d.gPar 0xA ≤ v / 2 ^ 96 % 1000 then 2 else 1, freeVec v), d)

/-- A baseline at this latch: status none where an antenna has no measurements in the solution. How many candidates the search
gives is free; without one the baseline is a float. -/
def Dev.baselineStep (b : Nat) (d : Dev) : Dev :=
  let (p, q) := baselineAnts b
  let put := fun (x : Nat × (Int × Int × Int)) (z : Dev) => z.modGnss (fun g =>
    { g with baselines := Bits.setAt g.baselines b x.1, fix := { g.fix with vectors := Bits.setAt g.fix.vectors b x.2 } })
  if d.antCount ≤ q ∨ (d.satsUsed p).isEmpty ∨ (d.satsUsed q).isEmpty then put (0, d.gnss.fix.vectors.getD b (0, 0, 0)) d
  else
    let (v, d) := d.gnssFree
    if v % 16 = 0 then put (1, freeVec (v / 16)) d
    else
      let (x, d) := d.fixBaseline (v % 16) b
      put x d

/-- The rotation from body to north, east and down by heading, pitch and roll, with one factor replaced by its derivative
(0 heading, 1 pitch, 2 roll; 3 none). -/
def attitudeOf (x : Num.Vec) (k : Nat) : Num.Mat :=
  let (sh, ch) := Num.sinCos (x.getD 0 0)
  let (sp, cp) := Num.sinCos (x.getD 1 0)
  let (sr, cr) := Num.sinCos (x.getD 2 0)
  let h := if k = 0 then [[-sh, -ch, 0], [ch, -sh, 0], [0, 0, 0]] else [[ch, -sh, 0], [sh, ch, 0], [0, 0, Num.one]]
  let p := if k = 1 then [[-sp, 0, cp], [0, 0, 0], [-cp, 0, -sp]] else [[cp, 0, sp], [0, Num.one, 0], [-sp, 0, cp]]
  let r := if k = 2 then [[0, 0, 0], [0, -sr, -cr], [0, cr, -sr]] else [[Num.one, 0, 0], [0, cr, -sr], [0, sr, cr]]
  Num.mulM 3 (Num.mulM 3 h p) r

/-- One step of the least squares fit of the angles in `ks` to baselines (body, measured). -/
def fitStep (ks : List Nat) (obs : List (Num.Vec × Num.Vec)) (x : Num.Vec) : Num.Vec :=
  let r0 := attitudeOf x 3
  let cols := ks.map (fun k => let m := attitudeOf x k; obs.flatMap (fun o => Num.mulV m o.1))
  let res := obs.flatMap (fun o => Num.subV o.2 (Num.mulV r0 o.1))
  let dx := Num.mulV (Num.inverse (cols.map (fun a => cols.map (Num.dot a)))) (cols.map (Num.dot res))
  (Bits.upTo 3).map (fun k => Num.wrapPi (x.getD k 0 + dx.getD (ks.idxOf k) 0))

/-- Repeated steps of the fit. -/
def fitGo : Nat → List Nat → List (Num.Vec × Num.Vec) → Num.Vec → Num.Vec
  | 0, _, _, x => x
  | n + 1, ks, obs, x => fitGo n ks obs (fitStep ks obs x)

/-- The fixed baselines. -/
def Dev.fixedBaselines (d : Dev) : List Nat := (Bits.upTo 6).filter (fun b => d.gnss.baselines.getD b 0 == 2)

/-- Pitch and roll are both given: two fixed baselines are not collinear. -/
def Dev.twoBaselines (d : Dev) : Bool :=
  d.fixedBaselines.any (fun a => d.fixedBaselines.any (fun b => notCollinear (d.baselineVec a) (d.baselineVec b)))

/-- The tilt along a single baseline is pitch where it lies at most 45° off the centreline, else roll (DESIGN CHOICE:
notes/assumptions/93.md). -/
def Dev.tiltIsPitch (d : Dev) : Bool :=
  match d.fixedBaselines with
  | b :: _ => decide (Bits.absI (d.baselineVec b).2.1 ≤ Bits.absI (d.baselineVec b).1)
  | [] => true

/-- Heading, pitch and roll in rad by least squares from the fixed baselines; equal weights, Gauss and Newton from level with the
first baseline's heading (DESIGN CHOICE: notes/assumptions/93.md). -/
def Dev.attitudeFit (d : Dev) : Num.Vec :=
  let m := fun (v : Int × Int × Int) => [Num.frac v.1 1000, Num.frac v.2.1 1000, Num.frac v.2.2 1000]
  let obs := d.fixedBaselines.map (fun b =>
    let v := d.gnss.fix.vectors.getD b (0, 0, 0)
    (m (d.baselineVec b), [Num.ofRaw 20 v.1, Num.ofRaw 20 v.2.1, -Num.ofRaw 20 v.2.2]))
  let (b, v) := obs.headD ([0, 0, 0], [0, 0, 0])
  let psi := Num.atan2 (v.getD 1 0) (v.getD 0 0) - Num.atan2 (b.getD 1 0) (b.getD 0 0)
  fitGo 8 (if d.twoBaselines then [0, 1, 2] else if d.tiltIsPitch then [0, 1] else [0, 2]) obs [psi, 0, 0]

/-- Degrees with 22 fraction bits of an angle in rad. -/
def deg22 (a : Int) : Int := Num.toRaw 22 (Num.degRad a)

/-- The attitude of this latch: mode, angles from the accepted baselines, free sigmas. A baseline newly fixed begins the
settling again (DEDUCED from the chapter's worked example: notes/assumptions/93.md). -/
def Dev.attitudeStep (d : Dev) : Dev :=
  let was := d.gnss.baselines
  let d := (Bits.upTo 6).foldl (fun x b => x.baselineStep b) d
  let (v, d) := d.gnssFree
  let fixed := d.fixedBaselines
  let att := if !fixed.isEmpty then 2 else if (Bits.upTo 6).any (fun b => d.gnss.baselines.getD b 0 == 1) then 1 else 0
  let fresh := fixed.any (fun b => was.getD b 0 != 2)
  let x := d.attitudeFit
  let two := d.twoBaselines
  d.modGnss (fun g => { g with
    attitude := att, attRun := if att = 2 && g.attitude == 2 && !fresh then Bits.sat 25 (g.attRun + 1) else 0,
    fix := { g.fix with
      angles := if att = 2 then (deg22 (x.getD 0 0 % (2 * Num.pi)) % 1509949440, deg22 (x.getD 1 0), deg22 (x.getD 2 0)) else g.fix.angles,
      angleSigmas := freeVec v,
      pitchOk := att != 2 || two || d.tiltIsPitch, rollOk := att != 2 || two || !d.tiltIsPitch } })

/-! ### Positions (R154, R156, R165) -/

/-- PCO_UP of band 0 of an antenna, 2^-10 m. -/
def Dev.pcoUp (d : Dev) (a : Nat) : Int := Bits.roundUp (d.parI 8 (0x30 + 4 * a) * 1024) 10000

/-- The positions, sigmas and PDOP of this latch: free, at the phase centre of band 0; the biases go on from what they were by
free steps (R154). -/
def Dev.positionStep (d : Dev) : Dev :=
  let d := (Bits.upTo d.antCount).foldl (fun x a =>
    let (v, x) := x.gnssFree
    if !(x.antIssued a) then x
    else
      let p := freeVec v
      x.modGnss (fun g => { g with
        position := if a = 0 ∨ g.position.isNone then some p else g.position,
        fix := { g.fix with positions := Bits.setAt g.fix.positions a (p.1, p.2.1, p.2.2 + x.pcoUp a),
                            sigmas := Bits.setAt g.fix.sigmas a (freeVec (v / 2 ^ 96)) } })) d
  let (v, d) := d.gnssFree
  d.modGnss (fun g => { g with
    fix := { g.fix with pdop := Bits.int32 (BitVec.ofNat 32 v) },
    biases := g.biases.zipIdx.map (fun x => x.1 + ((v / 2 ^ (32 + 16 * x.2) % 65536 : Nat) : Int) - 32768) })

/-- The antenna furthest from where the fixed attitude and the geometry put it, and by how much (m). -/
def Dev.furthest (d : Dev) : Option (Nat × Int) :=
  let l := (Bits.upTo d.antCount).filter d.antIssued
  let g := d.gnss.fix
  let r := attitudeOf [Num.radDeg (Num.ofRaw 22 g.angles.1), Num.radDeg (Num.ofRaw 22 g.angles.2.1), Num.radDeg (Num.ofRaw 22 g.angles.2.2)] 3
  let off := l.map (fun a =>
    let p := g.positions.getD a (0, 0, 0)
    let b := (Bits.upTo 3).map (fun k => Num.frac (d.parI 8 (0x20 + 4 * a + k)) 1000)
    (a, Num.subV [Num.ofRaw 10 p.1, Num.ofRaw 10 p.2.1, -Num.ofRaw 10 (p.2.2 - d.pcoUp a)] (Num.mulV r b)))
  let mean := (sumForces (off.map Prod.snd)).map (fun x => x / ((if l.isEmpty then 1 else l.length : Nat) : Int))
  off.foldl (fun (m : Option (Nat × Int)) e =>
    let v := Num.subV e.2 mean
    let x := Num.sqrt (Num.dot v v)
    match m with | some b => if b.2 < x then some (e.1, x) else m | none => some (e.1, x)) none

/-- Antenna agreement (Table 5.11): in a fixed solution with fixed attitude the antenna furthest out, by more than three times
BASELINE_TOL, leaves the solution until the next fix: until an ambiguity or a baseline is newly fixed (DESIGN CHOICE:
notes/assumptions/93.md). -/
def Dev.agreement (newFix : Bool) (d : Dev) : Dev :=
  let d := if newFix then d.modGnss (fun g => { g with dropped := none }) else d
  if d.gnss.mode = 4 ∧ d.gnss.attitude = 2 ∧ d.twoBaselines ∧ d.gnss.dropped = none then
    match d.furthest with
    | some (a, x) => if 3 * Num.frac (d.gPar 0xB) 1000 < x then d.modGnss (fun g => { g with dropped := some a }) else d
    | none => d
  else d

/-! ### The solution (R153 to R160) -/

/-- GNSS_SOLUTION_COMPLETE before t0+2.0 ms: what the solution is (R153 to R158, R164, R165). Its points are written at
t0+2.0 ms. -/
def Dev.solutionComplete (d : Dev) : Dev :=
  if !d.gnss.running || !d.gnss.solving || d.gnss.solved || decide (2000000 ≤ d.sinceT0) then d
  else
    let d := d.integrity
    let (v, d) := d.gnssFree
    let (w, d) := d.gnssFree
    let old := d.gnss
    let none0 := (Bits.upTo d.antCount).all (fun a => !d.antPosition a)
    let stream := if none0 then none else (Bits.upTo 4).find? d.streamValid
    let station := match stream with | some s => (old.streams.getD s {}).station | none => 0xFFFFFFFF
    let moved := stream.isSome && old.stream.isSome && (stream != old.stream || station != old.station)
    let (mode, held) := if none0 then (0, []) else match stream with | some s => d.rtk s v w moved | none => (1, [])
    let d := d.attitudeStep
    let d := d.modGnss (fun g => { g with
      solved := true, mode := mode, stream := stream, station := station, ambiguities := held,
      fixRun := if mode = 4 ∧ old.mode = 4 then Bits.sat 25 (g.fixRun + 1) else 0,
      antennas := BitVec.ofNat 4 (Bits.bitsOf ((Bits.upTo d.antCount).filter d.antPosition)) })
    let d := if mode = 0 then d else d.positionStep
    let d := d.agreement (held.any (fun x => !(old.ambiguities.contains x)) ||
      d.fixedBaselines.any (fun b => old.baselines.getD b 0 != 2))
    let d := if old.mode != mode || moved then
      d.raise 0x0505 0 (Bits.le 1 old.mode ++ Bits.le 1 mode ++ Bits.le 1 (stream.getD 0xFF)) else d
    let d := if mode = 0 ∧ old.mode ≠ 0 then d.raise 0x050B 1 (Bits.le 4 d.frame.number) else d
    let d := d.gnssLatch (if mode = 0 then none else some (Config.gnssTheta d.free)) |>.fresh
    if mode = 0 then d
    else d.learnUtc (19 + ((w / 65536 % 256 : Nat) : Int)) (if (w / 16).testBit 0 then (if (w / 16).testBit 1 then 1 else -1) else 0)

/-! ### Points (R159, R160) -/

/-- A point with fraction bits of the ranging engine. -/
def Dev.gnssPostF (i frac : Nat) (v : Int) (q : Nat) (st : Word) (d : Dev) : Dev := d.post 5 i 4 (valFix frac v) st q
/-- Three points with fraction bits. -/
def Dev.gnssPost3 (i frac : Nat) (v : Int × Int × Int) (q : Nat) (st : Word) (d : Dev) : Dev :=
  ((d.gnssPostF i frac v.1 q st).gnssPostF (i + 1) frac v.2.1 q st).gnssPostF (i + 2) frac v.2.2 q st
/-- A whole-number point of the ranging engine. -/
def Dev.gnssPostU (i v q : Nat) (st : Word) (d : Dev) : Dev := d.post 5 i 3 (val32 (BitVec.ofNat 32 v)) st q

/-- An antenna's own points: BAD without a position or with a link down, STALE where the position is not issued (R160, Tables
5.11, 5.12). -/
def Dev.antennaPoints (q : Nat) (st : Word) (a : Nat) (d : Dev) : Dev :=
  let i := 1032 + 8 * a
  if d.antPosition a && d.gnss.antStale.getLsbD a then
    (List.range' i 6).foldl (fun x k => if Bits.get (fun _ => ({} : Point)) x.image.live k = {} then x else x.degrade k 1) d
  else
    let qa := if !(d.antIssued a) || (Bits.upTo 3).any (fun b => !(d.glink (3 * a + b)).up) then 3 else q
    (d.gnssPost3 i 10 (d.gnss.fix.positions.getD a (0, 0, 0)) qa st).gnssPost3 (i + 3) 16 (d.gnss.fix.sigmas.getD a (0, 0, 0)) qa st

/-- The per-channel points, always GOOD (R159, R160). -/
def Dev.channelPoints (st : Word) (d : Dev) : Dev :=
  (List.range (96 * d.antCount)).foldl (fun x k =>
    let t := Bits.get (fun _ => ({} : Track)) x.gnss.latch k
    let v := if t.system = 0xFF then 0
      else t.cn0 / 100 % 256 + 256 * (t.sat % 256) + 65536 * t.system + 1048576 * t.signal + 16777216 * (t.state % 32)
    x.gnssPostU (1280 + k) v 0 st) d

/-- The other points of Table 5.9 (R159, R160). -/
def Dev.gnssPoints (d : Dev) : Dev :=
  let g := d.gnss
  let st := BitVec.ofNat 32 d.frame.t0
  let q := if g.mode = 0 then 3 else if g.mode = 4 ∧ g.fixRun < 25 then 4 else 0
  let qa := if g.mode = 0 then 3 else if g.attitude = 2 ∧ g.attRun < 25 then 4 else 0
  let qp := if g.fix.pitchOk then qa else 3
  let qr := if g.fix.rollOk then qa else 3
  let age := match g.stream with | some s => ((g.streams.getD s {}).age d.time.now).map (fun a => a / 1000000) | none => none
  let used := (Bits.upTo d.antCount).foldl (fun n a => n + (d.satsUsed a).length) 0
  let d := d.gnssPostU 1024 g.mode q st
  let d := d.gnssPostU 1025 used q st
  let d := d.gnssPostU 1026 (age.getD 0xFFFFFFFF) q st
  let d := d.gnssPostF 1027 16 g.fix.pdop q st
  let d := d.gnssPostU 1028 g.attitude q st
  let d := d.gnssPostU 1029 (g.stream.getD 0xFFFFFFFF) q st
  let d := d.gnssPostU 1030 g.station q st
  let d := (Bits.upTo d.antCount).foldl (fun x a => x.antennaPoints q st a) d
  let d := (((d.gnssPostF 1064 22 g.fix.angles.1 qa st).gnssPostF 1065 22 g.fix.angles.2.1 qp st).gnssPostF 1066 22
    g.fix.angles.2.2 qr st)
  let d := (((d.gnssPostF 1067 22 g.fix.angleSigmas.1 qa st).gnssPostF 1068 22 g.fix.angleSigmas.2.1 qp st).gnssPostF 1069 22
    g.fix.angleSigmas.2.2 qr st)
  let d := (Bits.upTo 6).foldl (fun x b =>
    (x.gnssPost3 (1072 + 4 * b) 20 (g.fix.vectors.getD b (0, 0, 0)) qa st).gnssPostU (1075 + 4 * b) (g.baselines.getD b 0) qa st) d
  let d := d.gnssPost3 1100 8 (g.biases.getD 4 0, g.biases.getD 5 0, g.biases.getD 6 0) q st
  let d := d.post 5 1104 2 (val32 (Bits.word32 (d.pps.utcOff - 19))) st q
  (Bits.upTo 4).foldl (fun x a =>
    x.gnssPostU (1120 + a) ((x.gnss.latch.filter (fun p => p.1 / 96 == a && p.2.state.testBit 0)).length) q st) d

/-- GNSS_SOLUTION_DEADLINE at t0+2.0 ms: the points are written; a solution that is not finished is abandoned, its points keep
their values as STALE, and fusion has the ambiguity state of the frame before (R153). -/
def Dev.solutionDeadline (d : Dev) : Dev :=
  if !d.gnss.running || !d.gnss.solving || decide (d.sinceT0 < 2000000) then d
  else
    let done := d.gnss.solved
    let d := d.modGnss (fun g => { g with solving := false, solved := false })
    let d := if done then d.gnssPoints
      else
        let d := d.gnssLatch none
        let d := (List.range' 1024 104).foldl (fun x i =>
          if Bits.get (fun _ => ({} : Point)) x.image.live i = {} then x else x.degrade i 1) d
        d.raise 0x050A 1 (Bits.le 4 d.frame.number)
    d.channelPoints (BitVec.ofNat 32 d.frame.t0)

/-! ### The store, start and stop (R167, R169) -/

/-- Almanac, ephemerides and the last position go to the store (R167). -/
def Dev.gnssStore (d : Dev) : Dev :=
  let d := d.modGnss (fun g => { g with storeAt := d.time.now })
  { d with nvm := { d.nvm with gnss := some { sats := d.gnss.sats, position := d.gnss.position } } }

/-- GNSS_STORE_WRITE, every 10 minutes. -/
def Dev.gnssStoreWrite (d : Dev) : Dev :=
  if d.gnss.running && decide (600000000000 ≤ d.time.now - d.gnss.storeAt) then d.gnssStore else d

/-- The ranging engine as it starts: what the store keeps, every link down (R167, R169). -/
def Dev.gnssStart (d : Dev) : GnssSt :=
  let kept := d.nvm.gnss.getD {}
  { streams := d.gnss.streams, running := true, storeAt := d.time.now, sats := kept.sats, position := kept.position,
    links := d.gnss.links.map (fun (_ : Link) => { downAt := d.time.now }) }

/-- GNSS_RUN takes effect at a tick (R169). -/
def Dev.gnssApply (d : Dev) : Dev :=
  let run := d.life.running496 && d.life.state != .retired && d.gPar 1 == 1
  if run = d.gnss.running then d
  else if run then { d with gnss := d.gnssStart }
  else
    let d := d.gnssStore
    let d := d.modGnss (fun g => { streams := g.streams })
    let d := d.gnssLatch none
    (List.range' 1024 1024).foldl (fun x i =>
      if Bits.get (fun _ => ({} : Point)) x.image.live i = {} then x else x.degrade i 3) d

end Sys2Proof.Machine
end

