-- ==== Sys2Proof/Machine/Estimate.lean ====
section
/-! DEFINITION. Machine/Estimate.lean: the numbers of fusion's levels 1 and 3 (06 R176 to R182, R188 to R191, R193, R196): the
vessel model's propagation, measurement updates, the replay, wind and waves, and the inertial mechanisation with the GNSS
update. Numbers have 62 fraction bits; a state is held in the 32-bit formats that Uagus assigns (`Config.fusionBits`). -/

namespace Sys2Proof.Machine

open Sys2Proof

/-! ### Parts -/

/-- A field of table FUSION. -/
def Dev.fPar (d : Dev) (p : Nat) : Nat := d.parN 0xC p
/-- A slot field (Table 6.7). -/
def Dev.slotPar (d : Dev) (r o : Nat) : Nat := d.parN 0xC (0x40 + 16 * r + o)
/-- A signed slot field. -/
def Dev.slotParI (d : Dev) (r o : Nat) : Int := d.parI 0xC (0x40 + 16 * r + o)
/-- The fusion engine changed. -/
def Dev.modFusion (f : FusionSt → FusionSt) (d : Dev) : Dev := { d with fusion := f d.fusion }
/-- A reference. -/
def Dev.ref (d : Dev) (r : Nat) : Ref := d.fusion.refs.getD r {}
/-- A reference changed. -/
def Dev.modRef (r : Nat) (f : Ref → Ref) (d : Dev) : Dev :=
  d.modFusion (fun x => { x with refs := Bits.modAt x.refs r f })
/-- A class. -/
def Dev.cls (d : Dev) (c : Nat) : RefClass := d.fusion.classes.getD c {}
/-- A class changed. -/
def Dev.modCls (c : Nat) (f : RefClass → RefClass) (d : Dev) : Dev :=
  d.modFusion (fun x => { x with classes := Bits.modAt x.classes c f })
/-- The kind of a slot (Table 6.3); the internal GNSS reference has none. -/
def Dev.refKind (d : Dev) (r : Nat) : Nat := if r < 16 then d.slotPar r 0 else 0
/-- The level-3 state count (Table 6.1): 15 with WAVE_EN = 1, otherwise 9. -/
def Dev.level3Count (d : Dev) : Nat := if d.fPar 0xE = 1 then 15 else 9

/-- The members of a class: 0 position, 1 heading, 2 rate, 3 wind. -/
def Dev.members (d : Dev) (c : Nat) : List Nat :=
  let ks := fun (l : List Nat) => (Bits.upTo 16).filter (fun r => l.contains (d.refKind r))
  if c = 0 then ks [3, 4, 5] ++ [16] else if c = 1 then ks [2] ++ [17] else if c = 2 then ks [1] else ks [6]

/-- A state in which a reference takes part in its class. -/
def RefState.used : RefState → Bool
  | .admitted => true | .conflictUsed => true | .conflictUnused => true | _ => false

/-- An admitted reference, or the one in use of a conflict. -/
def RefState.serves : RefState → Bool
  | .admitted => true | .conflictUsed => true | _ => false

/-- The fraction bits of a quantity's format: 0 to 14 the level-3 states, 32 on the entries of D, 64 those of U, 100 on the
level-1 states, 128 a measurement (R196). -/
def fmtBits (k : Nat) : Nat := 31 - Config.fusionBits k

/-- A list held in its formats, with its saturations: entry i in format f i. -/
def fitList (f : Nat → Nat) (l : Num.Vec) : Num.Vec × Nat :=
  let r := l.zipIdx.map (fun x => Num.fit (fmtBits (f x.2)) x.1)
  (r.map Prod.fst, r.foldl (fun a x => a + x.2) 0)

/-- The format of entry i of a UD list of n states. -/
def udFmt (n i : Nat) : Nat := if i < n then 32 + i else 64

/-! ### Level 3: propagation (R188, R189, R191) -/

/-- Level 3 at work: instant, state, covariance. -/
structure Work where
  stamp : Word
  x : Num.Vec
  p : Num.Mat
deriving DecidableEq, Repr

/-- The stored level 3 unfolded. -/
def Level3.work (s : Level3) : Work := { stamp := s.stamp, x := s.x, p := Num.udMatrix s.x.length s.ud }

/-- Level 3 held in its formats, with its saturations (R196). -/
def Work.hold (w : Work) : Level3 × Nat :=
  let n := w.x.length
  let (x, a) := fitList id w.x
  let (u, b) := fitList (udFmt n) (Num.udList w.p)
  ({ stamp := w.stamp, x := x, ud := u }, a + b)

/-- The rate of change of the state: R188 for η, ν and b, R189 for the wave states. -/
def Dev.flowRate (d : Dev) (g : Drive) (x : Num.Vec) : Num.Vec :=
  let psi := x.getD 2 0
  let nu := (x.drop 3).take 3
  let b := Num.mulV (Num.transpose 3 (rotation psi)) ((x.drop 6).take 3)
  let eta := Num.mulV (rotation psi) nu
  let eta := match g.yaw with | some r => [eta.getD 0 0, eta.getD 1 0, r] | none => eta
  let acc := d.acceleration (Num.addV g.tau b) nu
  let waves := if x.length ≤ 9 then [] else (Bits.upTo 3).flatMap (fun i =>
    let y := x.getD (9 + 2 * i) 0
    let v := x.getD (10 + 2 * i) 0
    [v, -(Num.mul (Num.mul g.omega g.omega) y) - Num.mul g.omega v / 5])
  eta ++ acc ++ [0, 0, 0] ++ waves

/-- The Jacobian of `flowRate`. -/
def Dev.flowJac (d : Dev) (g : Drive) (x : Num.Vec) : Num.Mat :=
  let n := x.length
  let (s, c) := Num.sinCos (x.getD 2 0)
  let (u, v) := (x.getD 3 0, x.getD 4 0)
  let (bn, be) := (x.getD 6 0, x.getD 7 0)
  let turn := [-(Num.mul s u) - Num.mul c v, Num.mul c u - Num.mul s v, 0]
  let push := Num.mulV d.massInv [Num.mul c be - Num.mul s bn, -(Num.mul c bn) - Num.mul s be, 0]
  let drag := Num.mulM 3 d.massInv d.damping
  let bias := Num.mulM 3 d.massInv (Num.transpose 3 (rotation (x.getD 2 0)))
  let rot := rotation (x.getD 2 0)
  let row := fun (m : Num.Mat) (i : Nat) => m.getD i []
  let rest := Num.zeros (n - 9)
  let top := (Bits.upTo 3).map (fun i =>
    if i = 2 ∧ g.yaw.isSome then Num.zeros n else [0, 0, turn.getD i 0] ++ row rot i ++ [0, 0, 0] ++ rest)
  let mid := (Bits.upTo 3).map (fun i => [0, 0, push.getD i 0] ++ (row drag i).map (fun y => -y) ++ row bias i ++ rest)
  let low := (Bits.upTo 3).map (fun _ => Num.zeros n)
  let waves := if n ≤ 9 then [] else (Bits.upTo 3).flatMap (fun i =>
    [Num.unit n (10 + 2 * i) Num.one,
     Num.addV (Num.unit n (9 + 2 * i) (-(Num.mul g.omega g.omega))) (Num.unit n (10 + 2 * i) (-g.omega / 5))])
  top ++ mid ++ low ++ waves

/-- The spectral densities of the process noise: BIAS_Q_XY and BIAS_Q_N for b, what the manual leaves open for the waves (R188,
R189). -/
def Dev.noise (d : Dev) (n : Nat) : Num.Vec :=
  let q := fun (p : Nat) => let s := Num.frac (d.parN 0x10 p) 1000; Num.mul s s
  Num.zeros 6 ++ [q 0xD, q 0xD, q 0xE] ++
    (if n ≤ 9 then [] else (Bits.upTo 3).flatMap (fun i => [0, (Config.fusionVariance (16 + i) : Int)]))

/-- Level 3 carried to an instant, one step of Euler's (DESIGN CHOICE: notes/assumptions/90.md); not back in time. -/
def Dev.carry (d : Dev) (g : Drive) (goal : Word) (w : Work) : Work :=
  let dt := Bits.shortDiff goal w.stamp
  if dt ≤ 0 then w
  else
    let h := Num.frac dt 1000000000
    let n := w.x.length
    let phi := Num.addM (Num.ident n) (Num.scaleM h (d.flowJac g w.x))
    let x := Num.addV w.x (Num.scale h (d.flowRate g w.x))
    { stamp := goal, x := Bits.modAt x 2 Num.wrapPi,
      p := Num.addM (Num.sandwich n phi w.p) (Num.diag (Num.scale h (d.noise n))) }

/-! ### Level 3: measurements (R178, R183, R189) -/

/-- The row of the measurement matrix for north (0), east (1) or heading (2): the low-frequency state plus its wave. -/
def measRow (n i : Nat) : Num.Vec :=
  if n ≤ 9 then Num.unit n i Num.one else Num.addV (Num.unit n i Num.one) (Num.unit n (9 + 2 * i) Num.one)

/-- The measurement matrix of a class: position or heading. -/
def measMat (n c : Nat) : Num.Mat := if c = 0 then [measRow n 0, measRow n 1] else [measRow n 2]

/-- The difference of two values of a class: a heading goes round. -/
def clsDiff (c : Nat) (a b : Num.Vec) : Num.Vec := if c = 1 then (Num.subV a b).map Num.wrapPi else Num.subV a b

/-- What level 3 predicts for a class, with its covariance H P Hᵀ. -/
def Work.predicts (c : Nat) (w : Work) : Num.Vec × Num.Mat :=
  let h := measMat w.x.length c
  (Num.mulV h w.x, Num.sandwich w.x.length h w.p)

/-- An update by one measurement; a frozen b keeps its value (R191). -/
def Dev.update3 (g : Drive) (m : Meas) (w : Work) : Work :=
  let n := w.x.length
  let h := measMat n m.cls
  let (z, s) := w.predicts m.cls
  let pht := Num.mulM h.length w.p (Num.transpose n h)
  let k := Num.mulM h.length pht (Num.inverse (Num.addM s m.v))
  let kx := if g.frozen then k.zipIdx.map (fun r => if 6 ≤ r.2 ∧ r.2 < 9 then r.1.map (fun _ => 0) else r.1) else k
  let x := Num.addV w.x (Num.mulV kx (clsDiff m.cls m.z z))
  { w with x := Bits.modAt x 2 Num.wrapPi, p := Num.subM w.p (Num.mulM n k (Num.transpose h.length pht)) }

/-- Measurements in the order of their instants. -/
def byInstant (l : List Meas) : List Meas := l.mergeSort (fun a b => decide (0 ≤ Bits.shortDiff b.stamp a.stamp))

/-- Level 3 over a frame: updates in order of sample instant, then propagation to OT (Table 6.2). -/
def Dev.run3 (d : Dev) (g : Drive) (ms : List Meas) (ot : Word) (s : Level3) : Level3 × Nat :=
  ((byInstant ms).foldl (fun w m => Dev.update3 g m (d.carry g m.stamp w)) s.work |> d.carry g ot).hold

/-- The replay: from the checkpoint that precedes the oldest insertion on, newest last; each frame's checkpoint is replaced
(R193). Answers the checkpoints and the last state with the saturations. -/
def Dev.replay (d : Dev) : List Checkpoint → Level3 → List Checkpoint × Level3 × Nat
  | [], s => ([], s, 0)
  | k :: ks, s =>
    let (s', a) := d.run3 k.drive k.meas k.state.stamp s
    let (l, t, b) := Dev.replay d ks s'
    ({ k with state := s' } :: l, t, a + b)

/-- Heading (with its wave), pitch and roll of the ship (R178). -/
def Dev.shipAtt (d : Dev) (w : Work) : Num.Vec :=
  [((w.predicts 1).1).getD 0 0, d.fusion.level1.x.getD 7 0, d.fusion.level1.x.getD 8 0]

/-- The horizontal part of C(ψ, θ, φ) × l for the lever arm of a slot, m. -/
def Dev.leverOf (d : Dev) (r : Nat) (att : Num.Vec) : Num.Vec :=
  (Num.mulV (attitudeOf att 3) ((Bits.upTo 3).map (fun i => Num.frac (d.slotParI r (3 + i)) 1000))).take 2

/-- Two directions and variances along them as a matrix: `a` along the unit vector (c, s), `b` across it. -/
def axisVar (c s a b : Int) : Num.Mat :=
  let cc := Num.mul c c
  let ss := Num.mul s s
  let x := Num.mul (Num.mul c s) (a - b)
  [[Num.mul a cc + Num.mul b ss, x], [x, Num.mul a ss + Num.mul b cc]]

/-- The sensor of a slot as seen from its fixed point, and its variance, in north and east (R178): for a laser target −
sensor, for a taut-wire depressor − gimbal head; for an external position the position itself, negative. -/
def Dev.sighted (d : Dev) (r : Nat) (psi : Int) : Num.Vec × Num.Mat :=
  let k := d.refKind r
  let s := fun (i : Nat) => (d.ref r).sample.getD i 0
  let va := let a := Num.frac (d.slotPar r 9) 1000; Num.mul a a
  if k = 3 then
    let (sn, cs) := Num.sinCos (psi + Num.radDeg (s 1))
    let cross := Num.mul (s 0) (Num.radDeg (Num.frac (d.slotPar r 0xA) 1000))
    ([Num.mul (s 0) cs, Num.mul (s 0) sn], axisVar cs sn va (Num.mul cross cross))
  else if k = 4 then
    ((Num.mulV (rotation psi) [s 0, s 1, 0]).take 2, Num.diag [va, va])
  else ([-(s 0), -(s 1)], Num.diag [va, va])

/-- The alignment of a relative reference: its fixed point so that the measurement equals the prediction (R177). -/
def Dev.alignTo (d : Dev) (r : Nat) (w : Work) : Int × Int :=
  let att := d.shipAtt w
  let z := Num.addV (Num.addV ((w.predicts 0).1) (d.leverOf r att)) (d.sighted r (att.getD 0 0)).1
  (z.getD 0 0, z.getD 1 0)

/-- The relative wind as a vector over the deck, m/s, from its sample: it blows from its direction. -/
def relativeWind (speed dir : Int) : Num.Vec :=
  let (s, c) := Num.sinCos (Num.radDeg dir)
  [-(Num.mul speed c), -(Num.mul speed s), 0]

/-- The measurement of a reference at its instant with its variance under the multiplier of R187: position or heading of the
body origin (R178), rates (R176), true wind (R190). -/
def Dev.measured (d : Dev) (r : Nat) (w : Work) : Num.Vec × Num.Mat :=
  let x := d.ref r
  let k := d.refKind r
  let mult : Int := x.mult
  let att := d.shipAtt w
  let (z, v) :=
    if 16 ≤ r then (x.sample, x.var)
    else if k = 1 then
      let a := Num.radDeg (Num.frac (d.slotPar r 9) 60000)
      let q := if x.span ≤ 0 then 0 else Num.div (Num.mul a a) (Num.frac x.span 1000000000)
      (x.mean.take 3, Num.diag [q, q, q])
    else if k = 2 then
      let a := Num.radDeg (Num.frac (d.slotPar r 9) 1000)
      ([Num.wrapPi (Num.radDeg (x.sample.getD 0 0))], [[Num.mul a a]])
    else if k = 6 then
      let rel := relativeWind (x.sample.getD 0 0) (x.sample.getD 1 0)
      let psi := w.x.getD 2 0
      let (s, c) := Num.sinCos (psi + Num.radDeg (x.sample.getD 1 0))
      let a := Num.frac (d.slotPar r 9) 1000
      let b := Num.mul (x.sample.getD 0 0) (Num.radDeg (Num.frac (d.slotPar r 0xA) 1000))
      ((Num.mulV (rotation psi) [rel.getD 0 0 + w.x.getD 3 0, rel.getD 1 0 + w.x.getD 4 0, 0]).take 2,
       axisVar c s (Num.mul a a) (Num.mul b b))
    else
      let (f, v) := d.sighted r (att.getD 0 0)
      let o := if k = 5 then [0, 0] else [x.align.1, x.align.2]
      (Num.subV (Num.subV o f) (d.leverOf r att), v)
  (z, v.map (fun l => l.map (fun y => mult * y)))

/-- A value of a class brought to t0 by the level-3 velocities over the gap since its instant (R183). -/
def Dev.broughtTo (d : Dev) (c : Nat) (stamp : Word) (w : Work) (z : Num.Vec) : Num.Vec :=
  let gap := Num.frac (Bits.shortDiff (BitVec.ofNat 32 d.frame.t0) stamp) 1000000000
  let v := Num.mulV (rotation (w.x.getD 2 0)) ((w.x.drop 3).take 3)
  if c = 0 then Num.addV z (Num.scale gap (v.take 2))
  else if c = 1 then [Num.wrapPi (z.getD 0 0 + Num.mul gap (v.getD 2 0))] else z

/-! ### Wind and environment (R190) -/

/-- A wind coefficient for the relative wind from γ (rad, 0 to π on the starboard side), linear between its points (DESIGN CHOICE:
notes/assumptions/94.md). -/
def Dev.windCoef (d : Dev) (base : Nat) (gamma : Int) : Int :=
  let t := gamma * 18 * Num.one / Num.pi
  let i := Nat.min 17 (t / Num.one).toNat
  let at' := fun (k : Nat) => Num.frac (d.parI 0x10 (base + k)) 1000
  at' i + Num.mul (t - i * Num.one) (at' (i + 1) - at' i)

/-- The wind force on the hull, kN and kN·m, by the true wind and the hull's velocity over the ground: half density times speed
squared, area and coefficient (PRESUMED, the usual form: notes/assumptions/94.md). -/
def Dev.windForce (d : Dev) (wind : Num.Vec) (w : Work) : Num.Vec :=
  let rel := Num.subV (Num.mulV (Num.transpose 3 (rotation (w.x.getD 2 0))) (wind ++ [0])) [w.x.getD 3 0, w.x.getD 4 0, 0]
  let (rx, ry) := (rel.getD 0 0, rel.getD 1 0)
  let from0 := Num.atan2 (-ry) (-rx)
  let gamma := Bits.absI from0
  let side : Int := if from0 < 0 then -1 else 1
  let q := Num.mul ((Config.nature 0 : Nat) : Int) (Num.mul rx rx + Num.mul ry ry) / 2000
  let area := fun (p : Nat) => (d.parN 0x10 p : Int)
  [Num.mul q (d.windCoef 0x20 gamma) * area 0x10, side * (Num.mul q (d.windCoef 0x40 gamma) * area 0x11),
   side * (Num.mul q (d.windCoef 0x60 gamma) * area 0x11 * area 0x12 / 10)]

/-- One step of the quasi-static low-pass (R190). -/
def Dev.lowPass (d : Dev) (q x : Num.Vec) : Num.Vec :=
  let k := Num.one - Num.exp (-(Num.frac 2 (100 * d.fPar 0xD)))
  Num.addV q (Num.scale k (Num.subV x q))

/-- The inverse-variance mean of true winds. -/
def windMean (l : List (Num.Vec × Num.Mat)) : Num.Vec :=
  let ws := l.map (fun x => (Num.inverse x.2, x.1))
  let sum := ws.foldl (fun m x => Num.addM m x.1) [[0, 0], [0, 0]]
  Num.mulV (Num.inverse sum) (ws.foldl (fun m x => Num.addV m (Num.mulV x.1 x.2)) [0, 0])

/-! ### Waves (R189) -/

/-- The power of the residuals at k turns in 120 samples. -/
def wavePower (l : List (Int × Int)) (k : Nat) : Int :=
  let t := l.zipIdx.foldl (fun (a : Int × Int × Int × Int) x =>
    let (s, c) := Fix.sinCos ((k * x.2 : Nat) * Fix.turn / 120)
    (a.1 + x.1.1 * c, a.2.1 + x.1.1 * s, a.2.2.1 + x.1.2 * c, a.2.2.2 + x.1.2 * s)) (0, 0, 0, 0)
  t.1 * t.1 + t.2.1 * t.2.1 + t.2.2.1 * t.2.2.1 + t.2.2.2 * t.2.2.2

/-- ω_p, n = 24, as the peak of the residuals' spectrum, limited to 0.3 to 1.6 rad/s; unchanged without any power. -/
def peakOmega (l : List (Int × Int)) (old : Word) : Word :=
  let p := (List.range' 1 60).foldl (fun (m : Nat × Int) k =>
    let x := wavePower l k
    if m.2 < x then (k, x) else m) (0, 0)
  if p.1 = 0 then old
  else Bits.word32 (Bits.clampI 5033165 26843546 (Num.toRaw 24 ((p.1 : Int) * Num.pi / 60)))

/-! ### Level 1 (R176, R181, R182) -/

/-- The sensor axes of a unit in the body axes (R174). -/
def Dev.mounting (d : Dev) (r : Nat) : Num.Mat :=
  let a := fun (o : Nat) => Num.radDeg (Num.frac (d.slotParI r o) 1000)
  attitudeOf [a 8, a 7, a 6] 3

/-- The increments between two readings of the sums, in body axes: angles, then velocities (R176). -/
def Dev.sumsTaken (d : Dev) (r : Nat) (old new : List Word) : List Int :=
  let e := fun (i n : Nat) => Num.ofRaw n (new.getD i 0 - old.getD i 0).toInt
  let m := d.mounting r
  Num.mulV m [e 0 30, e 1 30, e 2 30] ++ Num.mulV m [e 3 24, e 4 24, e 5 24]

/-- The inertial units that take part in this frame: admitted, with a sample at most 20 ms old at t0. -/
def Dev.unitsNow (d : Dev) : List Nat :=
  (d.members 2).filter (fun r => (d.ref r).state.serves &&
    (match (d.ref r).last with
     | some s => decide (Bits.shortDiff (BitVec.ofNat 32 d.frame.t0) s ≤ 20000000) | none => false))

/-- What a unit brings to this frame: its increments and the extrapolation to t0 at its mean rate, less what was extrapolated
before; corrected by its biases over dt and turned by its misalignment. With the extrapolation now applied. -/
def Dev.unitStep (d : Dev) (dt : Int) (u r : Nat) : List Int × List Int :=
  let x := d.ref r
  let gap := Bits.clampI (-20000000) 20000000 (Bits.shortDiff (BitVec.ofNat 32 d.frame.t0) (x.last.getD 0))
  let ahead := Num.scale (Num.frac gap 1000000000) x.mean
  let inc := if x.fresh then x.inc else Num.zeros 6
  let b := (d.fusion.level1.x.drop (9 + 7 * u)).take 6
  let v := Num.subV (Num.subV (Num.addV inc ahead) x.ahead) (Num.scale dt b)
  let turn := rotation (-(d.fusion.level1.x.getD (15 + 7 * u) 0))
  (Num.mulV turn (v.take 3) ++ Num.mulV turn (v.drop 3), ahead)

/-- Position, velocity and attitude after the mean increments (angles, velocities) over dt. -/
def mechanise (dt : Int) (inc : List Int) (x : Num.Vec) : Num.Vec :=
  let att := (x.drop 6).take 3
  let (st, ct) := Num.sinCos (att.getD 1 0)
  let (sr, cr) := Num.sinCos (att.getD 2 0)
  let (p, q, r) := (inc.getD 0 0, inc.getD 1 0, inc.getD 2 0)
  let turn := Num.mul q sr + Num.mul r cr
  let dv := Num.mulV (attitudeOf att 3) (inc.drop 3)
  let v := Num.addV (Num.addV ((x.drop 3).take 3) dv) [0, 0, Num.mul dt ((Config.nature 1 : Nat) : Int)]
  let pos := Num.addV (x.take 3) (Num.scale dt v)
  pos ++ v ++ [Num.wrapPi (att.getD 0 0 + Num.div turn ct), Num.wrapPi (att.getD 1 0 + Num.mul q cr - Num.mul r sr),
    Num.wrapPi (att.getD 2 0 + p + Num.mul (Num.div st ct) turn)] ++ x.drop 9

/-- The Jacobian of level 1 over dt: velocity into position, attitude and accelerometer bias into velocity, gyro bias into
attitude; `k` units share each bias. -/
def level1Jac (dt : Int) (k : Nat) (inc : List Int) (x : Num.Vec) : Num.Mat :=
  let c := attitudeOf ((x.drop 6).take 3) 3
  let f := Num.mulV c (inc.drop 3)
  let share := fun (y : Int) => if k = 0 then 0 else -(Num.mul dt y) / (k : Int)
  (Bits.upTo 24).map (fun i =>
    if i < 3 then Num.addV (Num.unit 24 i Num.one) (Num.unit 24 (3 + i) dt)
    else if i < 6 then
      let a := i - 3
      let tilt := if a = 0 then [-(f.getD 1 0), f.getD 2 0, 0] else if a = 1 then [f.getD 0 0, 0, -(f.getD 2 0)]
        else [0, -(f.getD 0 0), f.getD 1 0]
      let b := (c.getD a []).map share
      Num.addV (Num.unit 24 i Num.one) (Num.zeros 6 ++ tilt ++ [0, 0, 0] ++ b ++ [0, 0, 0, 0] ++ b ++ [0, 0])
    else if i < 9 then
      let g := if i = 6 then [0, 0, share Num.one] else if i = 7 then [0, share Num.one, 0] else [share Num.one, 0, 0]
      Num.addV (Num.unit 24 i Num.one) (Num.zeros 9 ++ g ++ [0, 0, 0, 0] ++ g ++ [0, 0, 0, 0, 0])
    else Num.unit 24 i Num.one)

/-- The covariance of level 1; the starting one is large (the manual gives no figure). -/
def Level1.cov (l : Level1) : Num.Mat :=
  if l.ud.isEmpty then Num.diag ((Bits.upTo 24).map (fun i => (Config.startVariance (200 + i) : Int))) else Num.udMatrix 24 l.ud

/-- A scalar measurement of the satellite signals: elevation, its row, its variance (R181). -/
structure Scalar where
  elev : Int
  row : Num.Vec
  var : Int
deriving DecidableEq, Repr

/-- The row of a range along a line of sight for antenna a: position, and attitude through its lever arm. -/
def Dev.rangeRow (d : Dev) (a : Nat) (e : Num.Vec) (x : Num.Vec) : Num.Vec :=
  let l := (Bits.upTo 3).map (fun i => Num.frac (d.parI 8 (0x20 + 4 * a + i)) 1000)
  let att := (x.drop 6).take 3
  e ++ [0, 0, 0] ++ (Bits.upTo 3).map (fun k => Num.dot e (Num.mulV (attitudeOf att k) l)) ++ Num.zeros 14 ++
    [if e.getD 2 0 = 0 then 0 else Num.div (-Num.one) (e.getD 2 0)]

/-- The scalars that the latch gives (R181): in RTK_FIXED double differences of the fixed ambiguities per antenna and single
differences over the fixed baselines, otherwise code and Doppler of every channel in the solution. -/
def Dev.scalars (d : Dev) (x : Num.Vec) : List Scalar :=
  let dirOf := fun (sys sat : Nat) => ((d.satData sys sat).bind SatData.dir).map (fun e => (e.1, sightOf e))
  let g := d.gnss
  if g.mode = 4 then
    let dd := g.ambiguities.filterMap (fun m =>
      match dirOf m.2.1 m.2.2.1,
        ((d.phases (g.stream.getD 0)).find? (fun f => f.1 == m.1 && f.2.1 == m.2.1 && f.2.2.2 == m.2.2.2)).bind (fun f => dirOf f.2.1 f.2.2.1) with
      | some a, some b => some { elev := a.1, row := Num.subV (d.rangeRow m.1 a.2 x) (d.rangeRow m.1 b.2 x),
                                 var := (Config.fusionVariance 0 : Int) }
      | _, _ => none)
    let sd := d.fixedBaselines.flatMap (fun b =>
      let (p, q) := baselineAnts b
      let both := (g.latch.filter (fun c => c.1 / 96 == p && c.2.state.testBit 4)).filter (fun c =>
        g.latch.any (fun e => e.1 / 96 == q && e.2.state.testBit 4 && e.2.system == c.2.system && e.2.sat == c.2.sat && e.2.signal == c.2.signal))
      both.filterMap (fun c => (dirOf c.2.system c.2.sat).map (fun a =>
        { elev := a.1, row := Num.subV (d.rangeRow p a.2 x) (d.rangeRow q a.2 x), var := (Config.fusionVariance 1 : Int) })))
    dd ++ sd
  else
    (g.latch.filter (fun c => c.2.state.testBit 4)).flatMap (fun c =>
      match dirOf c.2.system c.2.sat with
      | some a =>
        [{ elev := a.1, row := d.rangeRow (c.1 / 96) a.2 x, var := (Config.fusionVariance 2 : Int) },
         { elev := a.1, row := [0, 0, 0] ++ a.2 ++ Num.zeros 18, var := (Config.fusionVariance 3 : Int) }]
      | none => [])

/-- One scalar enters, unless its normalised innovation exceeds the chi-square limit 15.137 (1 degree of freedom, 10^-4). What it
measures is free, so its innovation is (notes/assumptions/13.md). -/
def scalarUpdate (nu : Int) (m : Scalar) (x : Num.Vec) (p : Num.Mat) : Num.Vec × Num.Mat :=
  let ph := Num.mulV p m.row
  let s := Num.dot m.row ph + m.var
  if 15137 * s < 1000 * Num.mul nu nu then (x, p)
  else
    let k := ph.map (fun y => Num.div y s)
    (Num.addV x (Num.scale nu k), Num.subM p (Num.outer k ph))

/-- At most 64 scalars, highest elevation first; the free innovations are cut from v, 2^-24 m. -/
def scalarUpdates (v : Nat) (l : List Scalar) (x : Num.Vec) (p : Num.Mat) : Num.Vec × Num.Mat :=
  ((l.mergeSort (fun a b => decide (b.elev ≤ a.elev))).take 64).zipIdx.foldl (fun s m =>
    scalarUpdate (Num.ofRaw 24 (Bits.int32 (BitVec.ofNat 32 (v / 2 ^ (32 * m.2))))) m.1 s.1 s.2) (x, p)

/-- The position of the body origin by the ranging engine's antenna positions and attitude (R182): the mean over the antennas
issued, with the largest sigma. -/
def Dev.antennaMean (d : Dev) (att : Num.Vec) : Option (Num.Vec × Int) :=
  let l := (Bits.upTo d.antCount).filter d.antIssued
  match l with
  | [] => none
  | _ =>
    let f := d.gnss.fix
    let r := attitudeOf att 3
    let at0 := fun (a : Nat) =>
      let p := f.positions.getD a (0, 0, 0)
      Num.subV [Num.ofRaw 10 p.1, Num.ofRaw 10 p.2.1, -Num.ofRaw 10 (p.2.2 - d.pcoUp a)]
        (Num.mulV r ((Bits.upTo 3).map (fun k => Num.frac (d.parI 8 (0x20 + 4 * a + k)) 1000)))
    let s := l.map (fun a => let e := f.sigmas.getD a (0, 0, 0); Bits.maxI (Bits.absI e.1) [Bits.absI e.2.1])
    some ((sumForces (l.map at0)).map (fun y => y / ((l.length : Nat) : Int)), Num.ofRaw 16 (Bits.maxI 0 s))

/-- The fixed GNSS attitude of this latch: heading, pitch, roll. -/
def Dev.gnssAttitude (d : Dev) : Option Num.Vec :=
  let a := d.gnss.fix.angles
  if d.gnss.running && d.gnss.mode != 0 && d.gnss.attitude == 2 then
    some [Num.wrapPi (Num.radDeg (Num.ofRaw 22 a.1)), Num.radDeg (Num.ofRaw 22 a.2.1), Num.radDeg (Num.ofRaw 22 a.2.2)]
  else none

/-- Level 1 on the ranging engine's own results, without an inertial unit (R182). -/
def Dev.level1Alone (d : Dev) (x : Num.Vec) (p : Num.Mat) : Num.Vec × Num.Mat :=
  let sq := fun (n : Nat) (i : Int) => let s := Num.ofRaw n i; Num.mul s s
  let a := d.gnss.fix.angleSigmas
  let (x, p) := match d.gnssAttitude with
    | some t => (x.take 6 ++ t ++ x.drop 9, p.zipIdx.map (fun (r : Num.Vec × Nat) =>
        if r.2 < 6 ∨ 9 ≤ r.2 then (r.1.take 6 ++ [0, 0, 0] ++ r.1.drop 9)
        else Num.unit 24 r.2 (Num.radDeg (Num.radDeg (sq 22 (if r.2 = 6 then a.1 else if r.2 = 7 then a.2.1 else a.2.2))))))
    | none => (x, p)
  match d.antennaMean ((x.drop 6).take 3) with
  | some (o, s) => (o ++ x.drop 3, p.zipIdx.map (fun (r : Num.Vec × Nat) =>
      if 3 ≤ r.2 then [0, 0, 0] ++ r.1.drop 3 else Num.unit 24 r.2 (Num.mul s s)))
  | none => (x, p)

/-- Level 1 of a frame (R176, R181, R182): the mean of the units' increments mechanised to t0, then the latch; with its
saturations, whose update is then left out (R196). -/
def Dev.level1Step (d : Dev) : Dev × Nat :=
  let l := d.fusion.level1
  let t0 : Word := BitVec.ofNat 32 d.frame.t0
  let dtn := match l.stamp with | some s => Bits.clampI 0 40000000 (Bits.shortDiff t0 s) | none => 0
  let dt := Num.frac dtn 1000000000
  let all := d.members 2
  let us := d.unitsNow
  let steps := us.map (fun r => (r, d.unitStep dt (all.idxOf r) r))
  let k := us.length
  let inc := (steps.foldl (fun a s => Num.addV a s.2.1) (Num.zeros 6)).map (fun y => if k = 0 then 0 else y / (k : Int))
  let d := steps.foldl (fun z s => z.modRef s.1 (fun y => { y with ahead := s.2.2 })) d
  let arw := fun (r : Nat) => let a := Num.radDeg (Num.frac (d.slotPar r 9) 60000); Num.mul a a
  let vrw := fun (r : Nat) => let a := Num.frac (d.slotPar r 0xA) 1000000; Num.mul a a
  let mean := fun (f : Nat → Int) => if k = 0 then 0 else us.foldl (fun a r => a + f r) 0 / ((k : Int) * (k : Int))
  let x1 := if k = 0 then l.x else mechanise dt inc l.x
  let p1 := if k = 0 then l.cov else
    Num.addM (Num.sandwich 24 (level1Jac dt k inc l.x) l.cov)
      (Num.diag (Num.zeros 3 ++ List.replicate 3 (Num.mul dt (mean vrw)) ++ List.replicate 3 (Num.mul dt (mean arw)) ++ Num.zeros 15))
  let v := Config.fusion d.free
  let on := d.gnss.running && d.gnss.mode != 0 && d.fPar 5 == 1
  let (x2, p2) := if !on then (x1, p1) else if k = 0 then d.level1Alone x1 p1 else scalarUpdates v (d.scalars x1) x1 p1
  let fitU := fun (p : Num.Mat) => fitList (fun i => 100 + udFmt 24 i) (Num.udList p)
  let (x, a) := fitList (100 + ·) x2
  let (u, b) := fitU p2
  let sat := a + b
  let x := if sat = 0 then x else (fitList (100 + ·) x1).1
  let u := if sat = 0 then u else (fitU p1).1
  let att := d.gnssAttitude
  let rate := fun (a b : Num.Vec) => (clsDiff 1 a b).map (fun y => if dt = 0 then 0 else Num.div y dt)
  let gr := match l.gnssAtt, att with
    | some a, some b => let e := rate b a; [e.getD 2 0, e.getD 1 0, e.getD 0 0]
    | _, _ => [0, 0, 0]
  let own := if k = 0 then gr else if dt = 0 then l.rates else (inc.take 3).map (fun y => Num.div y dt)
  (d.fresh.modFusion (fun f => { f with level1 :=
    { stamp := some t0, x := x, ud := u, rates := own, gnssAtt := att, gnssRates := gr } }), sat)

end Sys2Proof.Machine
end

