-- ==== Sys2Proof/Machine/Fusion.lean ====
section
/-! DEFINITION. Machine/Fusion.lean: reference fusion and vessel state (06 R172 to R204): the intake of samples, level 2 with its
tests, conflicts and fallbacks, the frame's order of work, the record, its points and events. The numbers are those of
Estimate.lean. -/

namespace Sys2Proof.Machine

open Sys2Proof

/-! ### Parts -/

/-- Raw time at t0 of the frame: conflicts and agreement are timed by frames. -/
def Dev.rawT0 (d : Dev) : Nat := d.frame.rawT0

/-- The points of a kind. -/
def kindPoints (k : Nat) : Nat := if k = 0 then 0 else if k = 1 then 7 else if k = 2 then 1 else 2

/-- The class of a reference: 0 position, 1 heading, 2 rate, 3 wind. -/
def Dev.classOf (d : Dev) (r : Nat) : Nat :=
  let k := d.refKind r
  if r = 17 ∨ k = 2 then 1 else if k = 1 then 2 else if k = 6 then 3 else 0

/-- The number that events show for a reference: the slot, or 10h for GNSS. -/
def refShown (r : Nat) : Nat := if 16 ≤ r then 0x10 else r

/-- A test value passes the limit of a class, in 0.01 (R183). -/
def Dev.passes (d : Dev) (c : Nat) (v : Int) : Bool := decide (100 * v ≤ (d.fPar (6 + c) : Int) * Num.one)

/-- A test value × 100, rounded and held to 32 bits (Table 6.8). -/
def times100 (v : Int) : List Byte := Bits.le 4 (Bits.clampI 0 0xFFFFFFFF (Bits.roundUp (v * 100) Num.one.toNat)).toNat

/-- The code of a state (Table 6.6). -/
def RefState.code : RefState → Nat
  | .off => 0 | .unavailable => 1 | .aligning => 2 | .probation => 3 | .admitted => 4 | .rejected => 5
  | .conflictUsed => 6 | .conflictUnused => 7

/-! ### Samples (R175 to R177, R187, R192) -/

/-- The points of a slot, from the snapshot. -/
def Dev.slotPoints (d : Dev) (r : Nat) : List Point :=
  (Bits.upTo (kindPoints (d.refKind r))).map (fun i => d.snapPt (d.slotPar r 2 + i))

/-- The type that point i of a kind may have. -/
def slotTypeOk (k i : Nat) (p : Point) : Bool :=
  if k = 1 then (if i = 6 then p.typ == 1 else p.typ == 2) else p.typ == 4 || p.typ == 5

/-- Points of a type that is not allowed raise 060Dh (R175). -/
def Dev.slotTypes (r : Nat) (d : Dev) : Dev :=
  let k := d.refKind r
  let l := d.slotPoints r
  (Bits.upTo l.length).foldl (fun x i =>
    if !slotTypeOk k i (l.getD i {}) then
      x.raiseI 0x060D 0 r (Bits.le 1 r ++ Bits.le 4 (x.slotPar r 2 + i)) else x) d

/-- The unit of an inertial slot reports that it is not healthy (R176). -/
def Dev.unhealthy (d : Dev) (r : Nat) : Bool := d.refKind r == 1 && !((d.slotPoints r).getD 6 {}).value.getLsbD 0

/-- A sample is there to take: qualities, types, stamps within 1 ms, a new instant, a healthy unit (R175, R176). -/
def Dev.slotReady (d : Dev) (r : Nat) : Option Word :=
  let k := d.refKind r
  let l := d.slotPoints r
  match l with
  | [] => none
  | p :: _ =>
    if (Bits.upTo l.length).all (fun i => (l.getD i {}).quality == 0 && slotTypeOk k i (l.getD i {}) &&
          ((k == 1) || (l.getD i {}).number.isSome) &&
          decide (Bits.absI (Bits.shortDiff (l.getD i {}).stamp p.stamp) ≤ 1000000)) &&
        (d.ref r).last != some p.stamp && !d.unhealthy r then some p.stamp
    else none

/-- The part of the last 10 s. -/
def last10 (now : Nat) (l : List Nat) : List Nat := l.filter (fun t => decide (now < t + 10000000000))

/-- The variance multiplier of a slot (R187). -/
def Dev.lateMult (d : Dev) (x : Ref) : Nat :=
  let n := (last10 d.time.now x.inserted).length + (last10 d.time.now x.discarded).length
  2 ^ Nat.min 4 (n / d.fPar 0xC)

/-- The multiplier follows the late count; 0609h at each rise (R187). -/
def Dev.multStep (r : Nat) (d : Dev) : Dev :=
  let x := d.ref r
  let m := d.lateMult x
  let d := d.modRef r (fun x => { x with
    mult := m, inserted := last10 d.time.now x.inserted, discarded := last10 d.time.now x.discarded })
  if x.mult < m then d.raiseI 0x0609 1 r (Bits.le 1 r ++ Bits.le 1 m) else d

/-- The multipliers of all slots. -/
def Dev.multAll (d : Dev) : Dev := (Bits.upTo 16).foldl (fun x r => x.multStep r) d

/-- A sample is current (0), late (1) or too late (2), against OT(k−1) and OT(k−32) (R192); with the window empty, after a step,
there is no late class (R195). -/
def Dev.lateness (d : Dev) (s : Word) : Nat :=
  match d.fusion.window with
  | [] => 0
  | w :: ws =>
    let back : Word := if ws.length = 31 then (ws.getLastD w).state.stamp else BitVec.ofNat 32 (d.frame.t0 + 4000000) - 640000000
    if 0 ≤ Bits.shortDiff s w.state.stamp then 0 else if 0 ≤ Bits.shortDiff s back then 1 else 2

/-- A slot becomes available with its first sample (R177): a relative reference that has no offset aligns. -/
def Dev.becomes (r : Nat) (d : Dev) : Dev :=
  let k := d.refKind r
  let rel := k == 3 || k == 4
  d.modRef r (fun x =>
    let kept := x.aligned && decide (d.time.now - x.goneAt ≤ 60000000000)
    { x with passSince := none, aligned := kept,
             state := if !rel then .admitted else if kept then .probation else .aligning })

/-- A slot is unavailable from now on. -/
def Dev.refGone (r : Nat) (d : Dev) : Dev := d.modRef r (fun x => { x with state := .unavailable, goneAt := d.time.now, fresh := false })

/-- The values of a sample that is taken; an inertial unit gives increments over the interval since its last sample (R176). -/
def Dev.takeSample (r : Nat) (s : Word) (late : Bool) (d : Dev) : Dev :=
  let x := d.ref r
  let l := d.slotPoints r
  let x := { x with last := some s, takenAt := d.time.now, fresh := true, late := late }
  if d.refKind r = 1 then
    let now := (l.take 6).map (fun p => BitVec.ofNat 32 p.value.toNat)
    let old := d.ref r
    let span : Int := if d.time.now - old.takenAt < 2000000000 then Bits.shortDiff s (old.last.getD s) else (d.time.now - old.takenAt : Nat)
    let inc := match old.sums with | some b => d.sumsTaken r b now | none => Num.zeros 6
    d.modRef r (fun _ => { x with
      sums := some now, inc := inc, span := if old.sums.isSome then span else 0, sample := [0],
      mean := if old.sums.isSome && decide (0 < span) then inc.map (fun y => Num.div y (Num.frac span 1000000000)) else Num.zeros 6 })
  else
    d.modRef r (fun _ => { x with sample := l.map (fun p => match p.number with | some v => Num.frac v.1 v.2 | none => 0) })

/-- One slot in frame k: intake, lateness and state. -/
def Dev.slotIntake (d : Dev) (r : Nat) : Dev :=
  let k := d.refKind r
  let x := d.ref r
  let d := d.modRef r (fun x => { x with fresh := false, late := false })
  if k = 0 ∨ d.slotPar r 1 ≠ 1 then d.modRef r (fun x => { x with state := .off, aligned := false, passSince := none, sample := [], sums := none })
  else
    let d := if x.state = .off then d.refGone r else d
    let d := d.slotTypes r
    match d.slotReady r with
    | none => if d.unhealthy r && (d.ref r).state != .unavailable then d.refGone r else d
    | some s =>
      if 1000000 < Bits.shortDiff s (BitVec.ofNat 32 d.frame.t0) then
        (d.modRef r (fun x => { x with future := x.future + 1 })).raiseI 0x060C 0 r (Bits.le 1 r)
      else
        let late := d.lateness s
        let d := if (d.ref r).state = .unavailable then d.becomes r else d
        if late = 2 then
          (d.modRef r (fun x => { x with last := some s, takenAt := d.time.now, discarded := d.time.now :: x.discarded })).raiseI 0x0608 0 r
            (Bits.le 1 r ++ Bits.le 4 ((Bits.shortDiff (BitVec.ofNat 32 d.frame.t0) s / 1000000).toNat))
        else d.takeSample r s (late == 1)

/-- The internal GNSS reference (R181, R182): position while the solution mode is not NONE and GNSS_USE is 1; its heading also
needs an inertial unit or the fixed attitude. Its samples are level 1's, at t0. -/
def Dev.gnssRef (d : Dev) : Dev :=
  let ok := d.gnss.running && d.gnss.mode != 0 && d.fPar 5 == 1
  let l := d.fusion.level1
  let p := l.cov
  let e := fun (i j : Nat) => (p.getD i []).getD j 0
  let put := fun (r : Nat) (on : Bool) (z : Num.Vec) (v : Num.Mat) (y : Dev) => y.modRef r (fun x =>
    if !on then { x with state := if d.fPar 5 = 1 then .unavailable else .off, fresh := false, sample := [] }
    else { x with fresh := true, state := if x.state = .unavailable ∨ x.state = .off then .admitted else x.state,
                  sample := z, var := v, last := some (BitVec.ofNat 32 d.frame.t0), takenAt := d.time.now })
  put 17 (ok && (!d.unitsNow.isEmpty || d.gnss.attitude == 2)) [l.x.getD 6 0] [[e 6 6]]
    (put 16 ok (l.x.take 2) [[e 0 0, e 0 1], [e 1 0, e 1 1]] d)

/-- REF_MAXGAP_EXPIRY (R175). -/
def Dev.maxgap (r : Nat) (d : Dev) : Dev :=
  let x := d.ref r
  if d.fusion.running ∧ r < 16 ∧ x.state ≠ .off ∧ x.state ≠ .unavailable ∧ 1000000 * d.slotPar r 0xB ≤ d.time.now - x.takenAt then
    d.refGone r
  else d

/-! ### Tests (R183 to R186) -/

/-- The result of a pair test. -/
structure PairTest where
  a : Nat
  b : Nat
  q : Int
  ok : Bool
deriving DecidableEq, Repr

/-- A reference has a sample that can be tested: an inertial unit needs an increment. -/
def Dev.testable (d : Dev) (r : Nat) : Bool :=
  !(d.ref r).sample.isEmpty && (d.refKind r != 1 || decide (0 < (d.ref r).span))

/-- What a class predicts, with its covariance (Table 6.4). -/
def Dev.predicted (d : Dev) (c : Nat) (w : Work) (wind : Num.Vec) : Num.Vec × Num.Mat :=
  if c ≤ 1 then w.predicts c
  else if c = 2 then
    let g := d.fusion.level1.gnssRates
    ([g.getD 0 0, g.getD 1 0, w.x.getD 5 0], Num.diag [0, 0, (w.p.getD 5 []).getD 5 0])
  else (wind, Num.diag [0, 0])

/-- The test value d_i of a measurement against a prediction (R183). -/
def testValue (c : Nat) (z : Num.Vec × Num.Mat) (p : Num.Vec × Num.Mat) : Int :=
  Num.quad (Num.addM p.2 z.2) (clsDiff c z.1 p.1)

/-- A reference's latest sample brought to t0, with its variance. -/
def Dev.tested (d : Dev) (c r : Nat) (w : Work) : Num.Vec × Num.Mat :=
  let (z, v) := d.measured r w
  (d.broughtTo c ((d.ref r).last.getD w.stamp) w z, v)

/-- The model tests of some references. Before there is a quasi-static wind the sample itself stands for it (DESIGN CHOICE:
notes/assumptions/94.md). -/
def Dev.modelTests (c : Nat) (l : List Nat) (w : Work) (d : Dev) : Dev :=
  l.foldl (fun x r =>
    let z := x.tested c r w
    let v := testValue c z (x.predicted c w (x.fusion.qsWind.getD z.1))
    x.modRef r (fun y => { y with d := Bits.word32 (Num.toRaw 16 v), modelOk := x.passes c v })) d

/-- The pair tests among some references. -/
def Dev.pairTests (d : Dev) (c : Nat) (l : List Nat) (w : Work) : List PairTest :=
  l.flatMap (fun a => (l.filter (fun b => decide (a < b))).map (fun b =>
    let (za, va) := d.tested c a w
    let (zb, vb) := d.tested c b w
    let q := Num.quad (Num.addM va vb) (clsDiff c za zb)
    { a := a, b := b, q := q, ok := d.passes c q }))

/-- The failing pairs of a reference. -/
def failsOf (ts : List PairTest) (l : List Nat) (r : Nat) : Nat :=
  (ts.filter (fun t => !t.ok && (t.a == r || t.b == r) && l.contains t.a && l.contains t.b)).length

/-- The reference that R184 rejects next: most failing pairs, then the larger d. -/
def Dev.worstRef (d : Dev) (ts : List PairTest) (l : List Nat) : Option Nat :=
  l.foldl (fun (m : Option Nat) r =>
    match m with
    | none => some r
    | some s =>
      let fr := failsOf ts l r
      let fs := failsOf ts l s
      if fs < fr ∨ (fs = fr ∧ (d.ref s).d.toNat < (d.ref r).d.toNat) then some r else some s) none

/-- R184 step 1: rejection while three remain and a pair fails. -/
def Dev.rejectLoop : Nat → Nat → List PairTest → List Nat → Dev → List Nat × Dev
  | 0, _, _, l, d => (l, d)
  | fuel + 1, c, ts, l, d =>
    if l.length < 3 ∨ l.all (fun r => failsOf ts l r == 0) then (l, d)
    else match d.worstRef ts l with
      | none => (l, d)
      | some r =>
        let d := (d.modRef r (fun x => { x with state := .rejected, passSince := none })).raiseI 0x0601 1 (256 * c + refShown r)
          (Bits.le 1 c ++ Bits.le 1 (refShown r) ++ times100 (Num.ofRaw 16 (d.ref r).d.toInt))
        Dev.rejectLoop fuel c ts (l.filter (fun s => s != r)) d

/-- The conflict of a class ends without the event of R185; its faults end with it. -/
def Dev.dropConflict (c : Nat) (d : Dev) : Dev :=
  match (d.cls c).conflict with
  | none => d
  | some x =>
    let d := d.modCls c (fun y => { y with conflict := none })
    let d := [x.a, x.b].foldl (fun z r => z.modRef r (fun y =>
      if y.state = .conflictUsed ∨ y.state = .conflictUnused then { y with state := .admitted } else y)) d
    (d.endFault 0x0605 c).endFault 0x0603 c

/-- A class enters or leaves its fallback (R186). -/
def Dev.setFallback (c : Nat) (on : Bool) (d : Dev) : Dev :=
  let x := d.cls c
  if on = x.fallback then d
  else if on then
    (d.modCls c (fun y => { y with fallback := true, fallbackAt := d.rawT0 })).raiseI 0x0606 2 c (Bits.le 1 c)
  else
    (d.modCls c (fun y => { y with fallback := false })).raiseI 0x0607 0 c
      (Bits.le 1 c ++ Bits.le 4 ((d.rawT0 - x.fallbackAt) / 1000000))

/-- Some references are admitted and the class goes on all of them. -/
def Dev.useAll (c : Nat) (l : List Nat) (d : Dev) : Dev :=
  (l.foldl (fun z r => z.modRef r (fun y => { y with state := .admitted })) d).modCls c (fun y => { y with active := l })

/-- Two references of a class (R185): a pair that fails is or stays a conflict; the one in use follows the model tests of each
frame, until CONFLICT_TIME has passed. -/
def Dev.twoRefs (c a b : Nat) (t : PairTest) (d : Dev) : Dev :=
  let same := match (d.cls c).conflict with | some k => k.a == a && k.b == b | none => false
  let d := if same then d else d.dropConflict c
  let x := d.cls c
  if t.ok ∧ x.conflict.isNone then d.useAll c [a, b]
  else
    let okA := (d.ref a).modelOk
    let okB := (d.ref b).modelOk
    let pick : Option Nat := if okA && okB then (if (d.ref b).d.toNat < (d.ref a).d.toNat then some b else some a)
      else if okA then some a else if okB then some b else none
    let k := x.conflict.getD { used := pick, a := a, b := b, since := d.rawT0 }
    let used := if k.expired && k.used.isSome then k.used else pick
    let k' := { k with used := used, agreeSince := if t.ok then (match k.agreeSince with | some s => some s | none => some d.rawT0) else none }
    let d := d.modCls c (fun y => { y with conflict := some k', active := used.toList })
    let d := [a, b].foldl (fun z r => z.modRef r (fun y =>
      { y with state := if used = some r then .conflictUsed else .conflictUnused })) d
    if x.conflict.isNone then
      let (u, n) := match used with | some u => (refShown u, refShown (if u = a then b else a)) | none => (0xFF, 0xFF)
      d.raiseI 0x0603 1 c (Bits.le 1 c ++ Bits.le 1 u ++ Bits.le 1 n ++ times100 t.q)
    else d

/-- The time since which a waiting reference has passed its tests (R186): against every admitted reference, or its model test
where it is alone. -/
def Dev.watchReadmit (c : Nat) (w : Work) (avail : List Nat) (d : Dev) : Dev :=
  let l := avail.filter (fun r => (d.ref r).state.used)
  (avail.filter (fun r => !(d.ref r).state.used)).foldl (fun x r =>
    let (z, v) := x.tested c r w
    let pair := fun (a : Nat) => let (za, va) := x.tested c a w; x.passes c (Num.quad (Num.addM va v) (clsDiff c za z))
    let ok := if avail.length = 1 then (x.ref r).modelOk else l.all pair
    x.modRef r (fun y => { y with passSince := if ok then (match y.passSince with | some t => some t | none => some x.rawT0) else none })) d

/-- Level 2 for one class (R183 to R186). -/
def Dev.classStep (w : Work) (d : Dev) (c : Nat) : Dev :=
  let d := if (d.cls c).fallback ∧ c = 0 then d
    else ((d.members c).filter (fun r => (d.ref r).state = .aligning && (d.ref r).fresh)).foldl (fun x r =>
      let o := x.alignTo r w
      x.modRef r (fun y => { y with state := .probation, aligned := true, align := o })) d
  let avail := (d.members c).filter (fun r => d.testable r && (d.ref r).state != .off && (d.ref r).state != .unavailable &&
    (d.ref r).state != .aligning)
  let d := d.modelTests c avail w
  let l := avail.filter (fun r => (d.ref r).state.used)
  let ts := d.pairTests c l w
  let d := if 3 ≤ l.length then d.dropConflict c else d
  let (l, d) := Dev.rejectLoop l.length c ts l d
  let d := match l with
    | [] => (d.dropConflict c).useAll c []
    | [a] => let d := d.dropConflict c
             if (d.ref a).modelOk then d.useAll c [a] else (d.useAll c [a]).modCls c (fun y => { y with active := [] })
    | [a, b] =>
      match ts.find? (fun (t : PairTest) => t.a == a && t.b == b) with
      | some t => d.twoRefs c a b t
      | none => d.useAll c [a, b]
    | _ => d.useAll c l
  let some0 := avail.any (fun r => (d.ref r).modelOk)
  let alone := l.length < 2 || (d.cls c).conflict.isSome
  let d := if (d.cls c).fallback then d.setFallback c (!some0) else d.setFallback c (alone && !some0)
  let d := if (d.cls c).fallback then d.modCls c (fun y => { y with active := [] }) else d
  d.watchReadmit c w avail

/-- REFERENCE_READMIT (R186). -/
def Dev.readmit (c r : Nat) (d : Dev) : Dev :=
  let x := d.ref r
  match x.passSince with
  | some t =>
    if (d.members c).contains r ∧ (x.state = .rejected ∨ x.state = .probation) ∧
        1000000000 * d.fPar 0xB ≤ d.time.now - t then
      (d.modRef r (fun y => { y with state := .admitted, passSince := none })).raiseI 0x0602 0 (256 * c + refShown r)
        (Bits.le 1 c ++ Bits.le 1 (refShown r))
    else d
  | none => d

/-- CONFLICT_EXPIRED (R185). -/
def Dev.conflictExpired (c : Nat) (d : Dev) : Dev :=
  match (d.cls c).conflict with
  | some k =>
    if !k.expired && decide (1000000000 * d.fPar 0xA ≤ d.time.now - k.since) then
      (d.modCls c (fun y => { y with conflict := some { k with expired := true } })).raiseI 0x0605 2 c
        (Bits.le 1 c ++ Bits.le 1 (match k.used with | some u => refShown u | none => 0xFF))
    else d
  | none => d

/-- CONFLICT_CLEARED (R185): the pair has agreed for READMIT_TIME. -/
def Dev.conflictCleared (c : Nat) (d : Dev) : Dev :=
  match (d.cls c).conflict with
  | some k =>
    match k.agreeSince with
    | some t =>
      if 1000000000 * d.fPar 0xB ≤ d.time.now - t then
        let d := (d.modCls c (fun y => { y with conflict := none })).useAll c [k.a, k.b]
        d.raiseI 0x0604 0 c (Bits.le 1 c ++ Bits.le 4 ((d.rawT0 - k.since) / 1000000))
      else d
    | none => d
  | none => d

/-! ### Late samples and level 3 (R192 to R194) -/

/-- Where a late instant falls in the window, newest first: the checkpoints after it, and those from the one that precedes it
on; none where no checkpoint precedes it. -/
def splitAt : Word → List Checkpoint → Option (List Checkpoint × List Checkpoint)
  | _, [] => none
  | s, k :: ks =>
    if 0 ≤ Bits.shortDiff s k.state.stamp then some ([], k :: ks)
    else (splitAt s ks).map (fun r => (k :: r.1, r.2))

/-- A late sample is used only when its slot serves in this frame and its model test passes against what was predicted for
its own instant (R194); it joins the measurements of the frame that its instant lies in. -/
def Dev.lateSample (r : Nat) (d : Dev) : Dev :=
  let x := d.ref r
  let c := d.classOf r
  let s := x.last.getD 0
  let fits := match splitAt s d.fusion.window with
    | none => none
    | some (newer, older) =>
      let drive := (newer.getLastD {}).drive
      let base := older.headD {}
      let w := d.carry drive s base.state.work
      let z := d.measured r w
      if x.state.serves && d.testable r && d.passes c (testValue c z (d.predicted c w base.wind)) then some (newer, older, z) else none
  match fits with
  | none => d.modRef r (fun y => { y with discarded := d.time.now :: y.discarded })
  | some (newer, older, z) =>
    let d := d.modRef r (fun y => { y with inserted := d.time.now :: y.inserted })
    if 2 ≤ c then d
    else
      let m : Meas := { ref := r, cls := c, stamp := s, z := z.1, v := z.2 }
      let n := newer.length
      d.modFusion (fun f => { f with
        window := Bits.modAt (newer ++ older) (n - 1) (fun k => { k with meas := k.meas ++ [m] }), sflags := f.sflags ||| 0x0400 })

/-- The late samples of a frame, and one replay from the checkpoint that precedes the oldest insertion (R193). -/
def Dev.lateSamples (d : Dev) : Dev × Nat :=
  let late := (Bits.upTo 16).filter (fun r => (d.ref r).fresh && (d.ref r).late)
  let before := d.fusion.window
  let d := late.foldl (fun x r => x.lateSample r) d
  let changed := (d.fusion.window.zip before).map (fun e => e.1 != e.2)
  match (changed.zipIdx.filter Prod.fst).getLast? with
  | none => (d, 0)
  | some (_, i) =>
    let newer := d.fusion.window.take (i + 1)
    let older := d.fusion.window.drop (i + 1)
    let (l, s, sat) := d.replay newer.reverse (older.headD {}).state
    (d.modFusion (fun f => { f with window := l.reverse ++ older, cur := s }), sat)

/-- The current measurements of a class, in their formats (R196). -/
def Dev.measures (d : Dev) (c : Nat) (w : Work) : List Meas × Nat :=
  let l := (d.cls c).active.filter (fun r => (d.ref r).fresh && !(d.ref r).late)
  let ms := l.map (fun r =>
    let (z, v) := d.measured r w
    let (z, a) := fitList (fun _ => 128 + c) z
    (({ ref := r, cls := c, stamp := (d.ref r).last.getD w.stamp, z := z, v := v } : Meas), a))
  (ms.map Prod.fst, ms.foldl (fun a m => a + m.2) 0)

/-- The wind of this frame and its force (R190); without a sensor in use the wind is held at its quasi-static value. -/
def Dev.windStep (d : Dev) (w : Work) : Dev :=
  let l := ((d.cls 3).active.filter d.testable).map (fun r => d.measured r w)
  if l.isEmpty then d.modFusion (fun f => { f with tauWind := d.windForce (f.qsWind.getD [0, 0]) w })
  else
    let m := windMean l
    d.modFusion (fun f => { f with tauWind := d.windForce m w,
                                   qsWind := some (match f.qsWind with | some q => d.lowPass q m | none => m) })

/-- What drives level 3 in this frame (R180, R188, R191). -/
def Dev.driveNow (d : Dev) : Drive :=
  { tau := Num.addV d.thrustIn d.fusion.tauWind, frozen := (d.cls 0).fallback,
    yaw := if (d.cls 1).fallback && !(d.cls 2).active.isEmpty then some (d.fusion.level1.rates.getD 2 0) else none,
    omega := Num.ofRaw 24 d.fusion.omega.toInt }

/-- The residual of the wave frequency, once a second, and ω_p from it (R189). -/
def Dev.waveStep (w : Work) (d : Dev) : Dev :=
  if d.fPar 0xE != 1 || d.frame.number % 50 != 0 then d
  else
    match ((d.cls 0).active.filter (fun r => (d.ref r).fresh)).head? with
    | none => d
    | some r =>
      let z := (d.tested 0 r w).1
      d.modFusion (fun f =>
        let l := ((z.getD 0 0 - w.x.getD 0 0, z.getD 1 0 - w.x.getD 1 0) :: f.residuals).take 120
        { f with residuals := l, omega := peakOmega l f.omega })

/-- Levels 2 and 3 of a frame in the order of Table 6.2, with their saturations. -/
def Dev.weigh (d : Dev) : Dev × Nat :=
  let w := d.carry d.driveNow (BitVec.ofNat 32 d.frame.t0) d.fusion.cur.work
  let d := (Bits.upTo 4).foldl (Dev.classStep w) d
  let d := d.windStep w
  let (d, a) := d.lateSamples
  let d := d.multAll
  let g := d.driveNow
  let (m0, b0) := d.measures 0 w
  let (m1, b1) := d.measures 1 w
  let ot : Word := BitVec.ofNat 32 (d.frame.t0 + 4000000)
  let (s, e) := d.run3 g (m0 ++ m1) ot d.fusion.cur
  let d := d.modFusion (fun f => { f with
    cur := s, window := ({ state := s, drive := g, meas := m0 ++ m1, wind := f.qsWind.getD [0, 0] } :: f.window).take 32 })
  (d.waveStep w, a + b0 + b1 + e)

/-- The previous state propagated to OT(k) with no update (R196, Table 1.1). -/
def Dev.coast (d : Dev) : Level3 := (d.run3 d.driveNow [] (BitVec.ofNat 32 (d.frame.t0 + 4000000)) d.fusion.cur).1

/-- A frame without updates of levels 2 and 3. -/
def Dev.coasted (d : Dev) : Dev :=
  let s := d.coast
  d.modFusion (fun f => { f with
    cur := s, window := ({ state := s, drive := d.driveNow, wind := f.qsWind.getD [0, 0] } :: f.window).take 32 })

/-! ### The output (R188 to R201) -/

/-- References in service in a class, whether or not they brought a sample in this frame. -/
def Dev.inService (d : Dev) (c : Nat) : Nat := ((d.members c).filter (fun r => (d.ref r).state.serves)).length

/-- POS_MODE and HDG_MODE (Table 6.5). -/
def Dev.classMode (d : Dev) (c : Nat) : Nat :=
  if !d.fusion.initialised then 0 else if (d.cls c).fallback then 4
  else if (d.cls c).conflict.isSome then 3 else if 2 ≤ d.inService c then 1 else 2

/-- A bit mask of references: bit 16 for GNSS in either class. -/
def refMask (l : List Nat) : Nat := Bits.bitsOf ((l.map (fun r => if 16 ≤ r then 16 else r)).eraseDups)

/-- The references used in this frame: those that the classes go on and that brought a sample, a late one only where it was
inserted. -/
def Dev.usedNow (d : Dev) : List Nat :=
  (Bits.upTo 4).flatMap (fun c => (d.cls c).active.filter (fun r => (d.ref r).fresh &&
    (!(d.ref r).late || (d.ref r).inserted.head? == some d.time.now)))

/-- A thruster's feedback is not GOOD (R180). -/
def Dev.thrustSubstituted (d : Dev) : Bool :=
  d.thrsPresent.any (fun j => (d.snapPt (d.thrPar j 0xE + 1)).quality != 0 || (d.snapPt (d.thrPar j 0xE + 2)).quality != 0)

/-- The environment force in the body frame (R190). -/
def Dev.envForce (d : Dev) (x : Num.Vec) : Num.Vec :=
  Num.addV (Num.mulV (Num.transpose 3 (rotation (x.getD 2 0))) ((x.drop 6).take 3)) d.fusion.tauWind

/-- Degrees in [0, 360) with 22 fraction bits of an angle in rad. -/
def heading22 (a : Int) : Int := deg22 (a % (2 * Num.pi)) % 1509949440

/-- The 20 values of the vessel state record for a state at OT (Table 6.5). -/
def Dev.recordOf (d : Dev) (s : Level3) : Record :=
  let w := s.work
  let x := fun (i : Nat) => w.x.getD i 0
  let sig := fun (i : Nat) => Num.sqrt ((w.p.getD i []).getD i 0)
  let l := d.fusion.level1.x
  let f := d.fusion
  let r := fun (n : Nat) (v : Int) => Bits.word32 (Num.toRaw n v)
  [r 10 (x 0), r 10 (x 1), Bits.word32 (heading22 (x 2)), Bits.word32 (deg22 (l.getD 7 0)), Bits.word32 (deg22 (l.getD 8 0)),
   r 24 (x 3), r 24 (x 4), r 24 (Num.degRad (x 5)), r 16 (sig 0), r 16 (sig 1), Bits.word32 (deg22 (sig 2))] ++
  (f.env ++ f.tauWind ++ f.qsEnv).map (r 8)

/-- What the points show beside the record: wave-frequency displacements (0 with WAVE_EN = 0), quasi-static true wind. -/
def Dev.extraWords (d : Dev) : List Word × List Word :=
  let x := d.fusion.cur.x
  let q := d.fusion.qsWind.getD [0, 0]
  let speed := Num.sqrt (Num.dot q q)
  ([Bits.word32 (Num.toRaw 16 (x.getD 9 0)), Bits.word32 (Num.toRaw 16 (x.getD 11 0)), Bits.word32 (deg22 (x.getD 13 0))],
   [Bits.word32 (Num.toRaw 16 speed), Bits.word32 (heading22 (Num.atan2 (-(q.getD 1 0)) (-(q.getD 0 0))))])

/-- SFLAGS bits that the frame decides; bits 9 and 10 have been set on the way. -/
def Dev.frameFlags (d : Dev) (sat : Bool) : BitVec 16 :=
  (d.fusion.sflags &&& 0x0600) ||| BitVec.ofNat 16 (flagBits [false, sat, !d.fusion.settled, d.classMode 0 == 4, d.classMode 1 == 4,
    (Bits.upTo 4).any (fun c => (d.cls c).conflict.isSome), d.unitsNow.isEmpty, (d.cls 3).fallback, d.thrustSubstituted])

/-- The quality of a fusion point (R199). -/
def Dev.fusionQ (d : Dev) (pos hdg : Bool) : Nat :=
  let x := d.fusion
  if !x.running || x.posMode == 0 then 3
  else if pos && x.sflags.getLsbD 11 then 5
  else if !x.settled then 4
  else if (pos && x.posMode == 4) || (hdg && x.hdgMode == 4) || x.sflags.getLsbD 0 || x.sflags.getLsbD 1 then 2 else 0

/-- The points of Table 6.6, stamped with OT(k); a FUSION_LATE record is written by the frame block (R199, Table 3.4). -/
def Dev.fusionPoints (d : Dev) : Dev :=
  let x := d.fusion
  let block := if x.sflags.getLsbD 0 then 1 else 6
  let st := BitVec.ofNat 32 x.outTime
  let q := d.fusionQ false false
  let qp := d.fusionQ true false
  let qh := d.fusionQ false true
  let put := fun (i n : Nat) (w : Word) (q : Nat) (z : Dev) => z.post block i 4 (valFix n w.toInt) st q
  let u := fun (i v : Nat) (z : Dev) => z.post block i 3 (val32 (BitVec.ofNat 32 v)) st q
  let r := fun (i : Nat) => x.record.getD i 0
  let d := u 2050 x.hdgMode (u 2049 x.posMode (u 2048 x.sflags.toNat d))
  let d := put 2053 10 (r 1) qp (put 2052 10 (r 0) qp d)
  let d := put 2056 22 (r 4) q (put 2055 22 (r 3) q (put 2054 22 (r 2) qh d))
  let d := put 2059 24 (r 7) q (put 2058 24 (r 6) q (put 2057 24 (r 5) q d))
  let d := put 2062 22 (r 10) q (put 2061 16 (r 9) qp (put 2060 16 (r 8) qp d))
  let d := (Bits.upTo 9).foldl (fun z i => put (2064 + i) 8 (r (11 + i)) q z) d
  let d := put 2073 24 x.omega q d
  let d := put 2076 22 (x.wave.getD 2 0) q (put 2075 16 (x.wave.getD 1 0) q (put 2074 16 (x.wave.getD 0 0) q d))
  let d := put 2078 22 (x.wind.getD 1 0) q (put 2077 16 (x.wind.getD 0 0) q d)
  let slot := fun (base r : Nat) (z : Dev) =>
    let y := z.ref r
    let n := fun (l : List Nat) => Bits.sat 0xFFFF (last10 z.time.now l).length
    u (base + 3) (n y.inserted + 65536 * n y.discarded) (u (base + 2) y.mult (put (base + 1) 16 y.d q (u base y.state.code z)))
  slot 2096 16 ((Bits.upTo 16).foldl (fun z r => slot (2112 + 4 * r) r z) d)

/-- The record is issued for OT(k) (R195, R197). -/
def Dev.issue (d : Dev) : Dev :=
  d.modFusion (fun x => { x with outTime := d.frame.t0 + 4000000, outFrame := d.frame.number, done := true,
                                 frames := Bits.sat 250 (x.frames + 1) })

/-- The square of the distance from the origin by the record, 2^-20 m². -/
def Dev.originSquare (d : Dev) : Int :=
  let n := (d.fusion.record.getD 0 0).toInt
  let e := (d.fusion.record.getD 1 0).toInt
  n * n + e * e

/-- SFLAGS bit 11 with its event: outside 50 km from the origin (R179). -/
def Dev.originFar (before : Bool) (d : Dev) : Dev :=
  if 51200000 * 51200000 < d.originSquare then
    let d := d.modFusion (fun x => { x with sflags := x.sflags ||| 0x0800 })
    if before then d else d.raise 0x0610 1 (Bits.le 4 (Bits.isqrt d.originSquare.toNat / 1024))
  else d

/-- A reference that can initialise: available, with a sample. -/
def Dev.canStart (d : Dev) (r : Nat) : Bool :=
  !(d.ref r).sample.isEmpty && (d.ref r).state != .off && (d.ref r).state != .unavailable

/-- Initialisation waits for a sample of an absolute position reference and one of a heading reference; position and heading
start from them, velocity and b at zero, with a large covariance (R201). -/
def Dev.tryInit (d : Dev) : Dev :=
  match (d.members 0).find? (fun r => d.canStart r && (d.refKind r == 5 || r == 16)), (d.members 1).find? d.canStart with
  | some p, some h =>
    let n := d.level3Count
    let w : Work := { stamp := BitVec.ofNat 32 d.frame.t0, x := Num.zeros n,
                      p := Num.diag ((Bits.upTo n).map (fun i => (Config.startVariance i : Int))) }
    let w := { w with x := Num.unit n 2 (((d.measured h w).1).getD 0 0) }
    let z := (d.measured p w).1
    let w := { w with x := [z.getD 0 0, z.getD 1 0] ++ w.x.drop 2 }
    d.modFusion (fun f => { f with initialised := true, frames := 0, cur := w.hold.1, window := [] })
  | _, _ => d

/-- Levels 2 and 3 are reinitialised after a third saturated frame (R196). -/
def Dev.reinit (d : Dev) : Dev :=
  let d := (Bits.upTo 4).foldl (fun x c => x.dropConflict c) d
  (d.modFusion (fun x => { x with
    initialised := false, settled := false, frames := 0, satRun := 0, posMode := 0, hdgMode := 0, window := [], cur := {},
    refs := x.refs.map (fun (y : Ref) => { state := if y.state = .off then .off else .unavailable, last := y.last, takenAt := y.takenAt,
                                           sums := y.sums, ahead := y.ahead }) })).raise
    0x060B 2 (Bits.le 4 d.frame.number)

/-- The intake of a frame and level 1 (Table 6.2), with level 1's saturations. -/
def Dev.gather (d : Dev) : Dev × Nat :=
  let d := d.modFusion (fun x => { x with sflags := if x.mirrored then 0x0200 else 0 })
  let d := ((Bits.upTo 16).foldl Dev.slotIntake d).multAll
  let (d, a) := d.level1Step
  let d := d.gnssRef
  (if d.fusion.initialised then d else d.tryInit, a)

/-- The environment and what the points show follow the state of the frame (R190). -/
def Dev.environment (d : Dev) : Dev :=
  let e := d.envForce d.fusion.cur.x
  let d := d.modFusion (fun f => { f with env := e, qsEnv := d.lowPass f.qsEnv e })
  let (wave, wind) := d.extraWords
  d.modFusion (fun f => { f with wave := wave, wind := wind })

/-- The estimator's work of a frame: whether a saturation discarded its updates (R196). -/
def Dev.fuseFrame (d : Dev) : Dev × Bool :=
  let (d, a) := d.gather
  if !d.fusion.initialised then (d.modFusion (fun x => { x with sflags := x.sflags ||| 4 }), false)
  else
    let (e, b) := d.weigh
    let sat := a + b != 0
    let e := (if sat then d.coasted else e).environment
    let e := e.modFusion (fun x => { x with
      sflags := e.frameFlags sat, posMode := e.classMode 0, hdgMode := e.classMode 1, used := if sat then 0 else refMask e.usedNow,
      rejected := refMask ((Bits.upTo 18).filter (fun r => (e.ref r).state == .rejected || (e.ref r).state == .conflictUnused)),
      satRun := if sat then x.satRun + 1 else 0 })
    (e, sat)

/-- What a saturated frame raises; the third in a row starts levels 2 and 3 anew (R196). -/
def Dev.saturated (d : Dev) : Dev :=
  let d := d.raise 0x060A 1 (Bits.le 4 d.frame.number)
  if d.fusion.satRun = 3 then d.reinit else d

/-- Fusion of one frame in time (Table 6.2). -/
def Dev.fuse (d : Dev) : Dev :=
  let far := d.fusion.sflags.getLsbD 11
  let (d, sat) := d.fuseFrame
  let d := if d.fusion.initialised then
      (d.modFusion (fun x => { x with record := d.recordOf x.cur })).originFar far else d
  let d := d.issue
  let d := if sat then d.saturated else d
  d.fusionPoints

/-- The record of a frame whose fusion is late or forgone: the previous state propagated to OT(k), with the modes of the
previous record, no reference used and no replay shown (Table 1.1, R197, R199). `next` is what the estimator goes on from. -/
def Dev.lateRecord (before next : Dev) : Dev :=
  let r := if before.fusion.initialised then before.recordOf before.coast else before.fusion.record
  let f := before.fusion
  let d := next.modFusion (fun x => { x with
    record := r, sflags := ((f.sflags &&& ~~~ (0x0E02 : BitVec 16)) ||| 1) ||| (if f.mirrored then 0x0200 else 0),
    posMode := f.posMode, hdgMode := f.hdgMode, used := 0 })
  ((d.originFar (f.sflags.getLsbD 11)).issue)

/-- A late frame: its update to the estimator is kept and appears in the next frame's output (Table 1.1). -/
def Dev.fuseLate (d : Dev) : Dev :=
  let (e, sat) := d.fuseFrame
  let x := (Dev.lateRecord d e).raise 0x0102 1 (Bits.le 4 d.frame.number)
  (if sat then x.saturated else x).fusionPoints

/-- A frame whose fusion gives way to a self-test (Table 15.4): the state is propagated and nothing else is done. -/
def Dev.fuseForgone (d : Dev) : Dev :=
  (Dev.lateRecord d (if d.fusion.initialised then d.coasted else d)).fusionPoints

/-- FUSION_OUTPUT's fusion at t0+4 ms. -/
def Dev.fusionOutput (late : Bool) (d : Dev) : Dev :=
  if !d.fusion.running || d.fusion.done then d
  else if d.testedThisFrame 4 then d.fuseForgone
  else if late then d.fuseLate
  else d.fuse

/-- FUSION_SETTLED (R201). -/
def Dev.fusionSettled (d : Dev) : Dev :=
  let x := d.fusion
  let s := fun (i : Nat) => (x.record.getD i 0).toInt
  if x.running ∧ x.initialised ∧ !x.settled ∧ 250 ≤ x.frames ∧ s 8 * 1000 < (d.fPar 0xF : Int) * 65536 ∧
      s 9 * 1000 < (d.fPar 0xF : Int) * 65536 ∧ s 10 * 1000 < (d.fPar 0x10 : Int) * 4194304 then
    (d.modFusion (fun y => { y with settled := true })).raise 0x060F 0 (Bits.le 4 d.frame.number)
  else d

/-- FUSION_RUN takes effect at a tick (R201); conflicts end with fusion, and the fallbacks that stand go on. -/
def Dev.fusionApply (d : Dev) : Dev :=
  let run := d.life.running496 && d.life.state != .retired && d.fPar 1 == 1
  let d := d.modFusion (fun x => { x with done := false })
  if run = d.fusion.running then d
  else if run then
    let d := (Bits.upTo 4).foldl (fun x c => x.dropConflict c) d
    d.modFusion (fun x => { running := true, outTime := x.outTime, outFrame := x.outFrame, classes := x.classes })
  else
    let d := (Bits.upTo 4).foldl (fun x c => x.dropConflict c) d
    let d := d.modFusion (fun x => { x with running := false, initialised := false, settled := false, posMode := 0, hdgMode := 0 })
    (List.range' 2048 512).foldl (fun x i =>
      if Bits.get (fun _ => ({} : Point)) x.image.live i = {} then x else x.degrade i 3) d

/-- The 104-byte vessel state record (Table 6.5). -/
def Dev.stateBytes (d : Dev) : List Byte :=
  let x := d.fusion
  Bits.le 8 x.outTime ++ Bits.le 4 x.outFrame ++ Bits.le 2 x.sflags.toNat ++ Bits.le 1 x.posMode ++ Bits.le 1 x.hdgMode ++
    x.record.flatMap (fun w => Bits.le 4 w.toNat) ++ Bits.le 4 x.used ++ Bits.le 4 x.rejected

/-- STATE_READ (R197). -/
def Dev.stateReadOp (d : Dev) : OpRes := reads d d.stateBytes

end Sys2Proof.Machine
end

