-- ==== Sys2Proof/Machine/Plan.lean ====
section
/-! DEFINITION. Machine/Plan.lean: what the station-keeping solver's problem is built on (07 R207, R208, R211 to R213, R221 to
R228): its size, cycle count and structure key, the limits of the thrusters, the projection and the starts. -/

namespace Sys2Proof.Machine

open Sys2Proof

/-! ### Parts -/

/-- One in Q1.31. -/
def q31 : Int := 2147483648
/-- The greatest Q1.31 value. -/
def q31max : Int := 2147483647
/-- A field of table SOLVER. -/
def Dev.sPar (d : Dev) (p : Nat) : Nat := d.parN 0x12 p
/-- The solver changed. -/
def Dev.modSolver (f : SolverSt → SolverSt) (d : Dev) : Dev := { d with solver := f d.solver }
/-- The next free value. -/
def Dev.solverFree (d : Dev) : Nat × Dev := (Config.solver d.free, d.fresh)
/-- The mode that slot 0 solves in: that of an applied MODE_SET, else the mode in force (R233). -/
def Dev.solveMode (d : Dev) : Mode :=
  match d.solver.modeReq with | some r => if r.applied then r.mode else d.solver.mode | none => d.solver.mode

/-- A mode holds heading; a mode holds position (Table 7.7). -/
def Mode.holdsHeading : Mode → Bool
  | .autoHeading => true | .autoPosition => true | .track => true | _ => false
/-- A mode holds position. -/
def Mode.holdsPosition : Mode → Bool
  | .autoPosition => true | .track => true | _ => false
/-- A mode that the stick drives. -/
def Mode.stick : Mode → Bool
  | .joystick => true | .autoHeading => true | _ => false

/-! ### Size and cycles (R208, R211, R221) -/

/-- The power sections of thrusters (R208). -/
def Dev.sectsOf (d : Dev) (ts : List Nat) : List Nat :=
  (Bits.upTo 8).filter (fun b => ts.any (fun j => d.thrPar j 6 == b + 1))
/-- Block size n. -/
def Dev.blockSize (d : Dev) (ts : List Nat) : Nat :=
  6 + ts.foldl (fun a j => a + (if d.thrPar j 0 = 1 then 2 else 1)) 0 + (d.sectsOf ts).length
/-- Rows per stage m. -/
def Dev.rowCount (d : Dev) (ts : List Nat) : Nat :=
  ts.foldl (fun a j => a + (if d.thrPar j 0 = 1 then 7 else 2)) 0 + 2 * (d.sectsOf ts).length

/-- ceil(a / b). -/
def cdiv (a b : Nat) : Nat := (a + b - 1) / b
/-- SETUP (Table 7.4). -/
def setupCycles (st n m : Nat) : Nat := st * (cdiv (n * m) 16 + 64)
/-- FACTOR. -/
def factorCycles (st n m : Nat) : Nat := st * (cdiv (n * n * (3 * m + 8 * n)) 1536 + 20 * n)
/-- ITERATE, one iteration. -/
def iterCycles (st n m : Nat) : Nat := st * (16 * n + cdiv (n * m) 128) + 96

/-- Array cycles from t0+4 ms to the effective limit: the earlier of the deadline and t0+15 ms less OUTPUT (R222). -/
def Dev.cycleLimit (d : Dev) : Nat := Nat.min ((d.parN 2 1 - 4000) * 600) 6598000

/-- Cycles to the end of iteration k. -/
def Solve.cyclesTo (s : Solve) (k : Nat) : Nat :=
  setupCycles s.stages s.n s.m + factorCycles s.stages s.n s.m + k * iterCycles s.stages s.n s.m

/-- Array cycles since t0+4 ms, at 600 MHz. -/
def Dev.arrayCycles (d : Dev) : Nat := (d.sinceT0 - 4000000) * 3 / 5

/-! ### The structure key (R223) -/

/-- The forbidden sectors of a thruster: start and width in 2^-32 turn. -/
def Dev.sectors (d : Dev) (j : Nat) : List (Int × Int) :=
  [9, 0xB].filterMap (fun o =>
    let a := d.thrPar j o
    let b := d.thrPar j (o + 1)
    if a = 0xFFFFFFFF ∨ b = 0xFFFFFFFF then none
    else
      let w := ((b : Int) - (a : Int)) % 36000
      some ((a : Int) * Fix.turn / 36000, w * Fix.turn / 36000))

/-- The structure key of thrusters. -/
def Dev.structKey (d : Dev) (ts : List Nat) : Word :=
  Bits.crc32c (Bits.le 3 (Bits.bitsOf ts) ++ Bits.le 1 (d.sPar 1) ++ Bits.le 1 (d.sPar 2) ++ Bits.le 1 (Bits.bitsOf (d.sectsOf ts)) ++
    ts.flatMap (fun j => Bits.le 1 (d.thrPar j 0) ++ Bits.le 1 (d.thrPar j 6) ++ Bits.le 1 (d.sectors j).length))

/-! ### Delivered force and limits (R211, R213, R214) -/

/-- F_lim / FMAX in Q1.31 (R211). -/
def Dev.limitOf (d : Dev) (j : Nat) : Int :=
  let p := d.snapPt (d.thrPar j 0xE + 3)
  let f := d.thrPar j 3
  match (if p.quality = 0 ∧ f ≠ 0 then p.number else none) with
  | some (n, m) => Bits.clampI 0 q31max (Bits.roundUp (n * 10 * q31) (m * f))
  | none => q31max

/-- The length of stage i in µs (R205). -/
def Dev.stageUs (d : Dev) (i : Nat) : Nat := if i = 0 then 20000 else 20000 * d.sPar 2
/-- ΔF_j(i) in Q1.31 (R213). -/
def Dev.dForce (d : Dev) (j i : Nat) : Int := (d.thrPar j 8 : Int) * q31 * (d.stageUs i : Int) / 100000000
/-- ΔA_j(i) in 2^-32 turn. -/
def Dev.dAngle (d : Dev) (j i : Nat) : Int := (d.thrPar j 7 : Int) * Fix.turn * (d.stageUs i : Int) / 3600000000

/-! ### Projection (R228) -/

/-- An angle lies inside a sector. -/
def insideSector (a : Int) (s : Int × Int) : Bool :=
  let o := (a - s.1) % Fix.turn
  decide (0 < o) && decide (o < s.2)

/-- The nearer edge of the sector that an angle lies in; the angle itself outside every sector. -/
def nearerEdge (ss : List (Int × Int)) (a : Int) : Int :=
  match ss.find? (insideSector a) with
  | some s => if 2 * ((a - s.1) % Fix.turn) ≤ s.2 then s.1 else (s.1 + s.2) % Fix.turn
  | none => a

/-- Turning clockwise from p through `len` crosses a sector. -/
def crossesCw (ss : List (Int × Int)) (p len : Int) : Bool :=
  decide (0 < len) && ss.any (fun s =>
    let o := (s.1 - p) % Fix.turn
    decide (o < len) || decide (Fix.turn < o + s.2))

/-- The angle of prev moved toward a by at most `most`; none where both ways cross a sector. -/
def turnToward (ss : List (Int × Int)) (p a most : Int) : Option Int :=
  let cw := (a - p) % Fix.turn
  let ccw := (p - a) % Fix.turn
  let okCw := !crossesCw ss p cw
  let okCcw := !crossesCw ss a ccw
  let goCw := (p + Bits.clampI 0 most cw) % Fix.turn
  let goCcw := (p - Bits.clampI 0 most ccw) % Fix.turn
  if okCw && okCcw then some (if cw ≤ ccw then goCw else goCcw)
  else if okCw then some goCw else if okCcw then some goCcw else none

/-- One thruster in one stage: the admissible force after `prev`. -/
def Dev.projectOne (d : Dev) (i j : Nat) (prev : Polar) (f : Int × Int) : Polar × Force :=
  let lim := d.limitOf j
  let df := d.dForce j i
  if d.thrPar j 0 = 1 then
    let ss := d.sectors j
    let pm := Bits.absI prev.r
    let pa := if prev.r < 0 then (prev.a + Fix.turn / 2) % Fix.turn else prev.a
    let a := if f.1 = 0 ∧ f.2 = 0 then pa else Fix.atan2 f.2 f.1 % Fix.turn
    let a := nearerEdge ss a
    let r := Fix.sqrtI (f.1 * f.1 + f.2 * f.2)
    let r := if lim < r then lim else r
    let r := Bits.clampI 0 q31max (Bits.clampI (pm - df) (pm + df) r)
    match turnToward ss pa a (d.dAngle j i) with
    | some b => let p : Polar := { r := r, a := b }; (p, { thr := j, fx := p.vec.1, fy := p.vec.2 })
    | none => let p : Polar := { r := if pm < r then pm else r, a := pa }; (p, { thr := j, fx := p.vec.1, fy := p.vec.2 })
  else
    let g := Bits.clampI (-((d.thrPar j 4 : Int) * lim / 100)) lim f.1
    let g := Bits.clampI (-q31) q31max (Bits.clampI (prev.r - df) (prev.r + df) g)
    ({ r := g, a := prev.a }, { thr := j, fx := g })

/-- The forces of one stage, with the polar forces that the next stage starts from. -/
def Dev.projectForces (d : Dev) (i : Nat) (prev : List (Nat × Polar)) (fs : List Force) : List (Nat × Polar) × List Force :=
  let l := fs.map (fun (f : Force) => d.projectOne i f.thr ((prev.find? (fun p => p.1 == f.thr)).map Prod.snd |>.getD { r := 0, a := 0 }) (f.fx, f.fy))
  (l.map (fun (x : Polar × Force) => (x.2.thr, x.1)), l.map Prod.snd)

/-- R228 over the stages. -/
def Dev.projectGo (d : Dev) : Nat → List (Nat × Polar) → List Stage → List Stage
  | _, _, [] => []
  | i, prev, s :: ss =>
    let (p, fs) := d.projectForces i prev s.forces
    { s with forces := fs, slacks := s.slacks.map (fun x => (x.1, Bits.clampI 0 q31max x.2)) } :: Dev.projectGo d (i + 1) p ss

/-- The delivered forces of the thrusters of a trajectory (R214). -/
def Dev.deliveredOf (d : Dev) (ss : List Stage) : List (Nat × Polar) :=
  match ss with | s :: _ => s.forces.map (fun f => (f.thr, d.delivered f.thr)) | [] => []

/-- The projection of a trajectory from the delivered forces. -/
def Dev.project (d : Dev) (ss : List Stage) : List Stage := d.projectGo 0 (d.deliveredOf ss) ss

/-! ### Starts (R224 to R227) -/

/-- The shift of R224: every stage takes the next one, the last repeats. -/
def shiftStages (ss : List Stage) : List Stage :=
  match ss with
  | [] => []
  | s :: r => r ++ [r.getLastD s]

/-- A stage on another structure (R225): by thruster and section, zero where new. -/
def mapStage (ts bs : List Nat) (s : Stage) : Stage :=
  { forces := ts.map (fun j => (s.forces.find? (fun f => f.thr == j)).getD { thr := j, fx := 0 }),
    slacks := bs.map (fun b => (s.slacks.find? (fun x => x.1 == b)).getD (b, 0)), state := s.state }

/-- A trajectory on another horizon: truncated, or its last stage repeated. -/
def fitStages (n : Nat) (ss : List Stage) : List Stage :=
  ss.take n ++ List.replicate (n - ss.length) (ss.getLastD { forces := [], slacks := [] })

/-- The previous solution shifted and mapped (R224, R225, R230). -/
def Dev.shifted (d : Dev) (p : Plan) (ts bs : List Nat) : List Stage :=
  (fitStages (d.sPar 1) (shiftStages p.stages)).map (mapStage ts bs)

/-- The force columns of a thruster: force in 0.1 kN and moment in 10^-4 kN·m at full force. -/
def Dev.columns (d : Dev) (j : Nat) : List (Int × Int × Int) :=
  let f : Int := (d.thrPar j 3 : Nat)
  let x := (d.par 0x11 (0x21 + 32 * j)).toInt
  let y := (d.par 0x11 (0x22 + 32 * j)).toInt
  if d.thrPar j 0 = 1 then [(f, 0, -(y * f)), (0, f, x * f)]
  else if d.thrPar j 0 = 2 then [(0, f, x * f)] else [(f, 0, -(y * f))]

/-- The static allocation of R226: the least squares solution against the quasi-static environment force; none where the
columns do not span surge, sway and yaw. `pct` scales the force (R255). -/
def Dev.allocate (d : Dev) (pct : Nat) (ts : List Nat) : Option (List Force) :=
  let cs := ts.flatMap d.columns
  let dot := fun (f : Int × Int × Int → Int) (g : Int × Int × Int → Int) => Bits.sumI (cs.map (fun c => f c * g c))
  let x := fun (c : Int × Int × Int) => c.1
  let y := fun (c : Int × Int × Int) => c.2.1
  let z := fun (c : Int × Int × Int) => c.2.2
  let (a, b, c, e, f, g) := (dot x x, dot x y, dot x z, dot y y, dot y z, dot z z)
  let (p, q, r, s, t, u) := (e * g - f * f, c * f - b * g, b * f - c * e, a * g - c * c, b * c - a * f, a * e - b * b)
  let det := a * p + b * q + c * r
  let qs := fun (i : Nat) => (d.fusion.record.getD (17 + i) 0).toInt
  let (bx, by', bz) := (-(qs 0 * 10 * pct), -(qs 1 * 10 * pct), -(qs 2 * 10000 * pct))
  let (lx, ly, lz) := (p * bx + q * by' + r * bz, q * bx + s * by' + t * bz, r * bx + t * by' + u * bz)
  if det ≤ 0 then none
  else
    let force := fun (c : Int × Int × Int) =>
      Bits.clampI (-q31) q31max (Bits.roundUp ((c.1 * lx + c.2.1 * ly + c.2.2 * lz) * q31) (25600 * det.toNat))
    some (ts.map (fun j =>
      match d.columns j with
      | [c1, c2] => { thr := j, fx := force c1, fy := force c2 }
      | c1 :: _ => { thr := j, fx := force c1 }
      | [] => { thr := j, fx := 0 }))

/-- One stage of free forces: the digits of one free value. -/
def freeStage (v : Nat) (ts bs : List Nat) : Stage :=
  let w := fun (k : Nat) => (BitVec.ofNat 32 (v / 2 ^ (32 * k))).toInt
  { forces := ts.map (fun j => { thr := j, fx := w (2 * j), fy := w (2 * j + 1) }),
    slacks := bs.map (fun b => (b, w (48 + b))) }

/-- A trajectory of free forces under a number. -/
def freeStages (k : Nat) (ts bs : List Nat) (n : Nat) : List Stage :=
  (Bits.upTo n).map (fun i => freeStage (Config.solver k / 2 ^ (2048 * i)) ts bs)

/-- The kind of start against a previous solution (R224 to R226): 0 WARM, 1 PARTIAL_WARM, 2 COLD. -/
def startKind (prev : Option Plan) (key : Word) (ts : List Nat) : Nat :=
  match prev with
  | none => 2
  | some p =>
    if p.key = key then 0
    else
      let old := Bits.maskBits 24 p.thrusters.toNat
      let n := (old.filter (fun j => !(ts.contains j))).length + (ts.filter (fun j => !(old.contains j))).length
      if old.length < 2 * n then 2 else 1

/-- The start of a solve, before its projection, from the initial state: a COLD start holds it in every stage (R226). -/
def Dev.startStages (d : Dev) (pct : Nat) (prev : Option Plan) (kind : Nat) (ts bs : List Nat) (s0 : List Int) : List Stage × Dev :=
  match (if kind = 2 then none else prev) with
  | some p => (d.shifted p ts bs, d)
  | none =>
    match d.allocate pct ts with
    | some fs => (List.replicate (d.sPar 1) { forces := fs, slacks := bs.map (fun b => (b, 0)), state := s0 }, d)
    | none => ((freeStages d.free ts bs (d.sPar 1)).map (fun s => { s with state := s0 }), d.fresh)

end Sys2Proof.Machine
end

