-- ==== Sys2Proof/Machine/Qp.lean ====
section
/-! DEFINITION. Machine/Qp.lean: the quadratic programme of a solve and the array's work on it (07 R208 to R220): the dynamics,
the cost, the rows, the factor and the iteration, in the formats of Table 7.3. Matrices have 62 fraction bits until SETUP
stores them (notes/assumptions/15.md, 91.md). -/

namespace Sys2Proof.Machine

open Sys2Proof

/-! ### Variables (R208) -/

/-- The force variables of thrusters, in order: two of an azimuth thruster, one of another. -/
def Dev.forceVars (d : Dev) (ts : List Nat) : List (Nat × Nat) :=
  ts.flatMap (fun j => if d.thrPar j 0 = 1 then [(j, 0), (j, 1)] else [(j, 0)])

/-- The full force of one variable on the hull: kN, kN, kN·m. -/
def Dev.varForce (d : Dev) (v : Nat × Nat) : Num.Vec :=
  let t := d.thrPar v.1 0
  d.forceOf v.1 (if t = 2 ∨ (t = 1 ∧ v.2 = 1) then (0, q31) else (q31, 0))

/-- The spans of the six state variables (Table 7.3): m, m, rad, m/s, m/s, rad/s. -/
def Dev.spans (d : Dev) : Num.Vec :=
  let p := Num.frac (d.sPar 8 : Nat) 1
  let v := Num.frac (d.sPar 9 : Nat) 100
  [p, p, Num.pi, v, v, Num.radDeg (Num.frac (d.sPar 0xA : Nat) 100)]

/-- What a problem is formed on: thrusters and sections of the solve, the projected start F̄ (R227), the delivered forces,
the initial state, the environment force, the velocity of the target in the body frame, the axes that a stick drives with
its demand as a fraction of full scale, and the available power. -/
structure QpIn where
  ts : List Nat
  bs : List Nat
  base : List Stage
  first : List (Nat × (Int × Int))
  s0 : List Int
  env : Num.Vec
  drift : Num.Vec
  stick : List (Option Int)
  avail : List Nat
deriving DecidableEq, Repr

/-! ### The dynamics (R209) -/

/-- A stage transition: A_i, B_i by columns of the force variables, and the constant part. -/
structure StageMap where
  a : Num.Mat
  b : Num.Mat
  c : Num.Vec
deriving DecidableEq, Repr

/-- A_c in normalised variables. -/
def Dev.dynMatrix (d : Dev) : Num.Mat :=
  let s := d.spans
  let md := Num.mulM 3 d.massInv d.damping
  (Bits.upTo 3).map (fun k => Num.unit 6 (3 + k) (Num.div (s.getD (3 + k) 0) (s.getD k 0))) ++
    md.zipIdx.map (fun r => Num.zeros 3 ++ r.1.zipIdx.map (fun x => Num.div (-(Num.mul x.1 (s.getD (3 + x.2) 0))) (s.getD (3 + r.2) 0)))

/-- A body force as the derivative of the normalised state. -/
def Dev.pushOf (d : Dev) (tau : Num.Vec) : Num.Vec :=
  Num.zeros 3 ++ List.zipWith Num.div (Num.mulV d.massInv tau) (d.spans.drop 3)

/-- A_i = I + h A_c + h² A_c² / 2 and (h I + h² A_c / 2) applied to each force variable and to the constant force. The target's
own motion moves e against it (R236). -/
def Dev.stageMap (d : Dev) (x : QpIn) (h : Int) : StageMap :=
  let ac := d.dynMatrix
  let hh := Num.mul h h / 2
  let f := Num.addM (Num.scaleM h (Num.ident 6)) (Num.scaleM hh ac)
  let drift := List.zipWith Num.div x.drift (d.spans.take 3) ++ Num.zeros 3
  { a := Num.addM (Num.ident 6) (Num.addM (Num.scaleM h ac) (Num.scaleM hh (Num.mulM 6 ac ac))),
    b := Num.mulM (d.forceVars x.ts).length f
      (Num.transpose 6 ((d.forceVars x.ts).map (fun v => d.pushOf (d.varForce v)))),
    c := Num.subV (Num.mulV f (d.pushOf x.env)) (Num.scale h drift) }

/-- The length of stage i in seconds (R205). -/
def Dev.stageLen (d : Dev) (i : Nat) : Int := Num.frac (d.stageUs i : Nat) 1000000

/-! ### The cost (R210, R239) -/

/-- A weight field, in 0.01. -/
def Dev.weight (d : Dev) (p : Nat) : Int := Num.frac (d.sPar p : Nat) 100

/-- The weights of the six state variables: none on the axes that the stick drives (R239). -/
def Dev.stateWeights (d : Dev) (x : QpIn) : Num.Vec :=
  let on := fun (k : Nat) (w : Int) => if (x.stick.getD k none).isSome then 0 else w
  [on 0 (d.weight 0xD), on 1 (d.weight 0xD), on 2 (d.weight 0xE), on 0 (d.weight 0xF), on 1 (d.weight 0xF), on 2 (d.weight 0x10)]

/-- The full scale of stick axis k: kN, kN, kN·m. -/
def Dev.stickScale (d : Dev) (k : Nat) : Int :=
  if k = 2 then Num.frac (10 * d.sPar 0x16 : Nat) 1 else Num.frac (d.sPar (0x14 + k) : Nat) 10

/-- A block of the cost on the force variables put among the n variables of a stage. -/
def padForces (n k : Nat) (m : Num.Mat) : Num.Mat :=
  List.replicate 6 (Num.zeros n) ++ m.map (fun r => Num.zeros 6 ++ r ++ Num.zeros (n - 6 - k)) ++
    List.replicate (n - 6 - k) (Num.zeros n)

/-- The cost of stage i: its block, its coupling to the stage before, its linear term. -/
def Dev.stageCost (d : Dev) (x : QpIn) (i : Nat) : Num.Mat × Num.Mat × Num.Vec :=
  let vs := d.forceVars x.ts
  let k := vs.length
  let n := 6 + k + x.bs.length
  let h2 := 2 * d.stageLen i
  let last := decide (i + 1 = x.base.length)
  let w := d.stateWeights x
  let rate := Num.mul h2 (d.weight 0x11)
  let after := if last then 0 else Num.mul (2 * d.stageLen (i + 1)) (d.weight 0x11)
  let effort := vs.map (fun v => Num.mul h2 (Num.frac (d.thrPar v.1 0xD : Nat) 100) + rate + after)
  let first := vs.map (fun v =>
    let f := ((x.first.find? (fun p => p.1 == v.1)).map Prod.snd).getD (0, 0)
    2147483648 * (if v.2 = 1 ∨ d.thrPar v.1 0 = 2 then f.2 else f.1))
  let joy := (Bits.upTo 3).filterMap (fun a => (x.stick.getD a none).map (fun t =>
    (vs.map (fun v => Num.div ((d.varForce v).getD a 0) (d.stickScale a)), t)))
  let wj := Num.mul h2 (d.weight 0x13)
  let forces := joy.foldl (fun m g => Num.addM m (Num.scaleM wj (Num.outer g.1 g.1))) (Num.diag effort)
  let qf := joy.foldl (fun q g => Num.subV q (Num.scale (Num.mul wj g.2) g.1))
    (if i = 0 then Num.scale (-rate) first else Num.zeros k)
  let block := Num.addM (padForces n k forces) (Num.diag (Num.scale h2 w ++ Num.zeros (n - 6)))
  let q := Num.zeros 6 ++ qf ++ x.bs.map (fun _ => Num.mul (h2 / 2) (d.weight 0x12))
  let link := if i = 0 then List.replicate n (Num.zeros n) else padForces n k (Num.diag (List.replicate k (-rate)))
  if last then
    let t := d.stageMap x (d.stageLen i)
    let g := List.zipWith (· ++ ·) t.a t.b
    let wt := Num.scale (10 * h2) w
    let gt := Num.transpose (6 + k) g
    let add := (Num.mulM (6 + k) gt (Num.mulM (6 + k) (Num.diag wt) g)).map (fun r => r ++ Num.zeros (n - 6 - k)) ++
      List.replicate (n - 6 - k) (Num.zeros n)
    (Num.addM block add, link, Num.addV q (Num.mulV gt (List.zipWith Num.mul wt t.c) ++ Num.zeros (n - 6 - k)))
  else (block, link, q)

/-! ### The rows (R211 to R214) -/

/-- A vector of n entries, given by position. -/
def sparse (n : Nat) (l : List (Nat × Int)) : Num.Vec := l.foldl (fun v x => Bits.modAt v x.1 (· + x.2)) (Num.zeros n)

/-- F̄ of a thruster in a stage: surge and sway components, or the single component. -/
def baseOf (s : Stage) (j : Nat) : Int × Int :=
  match s.forces.find? (fun f => f.thr == j) with | some f => (f.fx, f.fy) | none => (0, 0)

/-- |F̄| and the unit direction of F̄, +1 along the first component where F̄ = 0 (R214). -/
def magDir (f : Int × Int) : Int × (Int × Int) :=
  let r := Fix.sqrtI (f.1 * f.1 + f.2 * f.2)
  if r = 0 then (0, (Num.one, 0)) else (2147483648 * r, (Num.one * f.1 / r, Num.one * f.2 / r))

/-- The normal of the forbidden-sector row of a direction (R212): of the sectors that it does not lie in the one with the
nearer edge, on the side away from that sector; none without a sector. -/
def sectorNormal (ss : List (Int × Int)) (a : Int) : Option (Int × Int) :=
  let edges := (ss.filter (fun s => !(insideSector a s))).map (fun s =>
    let toStart := (s.1 - a) % Fix.turn
    let toEnd := (a - (s.1 + s.2)) % Fix.turn
    if toStart ≤ toEnd then (toStart, s.1, true) else (toEnd, (s.1 + s.2) % Fix.turn, false))
  match edges.foldl (fun (m : Option (Int × Int × Bool)) e =>
      match m with | none => some e | some b => if e.1 < b.1 then some e else some b) none with
  | none => none
  | some (_, e, start) =>
    let (s, c) := Fix.sinCos e
    let k := fun (x : Int) => 4294967296 * x
    some (if start then (k s, -(k c)) else (-(k s), k c))

/-- A row before it is stored. -/
abbrev RawRow := Num.Vec × Num.Vec × Option Int × Option Int

/-- A row on the change of a combination of forces from the stage before; in stage 0 from the delivered force. -/
def changeRow (n : Nat) (cols : List (Nat × Int)) (i : Nat) (before : Int) (most : Int) : RawRow :=
  if i = 0 then (sparse n cols, Num.zeros n, some (before - most), some (before + most))
  else (sparse n cols, sparse n (cols.map (fun x => (x.1, -x.2))), some (-most), some most)

/-- The rows of thruster j in stage i, its first variable at column c (Table 7.1). -/
def Dev.thrRows (d : Dev) (x : QpIn) (n i j c : Nat) : List RawRow :=
  let up := fun (v : Int) => 2147483648 * v
  let lim := up (d.limitOf j)
  let was := if i = 0 then ((x.first.find? (fun p => p.1 == j)).map Prod.snd).getD (0, 0)
    else baseOf (x.base.getD (i - 1) { forces := [], slacks := [] }) j
  let df := up (d.dForce j i)
  if d.thrPar j 0 = 1 then
    let one := fun (l : List (Nat × Int)) (lo hi : Option Int) => ((sparse n l, Num.zeros n, lo, hi) : RawRow)
    let oct := Num.mul (Num.frac 92388 100000) lim
    let r2 := Num.halfRoot2
    let now := baseOf (x.base.getD i { forces := [], slacks := [] }) j
    let sector := match sectorNormal (d.sectors j) (Fix.atan2 now.2 now.1 % Fix.turn) with
      | some (p, q) => one [(c, p), (c + 1, q)] (some 0) none
      | none => one [] none none
    let (mag, (ux, uy)) := magDir was
    let least := Num.frac 5 100
    let da := Num.mul (if mag < least then least else mag) (Num.radOf (d.dAngle j i))
    let along := fun (p q : Int) => (up was.1 * p + up was.2 * q) / Num.one
    [one [(c, Num.one)] (some (-oct)) (some oct), one [(c + 1, Num.one)] (some (-oct)) (some oct),
     one [(c, r2), (c + 1, r2)] (some (-oct)) (some oct), one [(c, r2), (c + 1, -r2)] (some (-oct)) (some oct), sector,
     changeRow n [(c, ux), (c + 1, uy)] i (along ux uy) df, changeRow n [(c, -uy), (c + 1, ux)] i (along (-uy) ux) da]
  else
    let before := if i = 0 ∧ d.thrPar j 0 = 2 then was.2 else was.1
    [(sparse n [(c, Num.one)], Num.zeros n, some (-(lim * (d.thrPar j 4 : Int) / 100)), some lim),
     changeRow n [(c, Num.one)] i (up before) df]

/-- The rows of section b in stage i, its slack at column c: the linearised power of its thrusters less the slack, and the
slack (R214). -/
def Dev.sectRows (d : Dev) (x : QpIn) (n i b c : Nat) (col : Nat → Nat) : List RawRow :=
  let s := x.base.getD i { forces := [], slacks := [] }
  let pn : Int := ((x.ts.filter (fun j => d.thrPar j 6 == b + 1)).foldl (fun a j => a + d.thrPar j 5) 0 : Nat)
  let parts := (x.ts.filter (fun j => d.thrPar j 6 == b + 1)).map (fun j =>
    let f := baseOf s j
    let (mag, (ux, uy)) := magDir f
    let least := Num.frac 5 100
    let m := if mag < least then least else mag
    let root := Num.sqrt m
    let share := Num.frac (d.thrPar j 5 : Nat) pn.toNat
    let k := Num.mul share (3 * root / 2)
    ((if d.thrPar j 0 = 1 then [(col j, Num.mul k ux), (col j + 1, Num.mul k uy)] else [(col j, Num.mul k ux)]),
      Num.mul share (Num.mul m root / 2)))
  [(sparse n (parts.flatMap Prod.fst ++ [(c, -Num.one)]), Num.zeros n, none,
    some (Num.frac (x.avail.getD b 0 : Nat) pn.toNat + Bits.sumI (parts.map Prod.snd))),
   (sparse n [(c, Num.one)], Num.zeros n, some 0, some (2147483648 * q31max))]

/-- The six dynamics equalities of stage i: the state is the initial one, or follows from the stage before (R209). -/
def Dev.dynRows (d : Dev) (x : QpIn) (n i : Nat) : List RawRow :=
  let tail := fun (r : Num.Vec) => r ++ Num.zeros (n - r.length)
  if i = 0 then (Bits.upTo 6).map (fun k =>
    let v := 2147483648 * x.s0.getD k 0
    (Num.unit n k Num.one, Num.zeros n, some v, some v))
  else
    let t := d.stageMap x (d.stageLen (i - 1))
    (Bits.upTo 6).map (fun k =>
      (Num.unit n k Num.one, tail ((t.a.getD k [] ++ t.b.getD k []).map (fun v => -v)), some (t.c.getD k 0), some (t.c.getD k 0)))

/-- The halvings that bring a bound into [−1, 1) (R211; DESIGN CHOICE: a power of two, and none where the bound fits:
notes/assumptions/91.md). -/
def halvings : Nat → Int → Nat
  | 0, _ => 0
  | fuel + 1, b => if b < Num.one then 0 else 1 + halvings fuel (b / 2)

/-- A row stored: scaled by its bound, its coefficients in the factor's format, its bounds in Q1.31; with its saturations. -/
def storeRow (ib : Nat) (r : RawRow) : QpRow × Nat :=
  let (own, prev, lo, hi) := r
  let big := Bits.maxI 0 ([lo, hi].map (fun b => Bits.absI (b.getD 0)))
  let k : Int := ((2 ^ halvings 64 big : Nat) : Int)
  let part := fun (v : Num.Vec) => Num.narrowV ib (v.map (fun x => x / k))
  let (o, n1) := part own
  let (p, n2) := part prev
  let bound := fun (b : Option Int) => b.map (fun v => (Num.narrow 1 (v / k)).1)
  ({ own := o, prev := p, lo := bound lo, hi := bound hi }, n1 + n2)

/-! ### The problem -/

/-- Saturations of a phase and stage counted (R218). -/
def SatCount.hit (phase stage n : Nat) (s : SatCount) : SatCount :=
  if n = 0 then s else if s.n = 0 then { n := n, phase := phase, stage := stage } else { s with n := s.n + n }

/-- Stage i of the problem, stored, with its saturations. -/
def Dev.formStage (d : Dev) (x : QpIn) (i : Nat) : QpStage × Nat :=
  let ib := d.sPar 0xC
  let vs := d.forceVars x.ts
  let n := 6 + vs.length + x.bs.length
  let col := fun (j : Nat) => 6 + vs.findIdx (fun v => v.1 == j)
  let raw := x.ts.flatMap (fun j => d.thrRows x n i j (col j)) ++
    x.bs.zipIdx.flatMap (fun b => d.sectRows x n i b.1 (6 + vs.length + b.2) col) ++ d.dynRows x n i
  let rows := raw.map (storeRow ib)
  let (p, c, q) := d.stageCost x i
  let down := fun (v : Num.Vec) => v.map (fun e => e / ((2 ^ Config.costHalvings : Nat) : Int))
  let (p, n1) := Num.narrowM ib (p.map down)
  let (c, n2) := Num.narrowM ib (c.map down)
  let q := down q
  ({ p := p, c := c, q := q, rows := rows.map Prod.fst }, n1 + n2 + rows.foldl (fun a r => a + r.2) 0)

/-- SETUP forms the problem (R206). -/
def Dev.formProblem (d : Dev) (x : QpIn) : Problem × SatCount :=
  let l := (Bits.upTo x.base.length).map (d.formStage x)
  let t := d.stageMap x (d.stageLen (x.base.length - 1))
  ({ stages := l.map Prod.fst, rho := d.sPar 6, dual := d.sPar 0xB, factor := d.sPar 0xC,
     endA := List.zipWith (· ++ ·) t.a t.b, endC := t.c },
    l.zipIdx.foldl (fun s e => s.hit 1 e.2 e.1.2) {})

/-! ### Products over the stages -/

/-- A mᵀ v of stored numbers, exact with 62 fraction bits. -/
def mulT (n : Nat) (m : Num.Mat) (v : Num.Vec) : Num.Vec :=
  (List.zip m v).foldl (fun a x => Num.addV a (x.1.map (fun e => e * x.2))) (Num.zeros n)

/-- w = A x, exact (R220). -/
def rowValues : Num.Vec → List (QpStage × Num.Vec) → List Num.Vec
  | _, [] => []
  | before, (s, x) :: l => s.rows.map (fun r => Num.dotX r.own x + Num.dotX r.prev before) :: rowValues x l

/-- Aᵀ v: by stage, with what the first stage of the list gives to the stage before it. -/
def rowsT : List (QpStage × Num.Vec) → List Num.Vec × Num.Vec
  | [] => ([], [])
  | (s, v) :: l =>
    let n := s.q.length
    let (rest, back) := rowsT l
    let own := mulT n (s.rows.map QpRow.own) v
    ((if back.isEmpty then own else Num.addV own back) :: rest, mulT n (s.rows.map QpRow.prev) v)

/-- P x, exact: by stage, with what the first stage gives to the stage before it. -/
def costTimes : Num.Vec → List (QpStage × Num.Vec) → List Num.Vec × Num.Vec
  | _, [] => ([], [])
  | before, (s, x) :: l =>
    let n := s.q.length
    let (rest, back) := costTimes x l
    let own := Num.addV (s.p.map (fun r => Num.dotX r x)) (s.c.map (fun r => Num.dotX r before))
    ((if back.isEmpty then own else Num.addV own back) :: rest, mulT n s.c x)

/-! ### FACTOR (R219) -/

/-- The Cholesky factor of a block whose entries have 62 fraction bits: each pivot goes to the divide and square-root unit,
its column is scaled and narrowed, and the rest is updated. -/
def cholesky (ib : Nat) : Nat → Num.Mat → List (Int × List Int) × Nat
  | 0, _ => ([], 0)
  | n + 1, m =>
    let col := m.map (fun r => r.headD 0)
    let (p, n1) := Num.narrow ib (col.headD 0)
    let (r, n2) := Num.recipRoot ib p
    let raw := Num.narrowV ib col.tail
    let tail := Num.narrowV ib (raw.1.map (fun v => v * r))
    let rest := Num.subM (m.tail.map List.tail) (tail.1.map (fun a => tail.1.map (fun b => a * b)))
    let (l, k) := cholesky ib n rest
    ((r, tail.1) :: l, n1 + n2 + raw.2 + tail.2 + k)

/-- Forward substitution: L f = b; the right side has 62 fraction bits. -/
def forward : List (Int × List Int) → Num.Vec → Num.Vec
  | [], _ => []
  | (r, t) :: l, b =>
    let f := b.headD 0 * r / 2147483648
    f :: forward l (Num.subV b.tail (t.map (fun e => e * f / 2147483648)))

/-- Back substitution: Lᵀ x = f. -/
def backward : List (Int × List Int) → Num.Vec → Num.Vec
  | [], _ => []
  | (r, t) :: l, f =>
    let x := backward l f.tail
    (f.headD 0 - Num.dotX t x / 2147483648) * r / 2147483648 :: x

/-- H = P_i + σI + ρ Aᵀ A on the variables of stage i: its own rows and the part that the next stage's rows have in it. -/
def hessian (rho : Nat) (s : QpStage) (next : Option QpStage) : Num.Mat :=
  let n := s.q.length
  let gram := fun (l : List (List Int)) => (Bits.upTo n).map (fun a => (Bits.upTo n).map (fun b =>
    Bits.sumI (l.map (fun r => r.getD a 0 * r.getD b 0)) * (rho : Int) / 1024))
  let m := Num.addM (Num.addM (s.p.map (fun r => r.map (fun v => v * 2147483648))) (Num.diag (List.replicate n (2 ^ 46)))) (gram (s.rows.map QpRow.own))
  match next with
  | some t => Num.addM m (gram (t.rows.map QpRow.prev))
  | none => m

/-- The block of H that couples stage i to the stage before. -/
def coupling (rho : Nat) (s : QpStage) : Num.Mat :=
  let n := s.q.length
  Num.addM (s.c.map (fun r => r.map (fun v => v * 2147483648)))
    ((Bits.upTo n).map (fun a => (Bits.upTo n).map (fun b =>
      Bits.sumI (s.rows.map (fun r => r.own.getD a 0 * r.prev.getD b 0)) * (rho : Int) / 1024)))

/-- FACTOR over the stages from number i on, after the factor of the stage before. -/
def factorGo (ib rho : Nat) : Nat → Option (List (Int × List Int)) → List QpStage → List FactorStage × SatCount → List FactorStage × SatCount
  | _, _, [], acc => acc
  | i, before, s :: l, acc =>
    let h := hessian rho s l.head?
    let (k, n1) := match before with
      | some f => Num.narrowM ib ((coupling rho s).map (forward f))
      | none => ([], 0)
    let h := if k.isEmpty then h else Num.subM h (k.map (fun a => k.map (fun b => Num.dotX a b)))
    let (c, n2) := cholesky ib h.length h
    factorGo ib rho (i + 1) (some c) l (acc.1 ++ [{ cols := c, link := k }], acc.2.hit 2 i (n1 + n2))

/-- FACTOR (R219). -/
def Problem.factorise (p : Problem) (s : SatCount) : List FactorStage × SatCount :=
  factorGo p.factor p.rho 0 none p.stages ([], s)

/-- The solution with the factor: by stage, with the coupling's product for the stage before. -/
def solveGo : Num.Vec → List (FactorStage × Num.Vec) → List Num.Vec × Num.Vec
  | _, [] => ([], [])
  | before, (f, b) :: l =>
    let b := if f.link.isEmpty then b else Num.subV b (Num.mulVS f.link before)
    let v := forward f.cols b
    let (rest, back) := solveGo v l
    let v := if back.isEmpty then v else Num.subV v back
    let x := backward f.cols v
    (x :: rest, if f.link.isEmpty then [] else (mulT v.length f.link x).map (fun e => e / 2147483648))

/-! ### ITERATE (R220) -/

/-- z and y of one row after w: z := clamp(w + y / ρ), y := y + ρ (w − z), narrowed. -/
def rowStep (p : Problem) (r : QpRow) (w y : Int) : (Int × Int) × Nat :=
  let t := w * 2147483648 + y * 2147483648 * 1024 / (p.rho : Int)
  let t := match r.lo with | some b => if t < b * 2147483648 then b * 2147483648 else t | none => t
  let t := match r.hi with | some b => if b * 2147483648 < t then b * 2147483648 else t | none => t
  let (z, n1) := Num.narrow 1 t
  let (v, n2) := Num.narrow p.dual (y * 2147483648 + (w - z) * (p.rho : Int) * 2097152)
  ((z, v), n1 + n2)

/-- The greatest magnitude of a list. -/
def maxAbs (l : List Int) : Int := Bits.maxI 0 (l.map Bits.absI)

/-- One iteration (R220). -/
def Problem.iterate (p : Problem) (f : List FactorStage) (it : Iterate) (s : SatCount) : Iterate × SatCount :=
  let v := (List.zip it.z it.y).map (fun zy => List.zipWith (fun z y => z * (p.rho : Int) - y * 1024) zy.1 zy.2)
  let back := (rowsT (List.zip p.stages v)).1.map (fun r => r.map (fun e => e / 1024))
  let rhs := (List.zip (List.zip it.x p.stages) back).map (fun a =>
    Num.addV (Num.subV (a.1.1.map (fun e => e * 32768)) a.1.2.q) a.2)
  let xs := ((solveGo [] (List.zip f rhs)).1).map (Num.narrowV 1)
  let x := xs.map Prod.fst
  let exact := rowValues (Num.zeros ((x.headD []).length)) (List.zip p.stages x)
  let ws := exact.map (Num.narrowV 1)
  let steps := (List.zip (List.zip p.stages ws) it.y).map (fun a =>
    List.zipWith (fun r wy => rowStep p r wy.1 wy.2) a.1.1.rows (List.zip a.1.2.1 a.2))
  let z := steps.map (fun l => l.map (fun e => e.1.1))
  let y := steps.map (fun l => l.map (fun e => e.1.2))
  let px := (costTimes (Num.zeros ((x.headD []).length)) (List.zip p.stages x)).1
  let ay := (rowsT (List.zip p.stages y)).1
  let rd := (List.zip (List.zip px p.stages) ay).map (fun a => maxAbs (Num.addV (Num.addV a.1.1 a.1.2.q) a.2))
  let rp := (List.zip (ws.map Prod.fst) z).map (fun a => maxAbs (Num.subV a.1 a.2))
  let sats := (List.zip (List.zip xs ws) steps).map (fun a => a.1.1.2 + a.1.2.2 + a.2.foldl (fun n e => n + e.2) 0)
  ({ x := x, z := z, y := y, rp := 2147483648 * Bits.maxI 0 rp, rd := Bits.maxI 0 rd },
    sats.zipIdx.foldl (fun c e => c.hit 3 e.2 e.1) s)

/-- The iterate meets the tolerances EPS_PRIMAL and EPS_DUAL, in 10^-6 (R220). -/
def Iterate.converged (it : Iterate) (epsP epsD : Nat) : Bool :=
  decide (it.rp * 1000000 ≤ (epsP : Int) * Num.one) && decide (it.rd * 1000000 ≤ (epsD : Int) * Num.one)

/-! ### Starts and outputs as vectors -/

/-- The variables of a stage in order. -/
def stageVec (vs : List (Nat × Nat)) (s : Stage) : Num.Vec :=
  s.state ++ vs.map (fun v => let f := baseOf s v.1; if v.2 = 1 then f.2 else f.1) ++ s.slacks.map Prod.snd

/-- The stage of a vector. -/
def vecStage (vs : List (Nat × Nat)) (bs : List Nat) (v : Num.Vec) : Stage :=
  let f := v.drop 6
  { state := v.take 6,
    forces := ((List.zip vs f).filter (fun x => x.1.2 == 0)).map (fun x =>
      { thr := x.1.1, fx := x.2,
        fy := (((List.zip vs f).find? (fun y => y.1 == (x.1.1, 1))).map Prod.snd).getD 0 }),
    slacks := List.zip bs (f.drop vs.length) }

/-- A list of rows fitted to a stage: cut, or filled with zeros. -/
def fitRows (n : Nat) (l : List Int) : List Int := l.take n ++ List.replicate (n - l.length) 0

/-- z and y of a solution shifted onto a problem of the same structure (R224). -/
def shiftRows (p : Problem) (l : List (List Int)) : List (List Int) :=
  let l := match l with | [] => [] | s :: r => r ++ [r.getLastD s]
  p.stages.zipIdx.map (fun s => fitRows s.1.rows.length (l.getD s.2 (l.getLastD [])))

/-- z = A x on the rows of a problem, narrowed to Q1.31 (R225, R226). -/
def Problem.rowsAt (p : Problem) (x : List Num.Vec) : List (List Int × Nat) :=
  (rowValues (Num.zeros ((x.headD []).length)) (List.zip p.stages x)).map (Num.narrowV 1)

/-- The start of the iteration: z and y follow a WARM start, otherwise z = A x and y = 0 (R224 to R226). -/
def Problem.start (p : Problem) (kind : Nat) (prev : Option Plan) (x : List Num.Vec) (s : SatCount) : Iterate × SatCount :=
  match (if kind = 0 then prev else none) with
  | some q => ({ x := x, z := shiftRows p q.z, y := shiftRows p q.y }, s)
  | none =>
    let zs := p.rowsAt x
    ({ x := x, z := zs.map Prod.fst, y := p.stages.map (fun t => Num.zeros t.rows.length) },
      zs.zipIdx.foldl (fun c e => c.hit 1 e.2 e.1.2) s)

end Sys2Proof.Machine
end

