-- ==== Sys2Proof/Machine/Solver.lean ====
section
/-! DEFINITION. Machine/Solver.lean: the station-keeping solver, slot 0 (07 R205, R206, R217, R220 to R253): targets and modes,
the phases of the solve with their deadline and outcome, the record and points, the handoff and the refinement. -/

namespace Sys2Proof.Machine

open Sys2Proof

/-! ### Targets and modes (R233 to R239) -/

/-- The control point's north and east (n = 30) and the heading (n = 32) of the record. -/
def Dev.controlPoint (d : Dev) : Int × Int × Int :=
  let r := fun (i : Nat) => (d.fusion.record.getD i 0).toInt
  let a := r 2 * 1024 / 360
  let (s, c) := Fix.sinCos a
  let cx := d.parI 0x12 0x1A
  let cy := d.parI 0x12 0x1B
  (r 0 * 1048576 + (cx * c - cy * s) / 1000, r 1 * 1048576 + (cx * s + cy * c) / 1000, r 2 * 1024)

/-- Axes not set since the last IDLE are set to the control point at the first solve of a mode (R234). -/
def Dev.seedTarget (d : Dev) : Dev :=
  let (n, e, h) := d.controlPoint
  let m := d.solveMode
  let pos := fun (t : Target) => if m.holdsPosition && !t.posValid then { t with north := n, east := e, posValid := true } else t
  let hdg := fun (t : Target) => if m.holdsHeading && !t.hdgValid then { t with heading := h, hdgValid := true } else t
  d.modSolver (fun s => { s with wanted := hdg (pos s.wanted), force := hdg (pos s.force) })

/-- An angle of n = 32 degrees brought into [0, 360). -/
def deg360 (a : Int) : Int := a % (360 * 4294967296)

/-- TARGET_ADVANCE at a tick: a TARGET_SET is taken up, the stick takes effect, and the target in force moves (R235). -/
def Dev.targetTick (d : Dev) : Dev :=
  let d := match d.solver.staged with
    | some t => d.modSolver (fun s => { s with
        wanted := t, staged := none, trackAt := if t.track then d.frame.t0 else s.trackAt })
    | none => d
  let d := match d.solver.stickNext with
    | some x => d.modSolver (fun s => { s with stick := x, stickNext := none, stickOut := false })
    | none => d
  let w := d.solver.wanted
  let f := d.solver.force
  let step : Int := (d.sPar 0x18 : Int) * 1073741824 / 5000
  let dn := w.north - f.north
  let de := w.east - f.east
  let dist := Fix.sqrtI (dn * dn + de * de)
  let (n, e) := if !w.posValid then (f.north, f.east)
    else if !f.posValid ∨ dist ≤ step then (w.north, w.east)
    else (f.north + dn * step / dist, f.east + de * step / dist)
  let turn : Int := (d.sPar 0x19 : Int) * 4294967296 / 5000
  let full : Int := 360 * 4294967296
  let dh := let x := (w.heading - f.heading) % full; if 2 * x ≤ full then x else x - full
  let h := if !w.hdgValid then f.heading
    else if !f.hdgValid then w.heading else deg360 (f.heading + Bits.clampI (-turn) turn dh)
  d.modSolver (fun s => { s with force := { w with
    north := n, east := e, heading := h, posValid := f.posValid || w.posValid, hdgValid := f.hdgValid || w.hdgValid } })

/-- The target in force at the start of stage 0; in TRACK it runs along the course (R236). -/
def Dev.targetNow (d : Dev) : Int × Int × Int :=
  let f := d.solver.force
  if d.solveMode = .track then
    let (s, c) := Fix.sinCos (f.course * 1024 / 360)
    let run := f.speed * (((d.frame.t0 + 16000000 : Nat) : Int) - (d.solver.trackAt : Int)) * 64 / 1000000000
    (f.north + run * c / 1073741824, f.east + run * s / 1073741824, f.heading)
  else (f.north, f.east, f.heading)

/-- TARGET_SET (R235, Table 7.8). -/
def Dev.targetSetOp (r : Req) (d : Dev) : OpRes :=
  let p := r.payload
  let i := fun (o : Nat) => Bits.atI p o 4
  let fl := Bits.byteAt p 20
  let ang := fun (x : Int) => decide (0 ≤ x) && decide (x < 360 * 4194304)
  let bad : Option Nat :=
    if r.tgt ≠ 0 then some 0
    else if !ang (i 8) then some 8 else if !ang (i 12) then some 12
    else if !(decide (0 ≤ i 16) && decide (i 16 ≤ 3 * 16777216)) then some 16
    else if 8 ≤ fl then some 20
    else match (Bits.upTo 11).find? (fun k => Bits.byteAt p (21 + k) != 0) with | some k => some (21 + k) | none => none
  match bad with
  | some o => refuse d stRange o
  | none =>
    let b := d.solver.staged.getD d.solver.wanted
    let pos := fl.testBit 0
    let hdg := fl.testBit 1
    let t : Target := {
      north := if pos then i 0 * 1048576 else b.north, east := if pos then i 4 * 1048576 else b.east,
      heading := if hdg then i 8 * 1024 else b.heading, course := i 12, speed := i 16,
      posValid := pos || b.posValid, hdgValid := hdg || b.hdgValid, track := fl.testBit 2 }
    done (d.modSolver (fun s => { s with staged := some t }))

/-- JOYSTICK_SET (R238). -/
def Dev.joystickOp (r : Req) (d : Dev) : OpRes :=
  let p := r.payload
  if r.tgt ≠ 0 ∨ Bits.at' p 6 2 ≠ 0 then refuse d stRange (if r.tgt ≠ 0 then 0 else 6)
  else done (d.modSolver (fun s => { s with
    stickNext := some (Bits.atI p 0 2, Bits.atI p 2 2, Bits.atI p 4 2), joyAt := d.time.now }))

/-- JOYSTICK_TIMEOUT (R239), on the unit in control: another takes its demand from the mirror (R243). -/
def Dev.joyTimeout (d : Dev) : Dev :=
  let from0 := Nat.max d.solver.joyAt d.time.epoch
  if d.clasp.role.inControl && d.solveMode.stick && !d.solver.stickOut && decide (1000000 * d.sPar 0x17 ≤ d.time.now - from0) then
    (d.modSolver (fun s => { s with stick := (0, 0, 0), stickNext := none, stickOut := true })).raise 0x070A 1
      (Bits.le 4 d.frame.number)
  else d

/-- The masses of the vessel are set (R252). -/
def Dev.massesSet (d : Dev) : Bool := d.parN 0x10 1 != 0 && d.parN 0x10 2 != 0 && d.parN 0x10 3 != 0

/-- MODE_SET (R233, R252, Table 2.8). -/
def Dev.modeSetOp (tag : BitVec 6) (r : Req) (d : Dev) : OpRes :=
  match modeOf r.tgt with
  | none => refuse d stRange
  | some m =>
    if m ≠ .idle ∧ d.life.state ≠ .commission ∧ d.life.state ≠ .service then refuse d stLife 2
    else if m ≠ .idle ∧ !d.massesSet then refuse d stRange
    else if (m.stick && (d.sPar 0x14 == 0 || d.sPar 0x15 == 0)) || (m == .joystick && d.sPar 0x16 == 0) then refuse d stRange
    else if d.solver.modeReq.isSome then refuse d stBusy
    else deferred (d.modSolver (fun s => { s with modeReq := some { mode := m, tag := some tag, since := d.time.now } }))
      (some 10000000000)

/-- The preconditions of Table 7.7. -/
def Dev.modeReady (d : Dev) (m : Mode) : Bool :=
  m == .idle ||
    (d.massesSet && !d.solveSet.isEmpty && (!m.holdsHeading || d.fusion.hdgMode != 0) &&
      (!m.holdsPosition || (d.fusion.posMode != 0 && d.fusion.settled)) && (m != .track || d.solver.wanted.track))

/-- A mode is in force: the request ends and 070Bh tells of it. -/
def Dev.modeInForce (m : Mode) (d : Dev) : Dev :=
  let old := d.solver.mode
  let tag := match d.solver.modeReq with | some r => r.tag | none => none
  let idle := fun (t : Target) => if m = .idle then { t with posValid := false, hdgValid := false } else t
  let d := d.modSolver (fun s => { s with
    mode := m, modeReq := none, wanted := idle s.wanted, force := idle s.force,
    prev := if m = .idle then none else s.prev, joyAt := if m.stick && !old.stick then d.time.now else s.joyAt })
  let d := if old = m then d else d.raise 0x070B 0 (Bits.le 1 old.code ++ Bits.le 1 m.code)
  match tag with | some g => d.finish g { status := stOk } | none => d

/-- A waiting MODE_SET at a tick (R233). -/
def Dev.modeTick (d : Dev) : Dev :=
  match d.solver.modeReq with
  | none => d
  | some r =>
    if r.applied || !d.modeReady r.mode then d
    else if r.mode = .idle then d.modeInForce .idle
    else d.modSolver (fun s => { s with modeReq := some { r with applied := true } })

/-- A MODE_SET stops: the previous mode stays (Table 2.8). -/
def Dev.modeStop (tag : BitVec 6) (d : Dev) : Dev :=
  match d.solver.modeReq with
  | some r => if r.tag = some tag then d.modSolver (fun s => { s with modeReq := none }) else d
  | none => d

/-! ### The record and the points (R245 to R248) -/

/-- A Q1.31 force of thruster j in kN with 16 fraction bits. -/
def Dev.kN16 (d : Dev) (j : Nat) (f : Int) : Int := Bits.roundUp (f * (d.thrPar j 3 : Int)) 327680

/-- The azimuth of a stage-0 force in degrees, n = 22; below 1 % of FMAX the demand before it stays (R232). -/
def Dev.azimuthOf (d : Dev) (f : Force) : Int :=
  if d.thrPar f.thr 0 = 2 then 90 * 4194304 else if d.thrPar f.thr 0 = 3 then 0
  else if (f.fx * f.fx + f.fy * f.fy) * 10000 < q31 * q31 then d.solver.azimuth.getD f.thr 0
  else Bits.roundUp (Fix.atan2 f.fy f.fx % Fix.turn * 360) 1024

/-- The thruster entry of Table 7.9. -/
def Dev.thrEntry (d : Dev) (f : Force) : List Int :=
  let t := d.thrPar f.thr 0
  let az := d.azimuthOf f
  if t = 1 then [d.kN16 f.thr (Fix.sqrtI (f.fx * f.fx + f.fy * f.fy)), az, d.kN16 f.thr f.fx, d.kN16 f.thr f.fy]
  else
    let v := d.kN16 f.thr f.fx
    if t = 2 then [v, az, 0, v] else [v, az, v, 0]

/-- The linearised power of a thruster's force about its warm-start force, kW in 2^-31 (R214). -/
def Dev.linPower (d : Dev) (base f : Force) : Int :=
  let mag := Fix.sqrtI (base.fx * base.fx + base.fy * base.fy)
  let fb := if mag < 107374182 then 107374182 else mag
  let root := Fix.sqrtI (fb * q31)
  let dot := if mag = 0 then f.fx else (base.fx * f.fx + base.fy * f.fy) / mag
  (d.thrPar f.thr 5 : Int) * (fb * root / q31 + 3 * root * (dot - fb) / (2 * q31))

/-- P_norm,b of a solution: PRATED over its thrusters on section b (R214). -/
def Dev.stageNorm (d : Dev) (s : Stage) (b : Nat) : Nat :=
  (s.forces.filter (fun f => d.thrPar f.thr 6 == b + 1)).foldl (fun a f => a + d.thrPar f.thr 5) 0

/-- Demand and slack of a section in one stage, kW. -/
def Dev.sectEntry (d : Dev) (base out : Stage) (b : Nat) : Int × Int :=
  let fs := out.forces.filter (fun f => d.thrPar f.thr 6 == b + 1)
  let p := Bits.sumI (fs.map (fun f => d.linPower ((base.forces.find? (fun g => g.thr == f.thr)).getD f) f))
  let s := ((out.slacks.find? (fun x => x.1 == b)).map Prod.snd).getD 0
  (Bits.roundUp p 2147483648, Bits.roundUp (s * (d.stageNorm out b : Int)) 2147483648)

/-- SOLUTION_READ (Table 7.9). -/
def SolRec.bytes (x : SolRec) : List Byte :=
  Bits.le 4 x.frame ++ Bits.le 8 x.stage0 ++ Bits.le 1 x.outcome ++ Bits.le 1 x.start ++ Bits.le 1 x.mode ++ Bits.le 1 x.flags ++
    Bits.le 4 x.key.toNat ++ Bits.le 2 x.iter ++ Bits.le 2 (Bits.sat 0xFFFF x.sat) ++ Bits.le 4 x.tset.toNat ++ Bits.le 1 x.phase ++
    [0, 0, 0] ++ x.thr.flatMap (fun l => l.flatMap (Bits.leI 4)) ++ x.sect.flatMap (fun s => Bits.leI 4 s.1 ++ Bits.leI 4 s.2)

/-- SOLVER_READ (R246). -/
def SolRec.status (x : SolRec) (shifted : Nat) : List Byte :=
  Bits.le 4 x.frame ++ Bits.le 1 x.outcome ++ Bits.le 1 x.start ++ Bits.le 1 x.phase ++ Bits.le 1 x.flags ++ Bits.le 4 x.key.toNat ++
    Bits.le 2 x.iter ++ Bits.le 2 (Bits.sat 0xFFFF x.sat) ++ Bits.le 4 x.cycles ++ Bits.le 4 x.rp.toNat ++ Bits.le 4 x.rd.toNat ++
    Bits.le 1 (Bits.sat 255 shifted) ++ Bits.le 1 x.stages ++ Bits.le 1 x.n ++ Bits.le 1 x.m

/-- The quality of slot 0's outputs (R248). -/
def SolRec.quality (x : SolRec) : Nat := if x.outcome = 4 ∨ x.outcome = 5 then 3 else if x.outcome = 3 then 2 else 0

/-- Stage-0 totals X, Y (kN) and N (kN·m), n = 8. -/
def Dev.totals (d : Dev) (fs : List Force) : List Int :=
  let v := fun (f : Force) => if d.thrPar f.thr 0 = 2 then ((0 : Int), f.fx) else (f.fx, f.fy)
  let fm := fun (f : Force) => (d.thrPar f.thr 3 : Int)
  let x := fun (f : Force) => (d.par 0x11 (0x21 + 32 * f.thr)).toInt
  let y := fun (f : Force) => (d.par 0x11 (0x22 + 32 * f.thr)).toInt
  [Bits.roundUp (Bits.sumI (fs.map (fun f => (v f).1 * fm f))) 83886080,
   Bits.roundUp (Bits.sumI (fs.map (fun f => (v f).2 * fm f))) 83886080,
   Bits.roundUp (Bits.sumI (fs.map (fun f => (x f * (v f).2 - y f * (v f).1) * fm f))) 83886080000]

/-- The points of Table 7.12. -/
def Dev.solverPoints (d : Dev) : Dev :=
  let s := d.solver
  let x := s.sol
  let st := BitVec.ofNat 32 x.stage0
  let q := x.quality
  let u := fun (i v : Nat) (z : Dev) => z.post 7 i 3 (val32 (BitVec.ofNat 32 v)) st q
  let f := fun (i n : Nat) (v : Int) (z : Dev) => z.post 7 i 4 (valFix n v) st q
  let (tn, te, th) := d.targetNow
  let t := d.totals (if q = 3 then [] else s.demand)
  let d := u 2563 x.key.toNat (u 2562 x.iter (u 2561 x.start (u 2560 x.outcome d)))
  let d := f 2566 24 x.rd.toInt (f 2565 24 x.rp.toInt (u 2564 s.shifted d))
  let d := u 2568 s.mode.code (u 2567 x.sat d)
  let d := f 2575 24 s.force.speed (f 2574 22 (Bits.roundUp th 1024) (f 2573 10 (Bits.roundUp te 1048576) (f 2572 10 (Bits.roundUp tn 1048576) d)))
  let d := f 2578 8 (t.getD 2 0) (f 2577 8 (t.getD 1 0) (f 2576 8 (t.getD 0 0) d))
  let d := (Bits.upTo 24).foldl (fun z j =>
    let e := x.thr.getD j []
    f (2595 + 4 * j) 16 (e.getD 3 0) (f (2594 + 4 * j) 16 (e.getD 2 0) (f (2593 + 4 * j) 22 (e.getD 1 0) (f (2592 + 4 * j) 16 (e.getD 0 0) z)))) d
  let d := (Bits.upTo 8).foldl (fun z b =>
    let e := x.sect.getD b (0, 0)
    f (2690 + 4 * b) 0 e.2 (f (2689 + 4 * b) 0 (s.avail.getD b 0 : Nat) (f (2688 + 4 * b) 0 e.1 z))) d
  let un := Bits.bitsOf ((Bits.upTo 24).filter (fun j => (d.thr j).unavailable))
  let d := u 2721 un (u 2720 x.tset.toNat d)
  (Bits.upTo 8).foldl (fun z i => z.post 7 (2736 + i) 5 (val32 (Fix.float32Of (s.refine.values.getD i 0) 65536)) st q) d

/-! ### The solve (R206, R220, R229 to R231, R237) -/

/-- Word i of the vessel state record as a number with n fraction bits (Table 6.5). -/
def Dev.recNum (d : Dev) (i n : Nat) : Int := Num.ofRaw n (d.fusion.record.getD i 0).toInt

/-- The record's position and heading (m, m, rad), its velocities (m/s, m/s, rad/s) and its environment force. -/
def Dev.recEta (d : Dev) : Num.Vec := [d.recNum 0 10, d.recNum 1 10, Num.radDeg (d.recNum 2 22)]
/-- Velocities of the record. -/
def Dev.recNu (d : Dev) : Num.Vec := [d.recNum 5 24, d.recNum 6 24, Num.radDeg (d.recNum 7 24)]
/-- Environment force of the record, kN, kN, kN·m. -/
def Dev.recEnv (d : Dev) : Num.Vec := [d.recNum 11 8, d.recNum 12 8, d.recNum 13 8]

/-- A vector of north, east and heading in the body frame at the record's heading (R208). -/
def Dev.toBody (d : Dev) (v : Num.Vec) : Num.Vec := Num.mulV (Num.transpose 3 (rotation ((d.recEta).getD 2 0))) v

/-- The record propagated from t0+4 ms to t0+16 ms on the model of R188 with the demands in force (R206). -/
def Dev.propagated (d : Dev) : Num.Vec × Num.Vec :=
  d.move (Num.frac 12 1000) (Num.addV d.thrustSet d.recEnv) d.recEta d.recNu

/-- The initial state of a solve (R208, R217): the error of the control point against the target in force and the velocities,
normalised by the spans and limited to Q1.31; with the bitmap of the limited variables. On an axis that is not held e is 0
(DEDUCED from R255: notes/assumptions/91.md). -/
def Dev.startState (d : Dev) (eta nu : Num.Vec) (pos hdg : Bool) : List Int × Nat :=
  let ctrl := Num.mulV (rotation (eta.getD 2 0)) [Num.frac (d.parI 0x12 0x1A) 1000, Num.frac (d.parI 0x12 0x1B) 1000, 0]
  let (tn, te, th) := d.targetNow
  let target := [Num.ofRaw 30 tn, Num.ofRaw 30 te, Num.radDeg (Num.ofRaw 32 th)]
  let e := d.toBody (Num.subV (Num.addV eta ctrl) target)
  let e := [if pos then e.getD 0 0 else 0, if pos then e.getD 1 0 else 0, if hdg then Num.wrapPi (e.getD 2 0) else 0]
  let x := List.zipWith Num.div (e ++ nu) d.spans
  (x.map (fun v => (Num.narrow 1 v).1),
    Bits.bitsOf ((Bits.upTo 6).filter (fun k => decide (x.getD k 0 < -Num.one) || decide (Num.one - 2147483648 < x.getD k 0))))

/-- The velocity of the target over the hull in the body frame: along the course in TRACK (R236), otherwise none. -/
def Dev.targetDrift (d : Dev) : Num.Vec :=
  if d.solveMode = .track then
    let f := d.solver.force
    let (s, c) := Num.sinCos (Num.radDeg (Num.ofRaw 22 f.course))
    let v := Num.ofRaw 24 f.speed
    d.toBody [Num.mul v c, Num.mul v s, 0]
  else [0, 0, 0]

/-- The axes that the stick drives with its demand as a fraction of full scale (Table 7.7, R239). -/
def Dev.stickAxes (d : Dev) : List (Option Int) :=
  let (x, y, n) := d.solver.stick
  let q := fun (v : Int) => some (Num.ofRaw 15 v)
  if d.solveMode = .joystick then [q x, q y, q n] else if d.solveMode = .autoHeading then [q x, q y, none] else [none, none, none]

/-- The first saturation of a solve raises 0703h (R218). -/
def Dev.satEvent (slot : Nat) (was now : SatCount) (d : Dev) : Dev :=
  if was.n = 0 ∧ now.n ≠ 0 then
    d.raiseI 0x0703 1 slot (Bits.le 1 slot ++ Bits.le 1 now.phase ++ Bits.le 1 now.stage ++ Bits.le 4 d.frame.number)
  else d

/-- The section slacks above 1 % of P_norm (R247). -/
def Dev.slackWatch (out : Stage) (d : Dev) : Dev :=
  (Bits.upTo 8).foldl (fun x b =>
    let s := ((out.slacks.find? (fun y => y.1 == b)).map Prod.snd).getD 0
    let run := if q31 < 100 * s then x.solver.slackRun.getD b 0 + 1 else 0
    let x := x.modSolver (fun y => { y with slackRun := Bits.setAt y.slackRun b run })
    if run = 5 then x.raiseI 0x0708 1 b (Bits.le 1 b ++ Bits.leI 4 (Bits.roundUp (s * (x.stageNorm out b : Int)) 2147483648)) else x) d

/-- The count and events of SHIFTED outcomes (R231). -/
def Dev.countShifted (outcome : Nat) (d : Dev) : Dev :=
  let s := d.solver
  if outcome = 3 then
    let n := s.shifted + 1
    let run := if s.shiftedRun ≠ 0 then s.shiftedRun + 1 else if d.sPar 7 ≤ n then n else 0
    let d := d.modSolver (fun y => { y with shifted := n, shiftedRun := run })
    if s.shiftedRun = 0 ∧ run ≠ 0 then d.raise 0x0704 2 (Bits.le 4 d.frame.number) else d
  else
    let d := d.modSolver (fun y => { y with shifted := 0, shiftedRun := 0 })
    if s.shiftedRun ≠ 0 then d.raise 0x0705 0 (Bits.le 4 d.frame.number ++ Bits.le 2 s.shiftedRun) else d

/-- OUTPUT (R222, R229): record, points, demands and the previous solution of the next frame. -/
def Dev.solveOutput (s : Solve) (outcome phase : Nat) (count : Bool) (out : List Stage) (z y : List (List Int)) (d : Dev) : Dev :=
  let out := d.project out
  let o := out.headD { forces := [], slacks := [] }
  let base := s.base.headD o
  let slack := o.slacks.any (fun x => decide (0 < x.2))
  let entries := (Bits.upTo 24).map (fun j => match o.forces.find? (fun f => f.thr == j) with
    | some f => d.thrEntry f | none => [0, 0, 0, 0])
  let az := (Bits.upTo 24).map (fun j => match o.forces.find? (fun f => f.thr == j) with
    | some f => d.azimuthOf f | none => d.solver.azimuth.getD j 0)
  let x : SolRec := {
    frame := d.frame.number, stage0 := d.frame.t0 + 16000000, outcome := outcome, start := s.start, mode := d.solveMode.code,
    flags := s.flags + 4 * Bits.b2n slack + 8 * Bits.b2n d.solver.stickOut, key := s.key, iter := s.iter, sat := s.sat.n,
    tset := s.thrusters, phase := phase, thr := entries, sect := (Bits.upTo 8).map (d.sectEntry base o),
    cycles := s.cyclesTo s.iter, rp := Bits.word32 (Num.toRaw 24 s.point.rp), rd := Bits.word32 (Num.toRaw 24 s.point.rd), n := s.n, m := s.m, stages := s.stages }
  let d := d.modSolver (fun b => { b with
    solve := none, sol := x, demand := o.forces, azimuth := az,
    prev := some { key := s.key, thrusters := s.thrusters, sections := s.sections, stages := out, z := z, y := y } })
  let d := if outcome = 1 then d.raise 0x0701 0 (Bits.le 4 d.frame.number ++ Bits.le 2 s.iter)
    else if outcome = 2 then d.raise 0x0707 0 (Bits.le 4 d.frame.number)
    else if outcome = 3 then d.raise 0x0702 1 (Bits.le 4 d.frame.number ++ Bits.le 1 phase ++ Bits.le 2 (Bits.sat 0xFFFF s.sat.n))
    else d
  let d := if count then d.countShifted outcome else d
  let d := d.slackWatch o
  let awaited : Bool := match d.solver.modeReq with | some r => r.applied | none => false
  let d := if outcome ≤ 2 ∧ awaited then d.modeInForce d.solveMode else d
  d.solverPoints

/-- The output of R230: the previous solution shifted and mapped; free forces where there is none. With the same key z and y
shift with it, otherwise they are mapped as R225 says. -/
def Dev.outputShifted (s : Solve) (phase : Nat) (count : Bool) (d : Dev) : Dev :=
  let ts := Bits.maskBits 24 s.thrusters.toNat
  let bs := Bits.maskBits 8 s.sections.toNat
  let (out, d) := match d.solver.prev with
    | some p => (d.shifted p ts bs, d)
    | none => (freeStages d.free ts bs s.stages, d.fresh)
  let kind := match d.solver.prev with | some p => if p.key = s.key then 0 else 1 | none => 2
  let (it, _) := s.problem.start kind d.solver.prev (out.map (stageVec (d.forceVars ts))) {}
  d.solveOutput s 3 phase count out it.z it.y

/-- The end of a solve: R229 and R230. -/
def Dev.solveEnd (s : Solve) (outcome phase : Nat) (d : Dev) : Dev :=
  if s.sat.n = 0 ∧ outcome ≠ 3 ∧ s.iter ≠ 0 then
    let ts := Bits.maskBits 24 s.thrusters.toNat
    let bs := Bits.maskBits 8 s.sections.toNat
    d.solveOutput s outcome phase true (s.point.x.map (vecStage (d.forceVars ts) bs)) s.point.z s.point.y
  else d.outputShifted s phase true

/-- IDLE, and no thruster in the solve (Table 7.6): outcomes 4 and 5 give no solution. -/
def Dev.noSolve (outcome : Nat) (d : Dev) : Dev :=
  let x : SolRec := { frame := d.frame.number, stage0 := d.frame.t0 + 16000000, outcome := outcome, mode := d.solveMode.code,
                      flags := 8 * Bits.b2n d.solver.stickOut }
  let d := d.modSolver (fun y => { y with
    solve := none, sol := x, demand := [], prev := none, shifted := 0, slackRun := List.replicate 8 0 })
  let d := if outcome = 5 then d.raise 0x070C 3 (Bits.le 4 d.frame.number) else d
  d.solverPoints

/-- What the main problem of this frame is formed on (R205 to R214, R239). -/
def Dev.mainIn (d : Dev) (ts bs : List Nat) (base : List Stage) (s0 : List Int) : QpIn :=
  { ts := ts, bs := bs, base := base, first := d.solver.before.map (fun f => (f.thr, (f.fx, f.fy))), s0 := s0,
    env := d.recEnv, drift := d.targetDrift, stick := d.stickAxes, avail := d.solver.avail }

/-- SOLVE_SETUP at t0+4 ms (R206, R217): the initial state, the key, the start, its projection, the problem. -/
def Dev.solveSetup (d : Dev) : Dev :=
  if d.solveMode = .idle then d.noSolve 4
  else
    let ts := d.solveSet
    if ts.isEmpty then d.noSolve 5
    else
      let d := d.seedTarget
      let bs := d.sectsOf ts
      let key := d.structKey ts
      let prev := d.solver.prev
      let kind := startKind prev key ts
      let (eta, nu) := d.propagated
      let before := ts.map (fun j => let f := d.forceXY j (d.delivered j); ({ thr := j, fx := f.1, fy := f.2 } : Force))
      let d := d.modSolver (fun y => { y with eta := eta, nu := nu, before := before })
      let (s0, limited) := d.startState eta nu d.solveMode.holdsPosition d.solveMode.holdsHeading
      let (st, d) := d.startStages 100 prev kind ts bs s0
      let oldKey := match prev with | some p => p.key | none => 0
      let base := d.project st
      let x := d.mainIn ts bs base s0
      let (problem, sat) := d.formProblem x
      let (point, sat) := problem.start kind prev (base.map (stageVec (d.forceVars ts))) sat
      let s : Solve := {
        thrusters := BitVec.ofNat 24 (Bits.bitsOf ts), sections := BitVec.ofNat 8 (Bits.bitsOf bs), key := key, start := kind,
        n := d.blockSize ts, m := d.rowCount ts, stages := d.sPar 1, base := base, problem := problem, point := point,
        sat := sat, flags := Bits.b2n d.solver.mirrored + 2 * Bits.b2n (limited != 0),
        delivered := before, power := x.avail }
      let d := if kind = 0 then d else
        d.raise 0x0706 0 (Bits.le 1 0 ++ Bits.le 1 kind ++ Bits.le 3 oldKey.toNat ++ Bits.le 3 key.toNat)
      let d := if limited = 0 then d else d.raise 0x070D 1 (Bits.le 1 limited)
      if d.testedThisFrame 0 then d.outputShifted s 0 false
      else (d.satEvent 0 {} sat).modSolver (fun y => { y with solve := some s })

/-- The factor of a solve, formed once FACTOR has run, with what it saturates (R219). -/
def Solve.withFactor (s : Solve) : Solve :=
  match s.factor with
  | some _ => s
  | none =>
    let (f, c) := s.problem.factorise s.sat
    { s with factor := some f, sat := c }

/-- One iteration of a solve (R220). -/
def Solve.iterate (s : Solve) : Solve :=
  let s := s.withFactor
  let (it, c) := s.problem.iterate (s.factor.getD []) s.point s.sat
  { s with point := it, iter := s.iter + 1, sat := c }

/-- SOLVE_ITERATION_COMPLETE (R220 to R222): an iteration that fits has ended. -/
def Dev.solveIteration (d : Dev) : Dev :=
  match d.solver.solve with
  | none => d
  | some s =>
    let c := s.cyclesTo (s.iter + 1)
    if d.cycleLimit < c ∨ d.arrayCycles < c then d
    else
      let n := s.iterate
      let d := d.satEvent 0 s.sat n.sat
      if n.point.converged (d.sPar 4) (d.sPar 5) then d.solveEnd n 0 0
      else if d.sPar 3 ≤ n.iter then d.solveEnd n 2 0
      else d.modSolver (fun y => { y with solve := some n })

/-- SOLVE_DEADLINE (R229, R230). -/
def Dev.solveDeadline (d : Dev) : Dev :=
  match d.solver.solve with
  | none => d
  | some s =>
    if d.arrayCycles < d.cycleLimit then d
    else
      let phase := if d.cycleLimit < setupCycles s.stages s.n s.m then 1 else if d.cycleLimit < s.cyclesTo 0 then 2 else 3
      let n := if phase = 3 then s.withFactor else s
      (d.satEvent 0 s.sat n.sat).solveEnd n 1 phase

/-! ### The handoff (R24, R280, R288) -/

/-- The set-points of slot 0's outputs (R280). -/
def Dev.setPoints (d : Dev) : List SetPt :=
  let q := d.solver.sol.quality
  (Bits.upTo 24).map (fun j =>
    let az := wrap16 (Bits.roundUp (d.solver.azimuth.getD j 0) 23040)
    match d.solver.demand.find? (fun f => f.thr == j) with
    | none => { az := az, quality := q }
    | some f =>
      let t := d.thrPar j 0
      let v := fun (x : Int) => q31to15 x
      if t = 1 then { thrust := v (Fix.sqrtI (f.fx * f.fx + f.fy * f.fy)), az := az, fx := v f.fx, fy := v f.fy, quality := q }
      else if t = 2 then { thrust := v f.fx, az := az, fy := v f.fx, quality := q }
      else { thrust := v f.fx, az := az, fx := v f.fx, quality := q })

/-- HANDOFF at t0+15 ms: with an unreadable record the loops keep their set-points and 0103h is raised (Table 1.1). -/
def Dev.handoff (readable : Bool) (d : Dev) : Dev :=
  if readable then
    { d with engine := { d.engine with handed := some d.setPoints }, frame := { d.frame with handoffFailed := false } }
  else
    ({ d with engine := { d.engine with handed := some d.engine.setpoints },
              frame := { d.frame with handoffFailed := true } }).raise 0x0103 3 (Bits.le 4 d.frame.number)

/-! ### Refinement (R240 to R242) -/

/-- The nominal of parameter i of R240. -/
def Dev.nominal (d : Dev) (i : Nat) : Int := if i = 3 ∨ i = 7 then d.parI 0x10 (1 + i) else (d.parN 0x10 (1 + i) : Nat)
/-- Every refined value at its nominal. -/
def Dev.refineReset (d : Dev) : Dev :=
  d.modSolver (fun s => { s with refine := { s.refine with
    values := (Bits.upTo 8).map (fun i => 65536 * d.nominal i), next := none, open' := false, cov := [] } })

/-- The window of a frame opens when R240 and R242 allow it. -/
def Dev.refineStart (d : Dev) : Dev :=
  let f := d.fusion.sflags
  if d.parB 0x10 9 && d.solver.mode != .idle && f &&& 0x003B == 0 && d.solver.sol.outcome != 3 && decide (d.health.x < 100) &&
      !d.testedThisFrame 0 then
    d.modSolver (fun s => { s with refine := { s.refine with open' := true } })
  else d

/-- The regressors of one frame (R240): the accelerations and velocities that multiply MASS_X, MASS_Y, INERTIA_N, MASS_YN,
DAMP_X, DAMP_Y, DAMP_N and DAMP_YN in surge, sway and yaw. -/
def regressors (a v : Num.Vec) : List Num.Vec :=
  let x := fun (l : Num.Vec) (i : Nat) => l.getD i 0
  [[x a 0, 0, 0, 0, x v 0, 0, 0, 0], [0, x a 1, 0, x a 2, 0, x v 1, 0, x v 2], [0, 0, x a 2, x a 1, 0, 0, x v 2, x v 1]]

/-- One equation of the recursive least squares: the estimates and their covariance after it. -/
def rlsStep (s : Num.Vec × Num.Mat) (e : Num.Vec × Int) : Num.Vec × Num.Mat :=
  let pf := Num.mulV s.2 e.1
  let den := Num.one + Num.dot e.1 pf
  let gain := pf.map (fun v => Num.div v den)
  (Num.addV s.1 (Num.scale (e.2 - Num.dot e.1 s.1) gain), Num.subM s.2 (Num.outer gain pf))

/-- The covariance of the refinement, or the one that it starts from. -/
def RefineSt.covariance (r : RefineSt) : Num.Mat :=
  if r.cov.isEmpty then Num.diag ((Bits.upTo 8).map (fun i => (Config.startVariance (100 + i) : Int))) else r.cov

/-- The fit of frame k − 1 to the delivered thrust (R240), with a forgetting time of 600 s: estimates and covariance. -/
def Dev.refineFit (d : Dev) (before : Num.Vec) : Num.Vec × Num.Mat :=
  let v := d.recNu
  let a := (Num.subV v before).map (fun x => 50 * x)
  let tau := Num.addV (sumForces (d.thrsPresent.map (fun j => d.forceOf j (d.forceXY j (d.delivered j))))) d.recEnv
  let keep := Num.exp (-(Num.frac 2 60000))
  let cov := d.solver.refine.covariance.map (fun r => r.map (fun x => Num.div x keep))
  (List.zip (regressors a v) tau).foldl rlsStep ((Bits.upTo 8).map d.refined, cov)

/-- One estimate held by its band and its rate (R241); 0709h once per 10 minutes at a band. -/
def Dev.refineOne (est : Num.Vec) (i : Nat) (s : List Int × Dev) : List Int × Dev :=
  let d := s.2
  let now := d.solver.refine.values.getD i 0
  let nom := 65536 * d.nominal i
  let mag := Bits.absI nom
  let band := mag * (d.parN 0x10 (if i < 4 then 0xA else 0xB) : Nat) / 100
  let step := mag * (d.parN 0x10 0xC : Nat) / 300000
  let x := Bits.clampI (now - step) (now + step) (Bits.roundUp (est.getD i 0) (2 ^ 46))
  let y := Bits.clampI (nom - band) (nom + band) x
  let due : Bool := match d.solver.refine.raised.getD i none with | some t => decide (600000000000 ≤ d.time.now - t) | none => true
  let d := if x ≠ y ∧ due then
      (d.modSolver (fun z => { z with refine := { z.refine with raised := Bits.setAt z.refine.raised i (some d.time.now) } })).raise
        0x0709 0 (Bits.le 1 i ++ Bits.le 1 (Bits.b2n (decide (y < x))))
    else d
  (s.1 ++ [y], d)

/-- The window ends at t0+3.8 ms: the estimates wait for the next tick. -/
def Dev.refineEnd (d : Dev) : Dev :=
  if d.solver.refine.open' then
    let d := d.modSolver (fun s => { s with refine := { s.refine with open' := false } })
    match d.solver.refine.vel with
    | [_, before] =>
      let (est, cov) := d.refineFit before
      let (l, d) := (Bits.upTo 8).foldl (fun s i => Dev.refineOne est i s) (([] : List Int), d)
      d.modSolver (fun s => { s with refine := { s.refine with next := some l, cov := cov } })
    | _ => d
  else d

/-- The estimates are adopted at a tick; the velocities of the record that has just ended are kept for the next fit. -/
def Dev.refineTick (d : Dev) : Dev :=
  let d := d.modSolver (fun s => { s with refine := { s.refine with vel := (d.recNu :: s.refine.vel).take 2 } })
  match d.solver.refine.next with
  | some l => d.modSolver (fun s => { s with refine := { s.refine with values := l, next := none } })
  | none => d

/-- REFINED_MODEL_STORE_WRITE, every 10 minutes (R241). -/
def Dev.refineStore (d : Dev) : Dev :=
  if d.parB 0x10 9 && decide (600000000000 ≤ d.time.now - d.solver.refine.storeAt) then
    let d := d.modSolver (fun s => { s with refine := { s.refine with storeAt := d.time.now } })
    { d with nvm := { d.nvm with refined := some d.solver.refine.values } }
  else d

/-- At start-up the stored values come back, else the nominals. -/
def Dev.refineLoad (d : Dev) : Dev :=
  match d.nvm.refined with
  | some l => d.modSolver (fun s => { s with refine := { s.refine with values := l, storeAt := d.time.now } })
  | none => d.refineReset

end Sys2Proof.Machine
end

