-- ==== Sys2Proof/Machine/Conseq.lean ====
section
/-! DEFINITION. Machine/Conseq.lean: the consequence analysis (08 R254 to R271): the what-if solves of slots 1 to 63, their
windows and cycles, the capability test, the alarms, the records and the points. -/

namespace Sys2Proof.Machine

open Sys2Proof

/-! ### Parts -/

/-- A field of table FAILGROUPS. -/
def Dev.cPar (d : Dev) (p : Nat) : Nat := d.parN 0x13 p
/-- A field of group g's block (R270). -/
def Dev.cqPar (d : Dev) (g o : Nat) : Nat := d.parN 0x13 (16 * g + o)
/-- The consequence analysis changed. -/
def Dev.modConseq (f : ConseqSt → ConseqSt) (d : Dev) : Dev := { d with conseq := f d.conseq }
/-- A group. -/
def Dev.group (d : Dev) (g : Nat) : Group := Bits.get (fun _ => ({} : Group)) d.conseq.groups g
/-- A group changed. -/
def Dev.modGroup (g : Nat) (f : Group → Group) (d : Dev) : Dev :=
  d.modConseq (fun c => { c with groups := Bits.put (fun _ => ({} : Group)) c.groups g (f (d.group g)) })
/-- Every group changed. -/
def Dev.mapGroups (f : Group → Group) (d : Dev) : Dev :=
  d.modConseq (fun c => { c with groups := Bits.mapV (fun _ => ({} : Group)) f c.groups })
/-- The groups in use (R254). -/
def Dev.groupsInUse (d : Dev) : List Nat := (Bits.upTo 64).filter (fun g => g != 0 && d.cqPar g 0 == 1)
/-- The whole analysis shows BAD: not enabled, or the mode is IDLE (R267). -/
def Dev.conseqHidden (d : Dev) : Bool := d.cPar 1 == 0 || d.solver.mode == .idle

/-! ### Records and points (R267, R268) -/

/-- RFLAGS of a group as read (Table 8.3). -/
def Group.rflags (g : Group) : Nat := g.res.rflags + 4 * Bits.b2n g.stale + 128 * Bits.b2n g.alarm

/-- The age of a result, ms, on the raw counter (R14, Table 8.3). -/
def Dev.ageMs (d : Dev) (r : ConseqRes) : Nat :=
  if r.result = 0 then 0xFFFFFFFF else Bits.sat 0xFFFFFFFF ((d.time.now - (r.startRaw + 16000000)) / 1000000)

/-- CFLAGS (Table 8.3). -/
def Dev.cqFlags (d : Dev) : Nat :=
  flagBits [d.conseq.active, d.conseq.active && d.conseq.stretched, d.conseq.groups.any (fun p => p.2.stale)]

/-- WORST_G and WORST_R: the highest result code, lowest group on ties. -/
def Dev.worstGroup (d : Dev) : Nat × Nat :=
  d.conseq.groups.foldl (fun a p => if a.2 < p.2.res.result then (p.1, p.2.res.result) else a) (0xFF, 0)

/-- A figure in tenths of a percent. -/
def tenths (x : Int) : Nat := Bits.sat 0xFFFF (Bits.roundUp (10 * x) 65536).toNat

/-- A group record (Table 8.3). -/
def Dev.groupBytes (d : Dev) (g : Nat) : List Byte :=
  let x := d.group g
  let r := x.res
  Bits.le 1 g ++ Bits.le 1 r.result ++ Bits.le 1 x.rflags ++ Bits.le 1 r.start ++ Bits.le 4 r.startFrame ++ Bits.le 2 r.iter ++
    Bits.le 2 (tenths r.util) ++ Bits.le 4 (Bits.roundUp (1000 * r.pos) 65536).toNat ++
    Bits.le 4 (Bits.roundUp (1000 * r.hdg) 4194304).toNat ++
    r.unbal.flatMap (fun u => Bits.le 2 (tenths u)) ++ Bits.le 2 r.worst ++ Bits.le 4 (d.ageMs r)

/-- The 16 bytes that begin every CONSEQ_READ payload (R268). -/
def Dev.conseqHead (d : Dev) : List Byte :=
  let (wg, wr) := d.worstGroup
  let c := d.conseq
  Bits.le 4 c.cycles ++ Bits.le 4 c.lastDone ++ Bits.le 2 c.lastLen ++ Bits.le 1 wg ++ Bits.le 1 wr ++
    Bits.le 1 d.groupsInUse.length ++ Bits.le 1 (c.groups.filter (fun p => p.2.alarm)).length ++ Bits.le 1 d.health.x ++
    Bits.le 1 d.cqFlags

/-- CONSEQ_READ (R268). -/
def Dev.conseqReadOp (r : Req) (d : Dev) : OpRes :=
  let head := d.conseqHead
  if 63 < r.tgt then refuse d stRange
  else if r.tgt = 0 then
    if maxPayload r.src.tr < 2032 then refuse d stBadLength (16 + 32 * ((maxPayload r.src.tr - 16) / 32))
    else reads d (head ++ ((Bits.upTo 63).map (fun g => d.groupBytes (g + 1))).flatten)
  else reads d (head ++ d.groupBytes r.tgt)

/-- The points of group g (Table 8.4). -/
def Dev.groupPoints (g : Nat) (d : Dev) : Dev :=
  let x := d.group g
  let r := x.res
  let st := BitVec.ofNat 32 r.stage0
  let q := if r.result = 0 || d.conseqHidden then 3 else if x.stale then 1 else 0
  let b := 3584 + 8 * g
  let u := fun (i v : Nat) (z : Dev) => z.post 8 i 3 (val32 (BitVec.ofNat 32 v)) st q
  let f := fun (i n : Nat) (v : Int) (z : Dev) => z.post 8 i 4 (valFix n v) st q
  let d := f (b + 2) 16 r.util (u (b + 1) x.rflags (u b r.result d))
  let d := f (b + 4) 22 r.hdg (f (b + 3) 16 r.pos d)
  f (b + 7) 16 (r.unbal.getD 2 0) (f (b + 6) 16 (r.unbal.getD 1 0) (f (b + 5) 16 (r.unbal.getD 0 0) d))

/-- The points of every group that has a record. -/
def Dev.allGroupPoints (d : Dev) : Dev := d.conseq.groups.foldl (fun z p => z.groupPoints p.1) d

/-- The cycle points (Table 8.4). -/
def Dev.cyclePoints (d : Dev) : Dev :=
  let c := d.conseq
  let (wg, wr) := d.worstGroup
  let alarms := Bits.bitsOf ((c.groups.filter (fun p => p.2.alarm)).map Prod.fst)
  let rs := (c.groups.filter (fun p => p.2.res.result != 0)).map (fun p => d.ageMs p.2.res)
  let old := rs.foldl Nat.max 0
  ([c.cycles, c.lastLen, wg, wr, alarms % 2 ^ 32, alarms / 2 ^ 32, old, d.cqFlags].foldl
    (fun (s : Nat × Dev) v => (s.1 + 1, s.2.post 8 s.1 3 (val32 (BitVec.ofNat 32 v)) d.short 0)) (3584, d)).2

/-! ### A what-if (R255, R256, R259, R263, R264) -/

/-- A group leaves the queue with its result held for the tail slot. -/
def Dev.holdResult (g : Nat) (r : ConseqRes) (mainKey : Word) (d : Dev) : Dev :=
  (d.modGroup g (fun x => { x with ready := some (r, mainKey) })).modConseq (fun c => { c with current := none })

/-- What the problem of group g is formed on in this frame (R255). -/
def Dev.whatIn (d : Dev) (g : Nat) (ts bs : List Nat) (base : List Stage) (s0 : List Int) : QpIn :=
  let qs := fun (i : Nat) => d.recNum (17 + i) 8 * (d.cPar 2 : Int) / 100
  { ts := ts, bs := bs, base := base,
    first := (d.solver.before.filter (fun f => ts.contains f.thr)).map (fun f => (f.thr, (f.fx, f.fy))), s0 := s0,
    env := [qs 0, qs 1, qs 2], drift := d.targetDrift, stick := [none, none, none],
    avail := (Bits.upTo 8).map (fun b => d.solver.avail.getD b 0 - d.cqPar g (4 + b)) }

/-- SETUP of a group's what-if on the data of this frame. -/
def Dev.beginWhatIf (g : Nat) (d : Dev) : Dev :=
  let lostT := d.cqPar g 1
  let lostS := d.cqPar g 2
  let ts := d.solveSet.filter (fun j => !(lostT.testBit j))
  let stage0 := d.frame.t0 + 16000000
  let mainKey := d.solver.sol.key
  if ts.isEmpty then d.holdResult g { result := 5, startFrame := d.frame.number, stage0 := stage0, startRaw := d.rawT0 } mainKey
  else
    let bs := (d.sectsOf ts).filter (fun b => !(lostS.testBit b))
    let key := d.structKey ts
    let prev := (d.group g).prev
    let kind := startKind prev key ts
    let oldKey := match prev with | some p => p.key | none => 0
    let pct := d.cPar 2
    let (s0, _) := d.startState d.solver.eta d.solver.nu d.solveMode.holdsPosition d.solveMode.holdsHeading
    let (st, d) := d.startStages pct prev kind ts bs s0
    let base := d.project st
    let x := d.whatIn g ts bs base s0
    let (problem, sat) := d.formProblem x
    let (point, sat) := problem.start kind prev (base.map (stageVec (d.forceVars ts))) sat
    let w : WhatIf := {
      group := g, startFrame := d.frame.number, stage0 := stage0, mainKey := mainKey, key := key, start := kind,
      thrusters := BitVec.ofNat 24 (Bits.bitsOf ts), sections := BitVec.ofNat 8 (Bits.bitsOf bs),
      params := d.cfg.committed.filter (fun e => decide (Sys2Proof.Machine.key 0x10 0 ≤ e.1) && decide (e.1 < Sys2Proof.Machine.key 0x14 0)),
      points := d.image.snap.filter (fun e => d.thrsPresent.any (fun j =>
        decide (d.thrPar j 0xE ≤ e.1) && decide (e.1 < d.thrPar j 0xE + 4))),
      before := (d.deliveredOf st).map (fun p => (p.1, p.2.r, p.2.a)),
      avail := x.avail, env := (Bits.upTo 3).map (fun i => (pct : Int) * (d.fusion.record.getD (17 + i) 0).toInt),
      limits := (Bits.upTo 24).map d.limitOf, base := base, n := d.blockSize ts, m := d.rowCount ts, startRaw := d.rawT0,
      problem := problem, point := point, sat := sat, most := Nat.max 1 (d.sPar 3), epsP := d.sPar 4, epsD := d.sPar 5 }
    let d := d.modConseq (fun c => { c with current := some w })
    if kind = 0 then d
    else d.raiseI 0x0706 0 g (Bits.le 1 g ++ Bits.le 1 kind ++ Bits.le 3 oldKey.toNat ++ Bits.le 3 key.toNat)

/-- The array cycles that the open window has given so far, within its quota (R258, R261). -/
def Dev.windowCycles (d : Dev) : Nat := Nat.min d.conseq.quota ((d.time.now - d.conseq.openAt) * 3 / 5)

/-- Work in an open window: groups without a thruster have their result at once, the next one begins its SETUP while the
window still has cycles. -/
def Dev.conseqWork : Nat → Dev → Dev
  | 0, d => d
  | fuel + 1, d =>
    if d.conseq.window && d.conseq.active && d.conseq.current.isNone && decide (d.conseq.spent < d.conseq.quota) then
      match d.conseq.queue.find? (fun g => (d.group g).ready.isNone) with
      | some g => Dev.conseqWork fuel (d.beginWhatIf g)
      | none => d
    else d

/-- A window of R258 opens after `delay` ns for work up to the device time `stop`: none in IDLE, under a full throttle, or
with the solver under test. Its quota is (100 − x) % of its array cycles (R261). -/
def Dev.conseqOpen (delay stop : Nat) (d : Dev) : Dev :=
  if d.solver.mode = .idle || decide (100 ≤ d.health.x) || d.testedThisFrame 0 then d
  else (d.modConseq (fun c => { c with
    window := true, openAt := d.time.now + delay, spent := 0,
    quota := (stop - d.dev - delay) * 3 * (100 - d.health.x) / 500 })).conseqWork 64

/-- The window closes: the progress of the what-if in it is kept. -/
def Dev.conseqClose (d : Dev) : Dev :=
  if d.conseq.window then
    let more := d.windowCycles - d.conseq.spent
    d.modConseq (fun c => { c with
      window := false, current := c.current.map (fun (w : WhatIf) => { w with progress := w.progress + more }) })
  else d

/-- A quotient with 16 fraction bits in per cent; a free value where the manual has nothing to divide by. -/
def Dev.percent (num den : Int) (d : Dev) : Int × Dev :=
  if 0 < den then (Bits.roundUp (100 * 65536 * num) den.toNat, d)
  else let (v, d) := d.solverFree; ((v % 2 ^ 24 : Nat), d)

/-- The larger of two figures, with the unit that gives it: the first on ties. -/
def worse (a b : Int × Nat) : Int × Nat := if a.1 < b.1 then b else a

/-- The utilisation of stage N − 1 and its unit (R263). -/
def Dev.utilisation (w : WhatIf) (s base : Stage) (d : Dev) : (Int × Nat) × Dev :=
  let byThr := s.forces.foldl (fun (a : (Int × Nat) × Dev) f =>
    let (p, z) := a.2.percent (Fix.sqrtI (f.fx * f.fx + f.fy * f.fy)) (w.limits.getD f.thr 0)
    (worse a.1 (p, f.thr), z)) ((-1, 0), d)
  (Bits.maskBits 8 w.sections.toNat).foldl (fun (a : (Int × Nat) × Dev) b =>
    let e := a.2.sectEntry base s b
    let (p, z) := a.2.percent e.1 (w.avail.getD b 0 : Nat)
    (worse a.1 (p, 256 + b), z)) byThr

/-- UNBAL_X, UNBAL_Y and UNBAL_N of stage N − 1 (R263). -/
def Dev.unbalance (w : WhatIf) (s : Stage) (d : Dev) : List Int × Dev :=
  let fm := fun (j : Nat) => (d.thrPar j 3 : Int)
  let px := fun (j : Nat) => (d.par 0x11 (0x21 + 32 * j)).toInt
  let py := fun (j : Nat) => (d.par 0x11 (0x22 + 32 * j)).toInt
  let v := fun (f : Force) => if d.thrPar f.thr 0 = 2 then ((0 : Int), f.fx) else (f.fx, f.fy)
  let tx := Bits.sumI (s.forces.map (fun f => (v f).1 * fm f.thr))
  let ty := Bits.sumI (s.forces.map (fun f => (v f).2 * fm f.thr))
  let tn := Bits.sumI (s.forces.map (fun f => (px f.thr * (v f).2 - py f.thr * (v f).1) * fm f.thr))
  let env := fun (i : Nat) => w.env.getD i 0
  let lim := fun (j : Nat) => w.limits.getD j 0 * fm j
  let of := fun (k : Nat) => s.forces.filter (fun f => d.thrPar f.thr 0 != k)
  let cx := Bits.sumI ((of 2).map (fun f => lim f.thr))
  let cy := Bits.sumI ((of 3).map (fun f => lim f.thr))
  let cn := Bits.sumI (s.forces.map (fun f =>
    lim f.thr * Fix.sqrtI ((px f.thr * px f.thr + py f.thr * py f.thr) * 1000000)))
  let (x, d) := d.percent (Bits.absI (25600 * tx + 10 * q31 * env 0)) (25600 * cx)
  let (y, d) := d.percent (Bits.absI (25600 * ty + 10 * q31 * env 1)) (25600 * cy)
  let (n, d) := d.percent (Bits.absI (25600000 * tn + 10000000 * q31 * env 2)) (25600 * cn)
  ([x, y, n], d)

/-- The slack of a surviving section exceeds 1 % of its P_norm (Table 8.1). -/
def slackOver (s : Stage) : Bool := s.slacks.any (fun x => decide (q31 < 100 * x.2))

/-- ITERATE of a what-if to convergence or ITER_MAX (R258): iterations, the last iterate, its saturations, convergence. -/
def Problem.run (p : Problem) (f : List FactorStage) (epsP epsD : Nat) :
    Nat → Nat → Iterate → SatCount → Nat × Iterate × SatCount × Bool
  | 0, k, it, s => (k, it, s, false)
  | fuel + 1, k, it, s =>
    let (it, s) := p.iterate f it s
    if it.converged epsP epsD then (k + 1, it, s, true) else Problem.run p f epsP epsD fuel (k + 1) it s

/-- The greatest horizontal error (m, 16 fraction bits) and heading error (degrees, 22 fraction bits) at the stage boundaries,
the end of the last stage included (Table 8.1). -/
def Dev.peaks (d : Dev) (p : Problem) (x : List Num.Vec) : Int × Int :=
  let last := x.getLastD []
  let final := (List.zipWith (fun r c => Num.dotX r last / 2147483648 + c) (p.endA.map (fun r => r ++ Num.zeros (last.length - r.length))) p.endC)
  let es := x.map (fun v => [v.getD 0 0, v.getD 1 0, v.getD 2 0]) ++ [(final.take 3).map (fun v => v / 2147483648)]
  (Bits.maxI 0 (es.map (fun e =>
      Fix.sqrtI (e.getD 0 0 * e.getD 0 0 + e.getD 1 0 * e.getD 1 0) * (d.sPar 8 : Int) / 32768)),
   Bits.maxI 0 (es.map (fun e => Bits.absI (e.getD 2 0) * 180 / 512)))

/-- The module with the parameters and points of a what-if's start frame (R255, R259). -/
def Dev.startOf (w : WhatIf) (d : Dev) : Dev :=
  { d with cfg := { d.cfg with committed := w.params }, image := { d.image with snap := w.points } }

/-- The output of a what-if, projected on its start data (R228, R259). -/
def Dev.whatOut (d : Dev) (w : WhatIf) (x : List Num.Vec) : List Stage :=
  (d.startOf w).projectGo 0 (w.before.map (fun p => (p.1, { r := p.2.1, a := p.2.2 })))
    (x.map (vecStage (d.forceVars (Bits.maskBits 24 w.thrusters.toNat)) (Bits.maskBits 8 w.sections.toNat)))

/-- WHATIF_COMPLETE (R258, R263, R264): once the windows have given the what-if its cycles, its output is evaluated. -/
def Dev.whatifComplete (d : Dev) : Dev :=
  match (if d.conseq.window then d.conseq.current else none) with
  | none => d
  | some w =>
    let ts := Bits.maskBits 24 w.thrusters.toNat
    let (f, sat) := w.problem.factorise w.sat
    let (iter, it, sat, conv) := w.problem.run f w.epsP w.epsD w.most 0 w.point sat
    let st := w.base.length
    let cost := setupCycles st w.n w.m + factorCycles st w.n w.m + iter * iterCycles st w.n w.m
    if w.progress + (d.windowCycles - d.conseq.spent) < cost + 2000 then d
    else
      let d := d.modConseq (fun c => { c with spent := c.spent + (cost + 2000 - w.progress) })
      let vs := d.forceVars ts
      let out := d.whatOut w it.x
      let last := out.getLastD { forces := [], slacks := [] }
      let lastBase := w.base.getLastD last
      let ((u, unit), d) := d.utilisation w last lastBase
      let (un, d) := d.unbalance w last
      let (pos, hdg) := d.peaks w.problem (out.map (stageVec vs))
      let fails := flagBits [
        decide (d.cPar 3 * 65536 < 1000 * pos), decide (d.cPar 4 * 4194304 < 1000 * hdg),
        un.any (fun x => decide ((d.cPar 6 : Int) * 65536 < x)), slackOver last]
      let result := if sat.n ≠ 0 then 4 else if fails ≠ 0 then 3 else if (d.cPar 5 : Int) * 65536 < u then 2 else 1
      let r : ConseqRes := {
        result := result, rflags := 2 * Bits.b2n (!conv) + (if sat.n ≠ 0 then 0 else 8 * fails), start := w.start,
        startFrame := w.startFrame, stage0 := w.stage0, startRaw := w.startRaw, iter := iter, util := u, pos := pos, hdg := hdg,
        unbal := un, worst := unit }
      let first := out.headD { forces := [], slacks := [] }
      let slack := first.slacks.any (fun x => decide (0 < x.2))
      let sol : SolRec := {
        frame := w.startFrame, stage0 := w.stage0, outcome := if conv then 0 else 2, start := w.start, mode := d.solveMode.code,
        flags := 4 * Bits.b2n slack, key := w.key, iter := iter, sat := sat.n, tset := w.thrusters,
        thr := (Bits.upTo 24).map (fun j => match first.forces.find? (fun f => f.thr == j) with
          | some f => d.thrEntry f | none => [0, 0, 0, 0]),
        sect := (Bits.upTo 8).map (d.sectEntry (w.base.headD first) first), cycles := cost,
        rp := Bits.word32 (Num.toRaw 24 it.rp), rd := Bits.word32 (Num.toRaw 24 it.rd), n := w.n, m := w.m, stages := st }
      let d := if sat.n = 0 then d else
        (d.satEvent w.group {} sat).raiseI 0x0807 1 w.group
          (Bits.le 1 w.group ++ Bits.le 2 (Bits.sat 0xFFFF sat.n) ++ Bits.le 1 sat.phase)
      let d := d.modGroup w.group (fun x => { x with
        sol := sol, prev := some { key := w.key, thrusters := w.thrusters, sections := w.sections, stages := out, z := it.z, y := it.y } })
      (d.holdResult w.group r w.mainKey).conseqWork 64

/-! ### The tail slot (R265, R267) -/

/-- A result is written: the record, its points, 0803h on a change into MARGINAL. -/
def Dev.writeResult (g : Nat) (d : Dev) : Dev :=
  match (d.group g).ready with
  | none => d
  | some (r, k) =>
    let was := (d.group g).res.result
    let r := { r with rflags := r.rflags + Bits.b2n (decide (k ≠ d.solver.sol.key)) }
    let d := d.modGroup g (fun x => { x with res := r, ready := none, stale := false })
    let d := d.modConseq (fun c => { c with queue := c.queue.filter (fun h => h != g) })
    let d := if r.result = 2 ∧ was ≠ 2 then d.raiseI 0x0803 0 g (Bits.le 1 g ++ Bits.le 2 (tenths r.util)) else d
    d.groupPoints g

/-- The alarm of a group at the end of a cycle (R265). -/
def Dev.alarmStep (d : Dev) (g : Nat) : Dev :=
  let x := d.group g
  let r := x.res
  let need := d.cPar 9
  let bad := if 3 ≤ r.result then x.bad + 1 else 0
  let good := if 3 ≤ r.result then 0 else x.good + 1
  let d := d.modGroup g (fun y => { y with bad := bad, good := good })
  if !x.alarm && decide (need ≤ bad) then
    let d := d.modGroup g (fun y => { y with alarm := true, alarmAt := d.time.now })
    (d.raiseI 0x0801 (d.cqPar g 3) g (Bits.le 1 g ++ Bits.le 1 r.result ++ Bits.le 1 (d.group g).rflags ++
      Bits.le 2 (tenths r.util))).groupPoints g
  else if x.alarm && decide (need ≤ good) then
    let d := d.modGroup g (fun y => { y with alarm := false })
    (d.raiseI 0x0802 0 g (Bits.le 1 g ++ Bits.le 4 ((d.time.now - x.alarmAt) / 1000000000))).groupPoints g
  else d

/-- The end of the tail slot: results are written and, with the queue empty, the cycle completes (R257, R261). -/
def Dev.conseqTail (d : Dev) : Dev :=
  let d := (Bits.upTo 64).foldl (fun z g => z.writeResult g) d.conseqClose
  if d.conseq.active && d.conseq.queue.isEmpty then
    let c := d.conseq
    let len := 50 * ((Bits.diff32 d.frame.number c.firstFrame).toNat / 50 + 1)
    let d := d.modConseq (fun y => { y with
      active := false, cycles := y.cycles + 1, lastDone := d.frame.number, lastLen := len, members := [] })
    let d := c.members.foldl Dev.alarmStep d
    let d := if c.stretched then d.raise 0x0804 0 (Bits.le 4 len ++ Bits.le 1 d.health.x) else d
    d.cyclePoints
  else d

/-! ### The cycle (R257, R262, R266) -/

/-- The cycle in progress is abandoned (R262). In IDLE no previous solution stays (R237). -/
def Dev.conseqAbandon (d : Dev) : Dev :=
  let d := d.modConseq (fun c => { c with
    active := false, queue := [], members := [], current := none, stretched := false, overdue := false, window := false })
  d.mapGroups (fun x => { x with ready := none })

/-- At a tick: CONSEQ_EN and IDLE take effect, and a whole second starts a cycle or stretches the one in progress. -/
def Dev.conseqTick (d : Dev) : Dev :=
  let en := d.cPar 1 == 1
  let d := if en && !d.conseq.enabled then
      (d.mapGroups (fun x => { x with res := {}, stale := false })).allGroupPoints
    else d
  let d := d.modConseq (fun c => { c with enabled := en })
  let idle := d.solver.mode == .idle
  let d := if (!en || idle) && d.conseq.active then d.conseqAbandon else d
  let d := if idle then d.mapGroups (fun x => { x with prev := none }) else d
  let d := if d.conseq.hidden != d.conseqHidden then
      (d.modConseq (fun c => { c with hidden := d.conseqHidden })).allGroupPoints
    else d
  if d.frame.t0 % 1000000000 ≠ 0 then d
  else if d.conseq.active then d.modConseq (fun c => { c with stretched := true })
  else if en && !idle then
    d.modConseq (fun c => { c with
      active := true, queue := d.groupsInUse, members := d.groupsInUse, firstFrame := d.frame.number, firstRaw := d.rawT0, stretched := false, overdue := false })
  else d

/-- CYCLE_OVERDUE (R261). -/
def Dev.cycleOverdue (d : Dev) : Dev :=
  let n := (Bits.diff32 d.frame.number d.conseq.firstFrame).toNat
  if d.conseq.active && !d.conseq.overdue && decide (1000000000 * d.cPar 7 < d.time.now - d.conseq.firstRaw) then
    (d.modConseq (fun c => { c with overdue := true })).raise 0x0805 1 (Bits.le 4 n ++ Bits.le 1 d.conseq.queue.length)
  else d

/-- RESULT_STALE (R266). -/
def Dev.resultStale (g : Nat) (d : Dev) : Dev :=
  let x := d.group g
  if 1 ≤ g ∧ g ≤ 63 ∧ x.res.result ≠ 0 ∧ x.stale = false ∧ 1000000000 * d.cPar 8 < d.rawT0 - x.res.startRaw then
    let d := d.modGroup g (fun y => { y with stale := true })
    (d.raiseI 0x0806 1 g (Bits.le 1 g ++ Bits.le 4 (d.ageMs x.res))).groupPoints g
  else d

end Sys2Proof.Machine
end

