-- ==== Sys2Proof/Machine/Island.lean ====
section
/-! DEFINITION. Machine/Island.lean: the safety island (14 R407 to R433): contacts, discrepancy and line test, plans and
restart, outputs with their read-back and test pulses, master disconnects, the Bezel. -/

namespace Sys2Proof.Machine

open Sys2Proof

/-! ### Parts -/

/-- The island changed. -/
def Dev.modSafe (f : IslandSt → IslandSt) (d : Dev) : Dev := { d with island := f d.island }
/-- An input changed. -/
def Dev.modIn (i : Nat) (f : SafeIn → SafeIn) (d : Dev) : Dev := d.modSafe (fun s => { s with inputs := Bits.modAt s.inputs i f })
/-- An output changed. -/
def Dev.modOut (n : Nat) (f : SafeOut → SafeOut) (d : Dev) : Dev := d.modSafe (fun s => { s with outputs := Bits.modAt s.outputs n f })
/-- Input i. -/
def Dev.safeIn (d : Dev) (i : Nat) : SafeIn := d.island.inputs.getD i {}
/-- Output n. -/
def Dev.safeOut (d : Dev) (n : Nat) : SafeOut := d.island.outputs.getD n {}

/-- The plan of a Bezel word (S24 to S26, Table 14.4). -/
def bezelPlan (w : Word) : Nat := w.toNat / 2 ^ 23 % 8
/-- Manual restart (S27). -/
def bezelManual (w : Word) : Bool := w.getLsbD 26
/-- t_disc in ms (S17, S18). -/
def bezelDisc (w : Word) : Nat :=
  let k := w.toNat / 2 ^ 16 % 4
  if k = 0 then 50 else if k = 1 then 100 else if k = 2 then 200 else 500

/-- A word is valid (R424): two equal readings, an odd number of switches on, reserved ones off, a plan below 6, and S16
on under manual restart. -/
def bezelOk (w1 w2 : Word) : Bool :=
  w1 == w2 && ((Bits.maskBits 32 w2.toNat).length % 2 == 1) && w2 &&& 0x78000000 == 0 && decide (bezelPlan w2 < 6) &&
    (!bezelManual w2 || w2.getLsbD 15)

/-- t_disc in island ticks. -/
def Dev.discTicks (d : Dev) : Nat := 4 * bezelDisc d.island.bezel

/-- The inputs that act on output n (Table 14.1); SIN15 acts on none under manual restart (R417). -/
def actsOn (plan n : Nat) (manual : Bool) : List Nat :=
  let l := fun (a b : Nat) => (Bits.upTo 16).filter (fun i => decide (a ≤ i) && decide (i ≤ b))
  let ins :=
    if plan = 0 then l 0 15
    else if plan = 1 then l 0 3 ++ (if n < 8 then l 4 9 else l 10 15)
    else if plan = 2 then l 0 3 ++ l (4 + 3 * (n / 4)) (6 + 3 * (n / 4))
    else if plan = 3 then l 0 7 ++ [8 + n / 2]
    else if plan = 4 then [n]
    else if plan = 5 then [0, 1] ++ (if 2 ≤ n then [n] else [])
    else []
  ins.filter (fun i => !(manual && i == 15))

/-- The inputs that act on output n of this unit. -/
def Dev.actors (d : Dev) (n : Nat) : List Nat := actsOn (bezelPlan d.island.bezel) n (bezelManual d.island.bezel)

/-- A master disconnect is closed: not opened by R419, nor by SAFE (R408). -/
def Dev.mdClosed (d : Dev) (g : Nat) : Bool := d.island.state != .safe && !(d.island.mdLatched.getLsbD g)

/-- The code of an island state (Table 14.7). -/
def IslState.code : IslState → Nat
  | .starting => 0 | .run => 1 | .safe => 2
/-- The code of an input state (Table 14.7). -/
def InState.code : InState → Nat
  | .released => 0 | .demand => 1 | .discrepancy => 2 | .lineFault => 3
/-- The code of an output state (Table 14.8). -/
def OutState.code : OutState → Nat
  | .off => 0 | .on => 1 | .waitReset => 2 | .fault => 3 | .deferred => 4

/-- A failure is noted: output or input, and cause (Table 14.7). -/
def Dev.noteFail (n cause : Nat) (d : Dev) : Dev := d.modSafe (fun s => { s with lastFail := n + 256 * cause })

/-! ### SAFE and STARTING (R408, R409) -/

/-- An output is off. -/
def SafeOut.toOff (tick : Nat) (o : SafeOut) : SafeOut :=
  { o with state := .off, offAt := if o.state = .on then tick else o.offAt, discard := o.discard || o.pulseAt.isSome }

/-- SAFE: every output off, both master disconnects open; 0E0Ah (Table 14.9). -/
def Dev.islandSafe (cause : Nat) (restart : Bool) (d : Dev) : Dev :=
  (d.modSafe (fun s => { s with
    state := .safe, restartDue := restart, outputs := s.outputs.map (fun o => { o.toOff s.tick with permit := false }) })).raise
    0x0E0A 3 (Bits.le 1 cause ++ Bits.le 1 (Bits.b2n restart))

/-- ISLAND_WATCHDOG_EXPIRY: cause 1 watchdog, 2 memory, 3 clock. It restarts the island once in 60 s (R408). -/
def Dev.islandFault (cause : Nat) (d : Dev) : Dev :=
  if cause < 1 ∨ 3 < cause ∨ d.island.state = .safe then d
  else
    let again : Bool := match d.island.safeAt with | some t => decide (d.time.now - t < 60000000000) | none => false
    (d.modSafe (fun s => { s with safeAt := some d.time.now })).islandSafe cause (!again)

/-- STARTING (R408): every output off, inputs and counts afresh; what lasts until a power cycle stays, and so does SAFE after a
second fault within 60 s. -/
def Dev.islandStarting (d : Dev) : Dev :=
  d.modSafe (fun s => { ({} : IslandSt) with
    state := if s.state == .safe && !s.restartDue && s.bezelValid then .safe else .starting,
    bezel := s.bezel, bezelValid := s.bezelValid, bezelLive := s.bezelLive, bezelPrev := s.bezelPrev, reported := s.reported,
    sealChanged := s.sealChanged, mdLatched := s.mdLatched, safeAt := s.safeAt, lastFail := s.lastFail })

/-! ### The Bezel (R424, R425) -/

/-- BEZEL_READ: two agreeing readings of a word that is neither the latched nor the last reported one raise 0E08h. -/
def Dev.bezelRead (w : Word) (d : Dev) : Dev :=
  let s := d.island
  let d := d.modSafe (fun x => { x with bezelPrev := s.bezelLive, bezelLive := w })
  if s.bezelLive = w ∧ w ≠ s.bezel ∧ some w ≠ s.reported then
    (d.modSafe (fun x => { x with reported := some w, sealChanged := true })).raise 0x0E08 3
      (Bits.le 4 s.bezel.toNat ++ Bits.le 4 w.toNat)
  else d

/-- The two readings of the STARTING after power-up latch the word (R424). -/
def Dev.bezelLatch (w1 w2 : Word) (d : Dev) : Dev :=
  d.modSafe (fun s => { s with
    bezel := w2, bezelLive := w2, bezelPrev := w1, bezelValid := bezelOk w1 w2, reported := none,
    sealChanged := false, mdLatched := 0, safeAt := none })

/-! ### Contacts and inputs (R411 to R415) -/

/-- One sample of a contact (R412): `closed` as read, `dem` whether that is its demand state. -/
def Contact.sample (tick : Nat) (closed dem : Bool) (c : Contact) : Contact :=
  let run := if dem == c.lastDem then c.run + 1 else 1
  let c := { c with lastDem := dem, run := run, closed := closed }
  if dem && !c.demand && decide (2 ≤ run) then { c with demand := true, since := tick }
  else if !dem && c.demand && decide (8 ≤ run) then { c with demand := false, since := tick }
  else c

/-- A line test of a contact that reads closed (R414): pass, at its own source's pulse or the other's. -/
def Contact.test (own pass : Bool) (c : Contact) : Contact :=
  if own then { c with failOwn := if pass then 0 else c.failOwn + 1 }
  else { c with failOther := if pass then 0 else c.failOther + 1 }

/-- One contact in a tick: the line test at tick offsets `own` and `other` of 40, and a sample outside the blank window. -/
def Contact.step (tick own other : Nat) (level no bad : Bool) (c : Contact) : Contact × Option Bool :=
  let k := tick % 40
  let (c, tested) :=
    if c.closed && k == own then (c.test true (!level), some (!level))
    else if c.closed && k == other then (c.test false level, some level)
    else (c, none)
  if k == own || k == own + 1 then (c, tested)
  else (c.sample tick level (bad || (if no then level else !level)), tested)

/-- The cause of a line fault (Table 14.9); 0 where no contact has failed two tests in a row. -/
def SafeIn.lineCause (x : SafeIn) : Nat :=
  if 2 ≤ x.a.failOwn then 1 else if 2 ≤ x.b.failOwn then 2 else if 2 ≤ x.a.failOther then 3
  else if 2 ≤ x.b.failOther then 4 else 0

/-- Both contacts are accepted released within t_disc of each other. -/
def SafeIn.backTogether (disc : Nat) (x : SafeIn) : Bool :=
  !x.a.demand && !x.b.demand && decide (x.a.since ≤ x.b.since + disc) && decide (x.b.since ≤ x.a.since + disc)

/-- The state of an input after this tick's acceptances (R413, R414). -/
def SafeIn.judgeStep (tick disc : Nat) (x : SafeIn) : SafeIn :=
  match x.state with
  | .released =>
    if x.a.demand || x.b.demand then
      { x with state := .demand, demands := Bits.sat 0xFFFF (x.demands + 1), toDemand := true, ledB := !x.a.demand,
               judge := if x.a.demand && x.b.demand then none else some tick }
    else x
  | .demand =>
    let both := x.a.demand && x.b.demand
    match x.judge with
    | some j =>
      if x.toDemand then
        let other := if x.ledB then x.a.demand else x.b.demand
        if other then
          if both then { x with judge := none } else { x with toDemand := false, ledB := x.a.demand, judge := some tick }
        else { x with judge := some j }
      else if both then { x with judge := none }
      else if x.backTogether disc then { x with state := .released, judge := none } else x
    | none =>
      if both then x
      else if x.backTogether disc then { x with state := .released }
      else { x with toDemand := false, ledB := x.a.demand, judge := some tick }
  | .discrepancy =>
    if x.a.demand && x.b.demand then { x with cycled := true }
    else if !x.a.demand && !x.b.demand then
      if x.cycled && x.backTogether disc then { x with state := .released, cause := 0, judge := none, cycled := false }
      else { x with cycled := false }
    else x
  | .lineFault =>
    if !x.lineOk then x
    else if x.a.demand && x.b.demand then { x with cycled := true }
    else if !x.a.demand && !x.b.demand then
      if x.cycled && x.backTogether disc then
        { x with state := .released, cause := 0, judge := none, cycled := false, lineOk := false, passSince := none }
      else { x with cycled := false }
    else x

/-- One input in a tick. -/
def SafeIn.step (tick disc : Nat) (no : Bool) (badA badB la lb : Bool) (x : SafeIn) : SafeIn :=
  let (a, ta) := x.a.step tick 0 20 la false badA
  let (b, tb) := x.b.step tick 20 0 lb no badB
  let failed := ta == some false || tb == some false
  let passed := ta == some true || tb == some true
  let x := { x with
    a := a, b := b,
    passSince := if failed then none else if passed && x.passSince.isNone then some tick else x.passSince,
    lineOk := x.lineOk && !failed }
  let c := x.lineCause
  if c ≠ 0 ∧ x.state ≠ .lineFault then { x with state := .lineFault, cause := c, cycled := false, lineOk := false, judge := none }
  else x.judgeStep tick disc

/-- DISCREPANCY_TIMEOUT: t_disc has run out without the other contact (R413). -/
def Dev.discrepancyTimeout (i : Nat) (d : Dev) : Dev :=
  let x := d.safeIn i
  match x.judge with
  | some j =>
    if i < 16 ∧ x.state = .demand ∧ j + d.discTicks ≤ d.island.tick then
      let lag := if x.ledB then 0 else 1
      ((d.modIn i (fun y => { y with state := .discrepancy, cause := 5, judge := none, cycled := false })).noteFail i 5).raiseI
        0x0E03 2 i (Bits.le 1 i ++ Bits.le 1 lag)
    else d
  | none => d

/-- LINE_FAULT_CLEAR: after 1 s of passed tests the clearing cycle may follow (R414). -/
def Dev.lineFaultClear (i : Nat) (d : Dev) : Dev :=
  let x := d.safeIn i
  match x.passSince with
  | some t => if i < 16 ∧ x.state = .lineFault ∧ t + 4000 ≤ d.island.tick then d.modIn i (fun y => { y with lineOk := true }) else d
  | none => d

/-- The test-pulse sources in a tick (R415): failed when one does not pull low in its pulse or stays 1 ms in its limit; good
again at a pulse that pulls low outside the limit. -/
def Dev.tpsStep (m : IslandIn) (g : Nat) (d : Dev) : Dev :=
  let s := d.island
  let lim := m.tpsLimit.getLsbD g
  let run := if lim then s.tpsRun.getD g 0 + 1 else 0
  let pulse := s.tick % 40 == 20 * g
  let bad := s.tpsBad.getLsbD g
  let now := if (pulse && m.tpsHigh.getLsbD g) || decide (4 ≤ run) then true else if pulse && !lim then false else bad
  let bits := BitVec.ofNat 2 (flagBits [if g = 0 then now else s.tpsBad.getLsbD 0, if g = 1 then now else s.tpsBad.getLsbD 1])
  let d := d.modSafe (fun x => { x with tpsRun := Bits.setAt x.tpsRun g run, tpsBad := bits })
  if now && !bad then d.raiseI 0x0E0D 3 g (Bits.le 1 g) else d

/-! ### Outputs (R416 to R422) -/

/-- An output may be on: RUN, its master disconnect closed and not failed, not RETIRED. -/
def Dev.mayDrive (d : Dev) (n : Nat) : Bool :=
  d.island.state == .run && d.mdClosed (n / 8) && !(d.island.mdFailed.getLsbD (n / 8)) && d.life.state != .retired

/-- The permit of output n (R415, R416). -/
def Dev.permitOf (d : Dev) (n : Nat) : Bool :=
  let l := d.actors n
  d.mayDrive n && !l.isEmpty && d.island.tpsBad == 0 && l.all (fun i => (d.safeIn i).state == .released)

/-- Some output is being pulsed at this tick (Table 14.2). -/
def Dev.pulsing (d : Dev) : Bool :=
  d.island.outputs.any (fun o => match o.pulseAt with | some p => decide (d.island.tick < p + 2) | none => false)

/-- An output switches on, or is deferred to the end of a pulse (Table 14.2); 0E02h where it had been on before. -/
def Dev.switchOn (n : Nat) (d : Dev) : Dev :=
  let o := d.safeOut n
  if d.pulsing then d.modOut n (fun x => { x with state := .deferred, cause := 0 })
  else
    let d := d.modOut n (fun x => { x with state := .on, cause := 0, wasOn := true, highRun := 0, lowRun := 0 })
    if o.wasOn then d.raiseI 0x0E02 0 n (Bits.le 1 n ++ Bits.le 4 ((d.island.tick - o.offAt) / 4)) else d

/-- A permit has returned (R417). -/
def Dev.permitReturns (n : Nat) (d : Dev) : Dev :=
  if bezelManual d.island.bezel then d.modOut n (fun x => { x with state := .waitReset, cause := 0, withdrawn := false })
  else (d.modOut n (fun x => { x with withdrawn := false })).switchOn n

/-- The permit of an output in a tick. -/
def Dev.permitStep (n : Nat) (d : Dev) : Dev :=
  let o := d.safeOut n
  let p := d.permitOf n
  let d := d.modOut n (fun x => { x with permit := p })
  if !p then
    if o.state = .fault then d.modOut n (fun x => { x with withdrawn := true })
    else d.modOut n (fun x => x.toOff d.island.tick)
  else if o.state = .off ∧ !o.permit then d.permitReturns n
  else if o.state = .fault ∧ o.withdrawn then d.permitReturns n
  else if o.state = .deferred ∧ !d.pulsing then d.switchOn n
  else d

/-- The master disconnect of a group opens until the next power cycle, and what it feeds is off (R419). -/
def Dev.masterOpens (g : Nat) (d : Dev) : Dev :=
  let t := d.island.tick
  d.modSafe (fun s => { s with
    mdLatched := s.mdLatched ||| BitVec.ofNat 2 (2 ^ g),
    outputs := s.outputs.zipIdx.map (fun (o : SafeOut × Nat) =>
      if o.2 / 8 = g ∧ o.1.state ≠ .fault then { o.1.toOff t with permit := false } else o.1) })

/-- An output fails (R418, R419): cause 6 failed on, which opens its master disconnect; 7 failed open; 8 overcurrent. -/
def Dev.outputFault (n cause : Nat) (d : Dev) : Dev :=
  let d := (d.modOut n (fun x => { x.toOff d.island.tick with state := .fault, cause := cause, withdrawn := false })).noteFail n cause
  let d := if cause = 6 then d.masterOpens (n / 8) else d
  if cause = 8 then d.raiseI 0x0E06 1 n (Bits.le 1 n) else d.raiseI 0x0E05 3 n (Bits.le 1 n ++ Bits.le 1 cause)

/-- OUTPUT_OVERCURRENT (R418). -/
def Dev.outputOvercurrent (n : Nat) (d : Dev) : Dev :=
  if n < 16 ∧ (d.safeOut n).state = .on then d.outputFault n 8 else d

/-- OUTPUT_READBACK_FAIL: a read-back has disagreed for 1 ms (R419). -/
def Dev.outputReadback (n : Nat) (failedOn : Bool) (d : Dev) : Dev :=
  let o := d.safeOut n
  if 16 ≤ n ∨ o.state = .fault then d
  else if failedOn then if 4 ≤ o.highRun ∧ o.state ≠ .on then d.outputFault n 6 else d
  else if 4 ≤ o.lowRun ∧ o.state = .on then d.outputFault n 7 else d

/-- The read-back of an output in a tick, before its state changes (R419). -/
def Dev.readBack (m : IslandIn) (n : Nat) (d : Dev) : Dev :=
  let o := d.safeOut n
  let t := d.island.tick
  let hi := m.above5.getLsbD n
  let ok := m.above15.getLsbD n
  let inPulse : Bool := match o.pulseAt with | some p => decide (t < p + 2) | none => false
  d.modOut n (fun x => { x with
    pinHigh := ok, highRun := if x.state != .on && hi then x.highRun + 1 else 0,
    lowRun := if x.state == .on && !inPulse && !ok then x.lowRun + 1 else 0 })

/-- The read-back of a test pulse (R420): 250 µs into it, and at the first tick 250 µs after its end. -/
def Dev.pulseCheck (m : IslandIn) (n : Nat) (d : Dev) : Dev :=
  let o := d.safeOut n
  let t := d.island.tick
  let hi := m.above5.getLsbD n
  let ok := m.above15.getLsbD n
  match o.pulseAt with
  | none => d
  | some p =>
    if o.discard then (if p + 2 ≤ t then d.modOut n (fun x => { x with pulseAt := none, discard := false }) else d)
    else if t = p + 1 ∧ hi then (d.modOut n (fun x => { x with pulseAt := none })).outputFault n 6
    else if p + 3 ≤ t then
      let d := d.modOut n (fun x => { x with pulseAt := none })
      if ok then d.modSafe (fun s => { s with pulses := Bits.sat 0xFFFFFFFF (s.pulses + 1) }) else d.outputFault n 7
    else d

/-- A test pulse starts at n × 62.5 ms of the island second, on an output that is on (R420). -/
def Dev.pulseStart (n : Nat) (d : Dev) : Dev :=
  if (d.safeOut n).state = .on ∧ d.island.tick % 4000 = 250 * n then
    d.modOut n (fun x => { x with pulseAt := some d.island.tick, discard := false })
  else d

/-- The press of the reset input (R417): valid when released 100 ms to 2 s after it was accepted. -/
def Dev.resetInput (was : InState) (d : Dev) : Dev :=
  let t := d.island.tick
  let now := (d.safeIn 15).state
  if !bezelManual d.island.bezel then d
  else if was = .released ∧ now = .demand then d.modSafe (fun s => { s with pressAt := some t, pressHeld := false })
  else match d.island.pressAt with
    | none => d
    | some p =>
      if now = .released then
        let d := d.modSafe (fun s => { s with pressAt := none, pressHeld := false })
        if 400 ≤ t - p ∧ t - p ≤ 8000 then
          (Bits.upTo 16).foldl (fun z n => if (z.safeOut n).state = .waitReset then z.switchOn n else z) d
        else d
      else if now = .demand then d
      else d.modSafe (fun s => { s with pressAt := none, pressHeld := false })

/-- RESET_INPUT_HELD (R417). -/
def Dev.resetInputHeld (d : Dev) : Dev :=
  match d.island.pressAt with
  | some p =>
    if 8000 < d.island.tick - p ∧ d.island.pressHeld = false then
      (d.modSafe (fun s => { s with pressHeld := true })).raise 0x0E0C 1 (Bits.le 4 ((d.island.tick - p) / 4))
    else d
  | none => d

/-- MASTER_DISCONNECT_TEST (R421): at the start, or after 10 ms with every output of the group off, at most once in 10 s. -/
def Dev.masterTest (g : Nat) (low : Bool) (d : Dev) : Dev :=
  let s := d.island
  let due : Bool := match s.mdTested.getD g none with
    | none => true
    | some t => decide (40000 ≤ s.tick - t) && decide (40 ≤ s.groupOff.getD g 0)
  let off := (Bits.upTo 8).all (fun k => (d.safeOut (8 * g + k)).state != .on)
  if g < 2 ∧ s.state ≠ .safe ∧ due ∧ off then
    let bit : BitVec 2 := BitVec.ofNat 2 (2 ^ g)
    let d := d.modSafe (fun x => { x with
      mdTested := Bits.setAt x.mdTested g (some s.tick), mdFailed := if low then x.mdFailed &&& ~~~bit else x.mdFailed ||| bit })
    if low then d else d.raiseI 0x0E07 3 g (Bits.le 1 g)
  else d

/-! ### Record and points (R431, R432) -/

/-- The IN_STATE entry of an input (Table 14.7). -/
def Dev.inEntry (d : Dev) (i : Nat) : Nat :=
  let x := d.safeIn i
  let st := if bezelManual d.island.bezel && i == 15 then 4 else x.state.code
  st + 8 * Bits.b2n x.a.closed + 16 * Bits.b2n x.b.closed + 256 * x.cause

/-- SFLAGS (Table 14.7). -/
def Dev.sflags (d : Dev) : Nat :=
  flagBits [d.island.bezelValid, d.island.sealChanged, !(d.island.tpsBad.getLsbD 0), !(d.island.tpsBad.getLsbD 1),
    d.mdClosed 0, d.mdClosed 1, d.island.outputs.any (fun o => o.state == .waitReset)]

/-- A bitmap over the sixteen inputs or outputs. -/
def bits16 (f : Nat → Bool) : Nat := Bits.bitsOf ((Bits.upTo 16).filter f)

/-- Inputs that act as inputs: the reset input has no released or demand state (Table 14.7). -/
def Dev.actingIn (d : Dev) (i : Nat) : Bool := !(bezelManual d.island.bezel && i == 15)
/-- PERMIT. -/
def Dev.permitBits (d : Dev) : Nat := bits16 (fun n => (d.safeOut n).permit)
/-- OUT_ON. -/
def Dev.onBits (d : Dev) : Nat := bits16 (fun n => (d.safeOut n).state == .on)
/-- IN_DEMAND. -/
def Dev.demandBits (d : Dev) : Nat := bits16 (fun i => d.actingIn i && (d.safeIn i).state != .released)
/-- IN_FAULT. -/
def Dev.inFaultBits (d : Dev) : Nat :=
  bits16 (fun i => (d.safeIn i).state == .discrepancy || (d.safeIn i).state == .lineFault)

/-- SAFETY_READ (Table 14.7). -/
def Dev.safetyBytes (d : Dev) : List Byte :=
  let s := d.island
  Bits.le 1 s.state.code ++ Bits.le 1 d.sflags ++ Bits.le 1 (bezelPlan s.bezel) ++ Bits.le 1 (Bits.b2n (bezelManual s.bezel)) ++
    Bits.le 4 s.bezel.toNat ++ Bits.le 4 s.bezelLive.toNat ++ Bits.le 2 d.permitBits ++ Bits.le 2 d.onBits ++
    Bits.le 2 d.demandBits ++ Bits.le 2 d.inFaultBits ++ Bits.le 2 (bits16 (fun n => (d.safeOut n).state == .fault)) ++ [0, 0] ++
    (Bits.upTo 16).flatMap (fun i => Bits.le 2 (d.inEntry i)) ++ Bits.le 4 s.pulses ++ Bits.le 4 s.lastFail

/-- SAFETY_READ. -/
def Dev.safetyReadOp (r : Req) (d : Dev) : OpRes := if r.tgt ≠ 0 then refuse d stRange else reads d d.safetyBytes

/-- The points of Table 14.8, BAD while STARTING. -/
def Dev.islandPoints (d : Dev) : Dev :=
  let q := if d.island.state = .starting then 3 else 0
  let st := d.short
  let u := fun (i v : Nat) (z : Dev) => z.post 14 i 3 (val32 (BitVec.ofNat 32 v)) st q
  let d1 := u 6147 (d.demandBits + 65536 * d.inFaultBits) (u 6146 (d.permitBits + 65536 * d.onBits)
    (u 6145 d.island.bezel.toNat (u 6144 (d.island.state.code + 256 * d.sflags) d)))
  let d2 := (Bits.upTo 16).foldl (fun z i => u (6160 + i) (d.inEntry i + 65536 * (d.safeIn i).demands) z) d1
  (Bits.upTo 16).foldl (fun z n =>
    let o := d.safeOut n
    u (6176 + n) (o.state.code + 8 * Bits.b2n o.permit + 16 * Bits.b2n o.pinHigh + 256 * o.cause) z) d2

/-! ### The tick (R407) -/

/-- The inputs of a tick, with the events of line faults. -/
def Dev.inputsStep (m : IslandIn) (d : Dev) : Dev :=
  (Bits.upTo 16).foldl (fun z i =>
    let was := z.safeIn i
    let now := was.step z.island.tick z.discTicks (z.island.bezel.getLsbD i) (z.island.tpsBad.getLsbD 0) (z.island.tpsBad.getLsbD 1)
      (m.a.getLsbD i) (m.b.getLsbD i)
    let z := z.modIn i (fun _ => now)
    if now.state = .lineFault ∧ was.state ≠ .lineFault then
      (z.noteFail i now.cause).raiseI 0x0E04 2 i (Bits.le 1 i ++ Bits.le 1 now.cause)
    else z) d

/-- 0E01h of each input that has entered DEMAND, with the outputs it has switched off. -/
def Dev.demandEvents (was : List InState) (on : Nat) (d : Dev) : Dev :=
  (Bits.upTo 16).foldl (fun z i =>
    if z.actingIn i && (z.safeIn i).state == .demand && was.getD i .demand == .released then
      z.raiseI 0x0E01 0 i (Bits.le 1 i ++ Bits.le 2 (bits16 (fun n =>
        on.testBit n && (z.safeOut n).state != .on && (z.actors n).contains i)))
    else z) d

/-- What the tick count brings: RUN or SAFE 15 ms after the start (Table 17.6). -/
def Dev.islandStage (d : Dev) : Dev :=
  if d.island.restartDue && d.island.state == .safe then d.islandStarting
  else if d.island.state = .starting ∧ 60 ≤ d.island.tick then
    if d.island.bezelValid then d.modSafe (fun s => { s with state := .run })
    else (d.raise 0x0E09 3 (Bits.le 4 d.island.bezel.toNat)).islandSafe 4 false
  else d

/-- A single-bit error the island's memory has corrected raises 0E0Bh with its address (Table 14.6). -/
def Dev.islandEcc (e : Option Word) (d : Dev) : Dev :=
  match e with
  | some a => d.raise 0x0E0B 0 (Bits.le 4 a.toNat)
  | none => d

/-- ISLAND_TICK. -/
def Dev.islandTick (m : IslandIn) (d : Dev) : Dev :=
  let d := d.islandStage.islandEcc m.ecc
  let was := d.island.inputs.map SafeIn.state
  let on := d.onBits
  let d := ((d.tpsStep m 0).tpsStep m 1).inputsStep m
  let d := (Bits.upTo 16).foldl (fun z n => z.readBack m n) d
  let d := (Bits.upTo 16).foldl (fun z n => z.permitStep n) d
  let d := (Bits.upTo 16).foldl (fun z n => z.pulseCheck m n) d
  let d := d.resetInput (was.getD 15 .demand)
  let d := (Bits.upTo 16).foldl (fun z n => z.pulseStart n) d
  let d := d.demandEvents was on
  let off := fun (g : Nat) => (Bits.upTo 8).all (fun k => (d.safeOut (8 * g + k)).state != .on)
  let d := d.modSafe (fun s => { s with groupOff := (Bits.upTo 2).map (fun g => if off g then s.groupOff.getD g 0 + 1 else 0) })
  d.islandPoints.modSafe (fun s => { s with tick := s.tick + 1 })

end Sys2Proof.Machine
end

