-- ==== Sys2Proof/Machine/Validate.lean ====
section
/-! DEFINITION. Machine/Validate.lean: validation of a staging set (02 R68, R69): quiesce conditions of Table 2.12 and the
cross-field rules of the chapters. A rule is judged when one of its fields is staged (notes/assumptions/51.md). -/

namespace Sys2Proof.Machine

open Sys2Proof

/-- A configuration: the value of every field. -/
abbrev View := Nat → Nat → Word

/-- The configuration in force with a staged set over it (R68). -/
def Dev.view (staged : SMap Word) (d : Dev) : View := fun t p => Bits.get (fun k => d.par (k / 65536) (k % 65536)) staged (key t p)

/-- A number of a view. -/
def View.n (v : View) (t p : Nat) : Nat := (v t p).toNat
/-- A signed number of a view. -/
def View.i (v : View) (t p : Nat) : Int := (v t p).toInt

/-- A broken rule: the fields it names, and further fields whose staging makes the rule be judged. -/
structure Broken where
  off : List Nat
  more : List Nat := []
deriving DecidableEq, Repr

/-- A rule at work: broken where the condition holds. -/
def brk (c : Bool) (off : List Nat) (more : List Nat := []) : List Broken := if c then [{ off := off, more := more }] else []

/-- Pairs of a list, each once. -/
def pairs (l : List Nat) : List (Nat × Nat) := l.flatMap (fun a => (l.filter (fun b => decide (a < b))).map (fun b => (a, b)))

/-! ### Sample ports, chains, resamplers (R111, R135) -/

/-- The rate code that a preset takes (Table 4.3); none for OFF. -/
def presetRate (k : Nat) : Option Nat :=
  if k = 0 then none else if k = 8 then some 0 else if k = 7 then some 1 else if k = 9 then some 3 else some 2

/-- A SHIFT word is good for a preset: nibbles −1 to +7, zero above the stage count (Table 4.8). -/
def shiftOk (preset w : Nat) : Bool :=
  (Bits.upTo 8).all (fun i =>
    let x := w / 2 ^ (4 * i) % 16
    if i < (presetTaps preset).length then decide (x < 8) || x == 15 else x == 0)

/-- R111 for a port. -/
def portRules (v : View) (p : Nat) : List Broken :=
  let b := 0x10 + 8 * p
  let r := portRate (v.n 4 (b + 1))
  let s := v.n 4 (b + 2)
  let w := if v.n 4 (b + 3) = 1 then 32 else 24
  let l := [key 4 (b + 1), key 4 (b + 2), key 4 (b + 3)]
  brk (decide (portClock (v.n 4 2) / r < s * w + 9) || decide (1024000 < s * r)) l [key 4 2]

/-- The rules of a chain. -/
def chainRules (v : View) (c : Nat) : List Broken :=
  let k := v.n 5 (0x1000 + c)
  let b := 0x10 + 8 * (c / 16)
  match presetRate k with
  | none => brk (!shiftOk 0 (v.n 5 (0x1200 + c))) [key 5 (0x1200 + c)] [key 5 (0x1000 + c)]
  | some r =>
    brk (v.n 4 (b + 1) != r) [key 5 (0x1000 + c), key 4 (b + 1)] ++
    brk (decide (v.n 4 (b + 2) ≤ c % 16)) [key 5 (0x1000 + c), key 4 (b + 2)] ++
    brk (!shiftOk k (v.n 5 (0x1200 + c))) [key 5 (0x1200 + c)] [key 5 (0x1000 + c)]

/-- A resampler is used. -/
def rsUsed (v : View) (u : Nat) : Bool := v.n 5 (0x100 + 8 * u) != 0xFFFF
/-- A resampler is self-locked (R123). -/
def rsSelf (v : View) (u : Nat) : Bool := v.n 5 (0x101 + 8 * u) == u

/-- The rules of the resamplers. -/
def rsRules (v : View) : List Broken :=
  let used := (Bits.upTo 16).filter (rsUsed v)
  let ch := fun (u : Nat) => v.n 5 (0x100 + 8 * u)
  used.flatMap (fun u =>
    let m := v.n 5 (0x101 + 8 * u)
    brk (v.n 5 (0x1000 + ch u) != 9) [key 5 (0x100 + 8 * u), key 5 (0x1000 + ch u)] ++
    brk (!(rsUsed v m) || !(rsSelf v m)) [key 5 (0x101 + 8 * u)] [key 5 (0x100 + 8 * m), key 5 (0x101 + 8 * m)]) ++
  (pairs used).flatMap (fun p => brk (ch p.1 == ch p.2) [key 5 (0x100 + 8 * p.1), key 5 (0x100 + 8 * p.2)])

/-! ### Ranging, fusion (R170, R203) -/

/-- R170. -/
def gnssRules (v : View) : List Broken :=
  let cfg := v.n 8 2
  let n := if cfg = 4 then 4 else 2
  let pos := fun (a : Nat) => (v.i 8 (0x20 + 4 * a), v.i 8 (0x21 + 4 * a), v.i 8 (0x22 + 4 * a))
  let keys := fun (a : Nat) => [key 8 (0x20 + 4 * a), key 8 (0x21 + 4 * a), key 8 (0x22 + 4 * a)]
  let diff := fun (a b : Nat) => ((pos b).1 - (pos a).1, (pos b).2.1 - (pos a).2.1, (pos b).2.2 - (pos a).2.2)
  let cross := fun (x y : Int × Int × Int) =>
    (x.2.1 * y.2.2 - x.2.2 * y.2.1, x.2.2 * y.1 - x.1 * y.2.2, x.1 * y.2.1 - x.2.1 * y.1)
  let flat := fun (a b : Nat) => cross (diff 0 a) (diff 0 b) == (0, 0, 0)
  let udp := (Bits.upTo 4).filter (fun s => v.n 8 (0x10 + 4 * s) == 1)
  let port := fun (s : Nat) => v.n 8 (0x11 + 4 * s)
  brk (cfg != 2 && cfg != 4) [key 8 2] ++
  (pairs (Bits.upTo n)).flatMap (fun p =>
    let x := diff p.1 p.2
    brk (decide (x.1 * x.1 + x.2.1 * x.2.1 + x.2.2 * x.2.2 < 1000000)) (keys p.1 ++ keys p.2) [key 8 2]) ++
  brk (cfg == 4 && flat 1 2 && flat 1 3 && flat 2 3) ((Bits.upTo 4).flatMap keys) [key 8 2] ++
  udp.flatMap (fun s =>
    brk (port s == 0 || port s == v.n 1 0x23) [key 8 (0x11 + 4 * s)] [key 8 (0x10 + 4 * s), key 1 0x23]) ++
  udp.flatMap (fun s => ((Bits.upTo 4).filter (fun o => o != s && (!(udp.contains o) || decide (s < o)))).flatMap (fun o =>
    brk (port s == port o) [key 8 (0x11 + 4 * s), key 8 (0x11 + 4 * o)] [key 8 (0x10 + 4 * s), key 8 (0x10 + 4 * o)]))

/-- An index that a reference may read (Table 6.7). -/
def refPoint (i : Nat) : Bool := decide (i ≤ 511) || assignable i

/-- R203. -/
def fusionRules (d : Dev) (v : View) : List Broken :=
  let k := fun (r : Nat) => v.n 0xC (0x40 + 16 * r)
  let first := fun (r : Nat) => v.n 0xC (0x42 + 16 * r)
  let used := (Bits.upTo 16).filter (fun r => k r != 0)
  let two := fun (r : Nat) => [key 0xC (0x40 + 16 * r), key 0xC (0x42 + 16 * r)]
  let ones := used.filter (fun r => k r == 1)
  brk (v 0xC 1 != d.par 0xC 1 && d.solver.mode != .idle) [key 0xC 1] ++
  (pairs used).flatMap (fun p =>
    brk (decide (first p.1 < first p.2 + kindPoints (k p.2)) && decide (first p.2 < first p.1 + kindPoints (k p.1)))
      [key 0xC (0x42 + 16 * p.1), key 0xC (0x42 + 16 * p.2)] [key 0xC (0x40 + 16 * p.1), key 0xC (0x40 + 16 * p.2)]) ++
  used.flatMap (fun r =>
    brk ((Bits.upTo (kindPoints (k r))).any (fun i => !refPoint (first r + i))) [key 0xC (0x42 + 16 * r)] (two r)) ++
  brk (decide (2 < ones.length)) (ones.map (fun r => key 0xC (0x40 + 16 * r)))

/-! ### Vessel, thrusters, solver, groups (R215, R252, R254) -/

/-- A field of a thruster in a view. -/
def thrN (v : View) (j o : Nat) : Nat := v.n 0x11 (0x20 + 32 * j + o)
/-- The key of a thruster's field. -/
def thrK (j o : Nat) : Nat := key 0x11 (0x20 + 32 * j + o)

/-- R215 with every thruster whose TYPE is not 0. -/
def sizeRules (v : View) (ts : List Nat) : List Broken :=
  let az := (ts.filter (fun j => thrN v j 0 == 1)).length
  let sects := ((Bits.upTo 8).filter (fun b => ts.any (fun j => thrN v j 6 == b + 1))).length
  let n := 6 + ts.length + az + sects
  let m := 2 * ts.length + 5 * az + 2 * sects
  let h := v.n 0x12 1
  brk (ts.isEmpty || decide (62 < n) || decide (184 < m) || decide (131072 < h * n * n))
    (ts.map (fun j => thrK j 0) ++ [key 0x12 1]) ((Bits.upTo 24).flatMap (fun j => [thrK j 0, thrK j 6]) ++ [key 0x12 2])

/-- The sectors of a thruster in a view: field, start, end. -/
def sectorsOf (v : View) (j : Nat) : List (Nat × Nat × Nat) :=
  [9, 0xB].filterMap (fun o =>
    let a := thrN v j o
    let b := thrN v j (o + 1)
    if a = 0xFFFFFFFF ∨ b = 0xFFFFFFFF then none else some (o, a, b))

/-- The rules of one thruster's sectors. -/
def sectorRules (v : View) (j : Nat) : List Broken :=
  let l := sectorsOf v j
  let keys := fun (o : Nat) => [thrK j o, thrK j (o + 1)]
  let off := fun (a b : Nat) => (b + 36000 - a) % 36000
  l.flatMap (fun s => brk (s.2.1 == s.2.2) (keys s.1) ++ brk (thrN v j 0 != 1) (keys s.1) [thrK j 0]) ++
  (match l with
   | [s, t] => brk (decide (off s.2.1 t.2.1 < off s.2.1 s.2.2) || decide (off t.2.1 s.2.1 < off t.2.1 t.2.2)) (keys s.1 ++ keys t.1)
   | _ => [])

/-- R252. -/
def thrusterRules (v : View) : List Broken :=
  let ts := (Bits.upTo 24).filter (fun j => thrN v j 0 != 0)
  sizeRules v ts ++
  ts.flatMap (fun j => [3, 5, 0xE].flatMap (fun o => brk (thrN v j o == 0) [thrK j o] [thrK j 0])) ++
  (pairs ts).flatMap (fun p =>
    let a := thrN v p.1 0xE
    let b := thrN v p.2 0xE
    brk (a != 0 && b != 0 && decide (a < b + 4) && decide (b < a + 4)) [thrK p.1 0xE, thrK p.2 0xE] [thrK p.1 0, thrK p.2 0]) ++
  (Bits.upTo 24).flatMap (sectorRules v)

/-- R254. -/
def groupRules (v : View) : List Broken :=
  ((Bits.upTo 64).filter (fun g => g != 0 && v.n 0x13 (16 * g) == 1)).flatMap (fun g =>
    let th := v.n 0x13 (16 * g + 1)
    let se := v.n 0x13 (16 * g + 2)
    let kt := key 0x13 (16 * g + 1)
    let ks := key 0x13 (16 * g + 2)
    let ku := key 0x13 (16 * g)
    let types := (Bits.upTo 24).map (fun j => thrK j 0)
    let buses := (Bits.upTo 24).map (fun j => thrK j 6)
    let present := fun (j : Nat) => thrN v j 0 != 0
    brk (th == 0 && se == 0) [kt, ks] [ku] ++
    brk ((Bits.upTo 24).any (fun j => th.testBit j && !present j)) [kt] (ku :: types) ++
    brk ((Bits.upTo 24).any (fun j => present j && se.testBit (thrN v j 6 - 1) && !(th.testBit j))) [kt, ks] (ku :: types ++ buses) ++
    brk ((Bits.upTo 8).any (fun b => se.testBit b && !((Bits.upTo 24).any (fun j => present j && thrN v j 6 == b + 1)))) [ks]
      (ku :: types ++ buses))

/-! ### The control engine (R294) -/

/-- The key of a loop's field. -/
def loopK (i o : Nat) : Nat := key 0x18 (0x1000 + 16 * i + o)
/-- A loop is enabled in a view. -/
def loopOn (v : View) (i : Nat) : Bool := v.n 0x18 (0x1000 + 16 * i) == 1
/-- The pool range of a loop: first section and count. -/
def poolOf (v : View) (i : Nat) : Nat × Nat :=
  let w := v.n 0x18 (0x1006 + 16 * i)
  (w % 1024, w / 65536 % 32)

/-- The rules of a source word. -/
def sourceRules (d : Dev) (v : View) (i o : Nat) : List Broken :=
  let w := v.n 0x18 (0x1000 + 16 * i + o)
  let k := w / 2 ^ 28
  let me := [loopK i o]
  if k = 1 then brk (thrN v (w % 32) 0 == 0) me [thrK (w % 32) 0]
  else if k = 2 then brk (w % 256 == i || !(loopOn v (w % 256))) me [loopK (w % 256) 0]
  else if k = 3 then brk (d.reserved (w % 131072)) me
  else if k = 4 then brk (v.n 5 (0x1000 + w % 512) == 0) me [key 5 (0x1000 + w % 512)]
  else []

/-- The rules of RATE and of the output limits (Table 9.10). -/
def rateRules (v : View) (i : Nat) : List Broken :=
  let w := v.n 0x18 (0x1005 + 16 * i)
  let dv := w % 16
  brk (!([1, 2, 4, 5, 10].contains dv) || decide (dv ≤ w / 16)) [loopK i 5] ++
  brk (decide (v.i 0x18 (0x100B + 16 * i) < v.i 0x18 (0x100A + 16 * i))) [loopK i 0xA, loopK i 0xB]

/-- The loops that THR_CMD of a thruster names. -/
def cmdLoops (v : View) (j : Nat) : List Nat :=
  let w := v.n 0x18 (0x40 + j)
  ([0, 1, 2].map (fun k => w / 256 ^ k % 256)).filter (fun i => i != 255)

/-- R294. -/
def loopRules (d : Dev) (v : View) : List Broken :=
  let on := (Bits.upTo 256).filter (loopOn v)
  on.flatMap (fun i =>
    let s := poolOf v i
    brk (decide (1024 < s.1 + s.2)) [loopK i 6] [loopK i 0]) ++
  (pairs on).flatMap (fun p =>
    let a := poolOf v p.1
    let b := poolOf v p.2
    brk (decide (a.1 < b.1 + b.2) && decide (b.1 < a.1 + a.2)) [loopK p.1 6, loopK p.2 6] [loopK p.1 0, loopK p.2 0]) ++
  (Bits.upTo 256).flatMap (fun i => sourceRules d v i 1 ++ sourceRules d v i 2 ++ rateRules v i) ++
  (Bits.upTo 24).flatMap (fun j =>
    let l := cmdLoops v j
    brk (l.any (fun i => !(loopOn v i)) || l.eraseDups.length != l.length) [key 0x18 (0x40 + j)] (l.map (fun i => loopK i 0))) ++
  (pairs (Bits.upTo 24)).flatMap (fun p =>
    brk ((cmdLoops v p.1).any (fun i => (cmdLoops v p.2).contains i)) [key 0x18 (0x40 + p.1), key 0x18 (0x40 + p.2)])

/-! ### The plant (R318) -/

/-- A point index that a field of the plant may name: not reserved, and of an allowed type where it has one (R305). -/
def Dev.plantPoint (d : Dev) (bool : Bool) (i : Nat) : Bool :=
  let t := (d.snapPt i).typ.toNat
  !(d.reserved i) && (t == 0 || (if bool then t == 1 else decide (2 ≤ t) && decide (t ≤ 5)))

/-- The rules of one section in use. -/
def sectionRules (v : View) (b : Nat) : List Broken :=
  let o := 0x20 + 16 * b
  let rv := v.n 0x1C (o + 1)
  let ri := v.n 0x1C (o + 2)
  let kv := key 0x1C (o + 1)
  let ki := key 0x1C (o + 2)
  let ku := key 0x1C o
  let rsK := fun (u : Nat) => [key 5 (0x100 + 8 * u), key 5 (0x101 + 8 * u)]
  let ch := fun (u : Nat) => v.n 5 (0x1000 + v.n 5 (0x100 + 8 * u))
  brk (rv == 0xFF || !(rsUsed v rv) || !(rsSelf v rv)) [kv] (ku :: rsK rv) ++
  brk (ri != 0xFF && (!(rsUsed v ri) || v.n 5 (0x101 + 8 * ri) != rv || ri == rv)) [ki] (ku :: kv :: rsK ri) ++
  brk (rv != 0xFF && rsUsed v rv && ch rv != 9) [kv] (ku :: rsK rv) ++
  brk (ri != 0xFF && rsUsed v ri && ch ri != 9) [ki] (ku :: rsK ri) ++
  brk (v.n 0x1C (o + 3) == 0) [key 0x1C (o + 3)] [ku] ++ brk (v.n 0x1C (o + 6) == 0) [key 0x1C (o + 6)] [ku]

/-- R318, with the order of F_FLOOR, F_START and F_RELEASE (Table 10.5). -/
def plantRules (d : Dev) (v : View) : List Broken :=
  let used := fun (b : Nat) => decide (1 ≤ b) && decide (b ≤ 8) && v.n 0x1C (0x20 + 16 * (b - 1)) == 1
  let useK := (Bits.upTo 8).map (fun b => key 0x1C (0x20 + 16 * b))
  ((Bits.upTo 8).filter (fun b => used (b + 1))).flatMap (sectionRules v) ++
  (Bits.upTo 8).flatMap (fun t =>
    let w := v.n 0x1C (0xA0 + 4 * t)
    let k := key 0x1C (0xA0 + 4 * t)
    if w = 0 then []
    else brk (!(used (w % 16)) || !(used (w / 16))) [k] useK ++
      brk (!(d.plantPoint true (v.n 0x1C (0xA1 + 4 * t)))) [key 0x1C (0xA1 + 4 * t)] [k]) ++
  (Bits.upTo 16).flatMap (fun g =>
    let o := 0x100 + 8 * g
    let f := fun (x : Nat) => v.n 0x1C (o + x)
    if f 0 = 0 then []
    else brk (!(used (f 0))) [key 0x1C o] useK ++
      brk (!(d.plantPoint true (f 2))) [key 0x1C (o + 2)] [key 0x1C o] ++
      brk (!(d.plantPoint false (f 3))) [key 0x1C (o + 3)] [key 0x1C o] ++
      brk (f 4 != 0 && !(d.plantPoint false (f 4))) [key 0x1C (o + 4)] [key 0x1C o]) ++
  (Bits.upTo 24).flatMap (fun j =>
    let w := v.n 0x1C (0x202 + 4 * j)
    brk (w != 0 && !(d.plantPoint false w)) [key 0x1C (0x202 + 4 * j)] ++
    brk (v.n 0x1C 1 == 1 && thrN v j 0 != 0 && !(used (thrN v j 6))) [thrK j 6] (key 0x1C 1 :: thrK j 0 :: useK)) ++
  brk (decide (v.n 0x1C 5 < v.n 0x1C 6 + 50)) [key 0x1C 6] [key 0x1C 5] ++
  brk (decide (v.n 0x1C 7 < v.n 0x1C 5)) [key 0x1C 7] [key 0x1C 5]

/-! ### Ethernet, CAN, Locket (R344, R350, R354, R368, R372, R479) -/

/-- R350 and R344. -/
def netRules (d : Dev) (v : View) : List Broken :=
  let inUse := fun (g : Nat) => (Bits.upTo 24).filter (fun j => (v.n 0x20 (0x60 + j)).testBit 7 && v.n 0x20 (0x60 + j) % 8 == g)
  let flowOn := fun (q : Nat) => d.flows.ctxs.any (fun c =>
    c.2.state != 0 && Bits.byteAt c.2.payload 0 == 1 && Bits.byteAt c.2.payload 29 == q)
  (Bits.upTo 8).flatMap (fun q =>
    brk (v.n 0x20 (0x50 + q) == 1 && v.n 0x20 0x40 == 0) [key 0x20 (0x50 + q)] [key 0x20 0x40] ++
    brk (v 0x20 (0x50 + q) != d.par 0x20 (0x50 + q) && flowOn q) [key 0x20 (0x50 + q)]) ++
  (Bits.upTo 24).flatMap (fun j => brk ((v.n 0x20 (0x60 + j)).testBit 7 && thrN v j 0 == 0) [key 0x20 (0x60 + j)] [thrK j 0]) ++
  (Bits.upTo 8).flatMap (fun g =>
    brk (!(inUse g).isEmpty && v.n 0x20 (0x80 + 4 * g) == 0 && v.n 0x20 (0x81 + 4 * g) == 0)
      [key 0x20 (0x80 + 4 * g), key 0x20 (0x81 + 4 * g)] ((inUse g).map (fun j => key 0x20 (0x60 + j))))

/-- Nominal and data bit times of a controller in CAN clock cycles (R354). -/
def bitTimes (v : View) (c : Nat) : Nat × Nat :=
  let f := fun (o : Nat) => v.n 0x24 (0x20 + 0x20 * c + o)
  ((1 + f 3 + f 4) * f 2, (1 + f 7 + f 8) * f 6)

/-- The controllers of a thruster in a view: primary, then secondary. -/
def ctrlsOf (v : View) (j : Nat) : List Nat :=
  let w := v.n 0x24 (0x400 + 4 * j)
  (if w.testBit 3 then [w % 8] else []) ++ (if w.testBit 7 then [w / 16 % 8] else [])

/-- An enabled receive filter of a controller takes an identifier (R358). -/
def filterTakes (v : View) (c idw : Nat) : Bool :=
  (Bits.upTo 32).any (fun r =>
    let f := v.n 0x24 (0x200 + 0x40 * c + 2 * r)
    let m := v.n 0x24 (0x201 + 0x40 * c + 2 * r)
    f.testBit 30 && f.testBit 29 == idw.testBit 29 && (f &&& m) % 2 ^ 29 == (idw &&& m) % 2 ^ 29)

/-- The rates of R354, and the jump widths of Table 12.4. -/
def canRates (v : View) (c : Nat) : List Broken :=
  let k := fun (o : Nat) => key 0x24 (0x20 + 0x20 * c + o)
  let f := fun (o : Nat) => v.n 0x24 (0x20 + 0x20 * c + o)
  let (nb, db) := bitTimes v c
  brk (decide (nb < 80)) [k 2, k 3, k 4] ++ brk (decide (db < 16)) [k 6, k 7, k 8] ++
  brk (decide (nb < db)) [k 2, k 3, k 4, k 6, k 7, k 8] ++
  brk (decide (f 4 < f 5)) [k 5] [k 4] ++ brk (decide (f 8 < f 9)) [k 9] [k 8]

/-- R368. -/
def canThrusters (v : View) : List Broken :=
  let ts := (Bits.upTo 24).filter (fun j => thrN v j 0 != 0 && !(ctrlsOf v j).isEmpty)
  let kc := fun (j : Nat) => key 0x24 (0x400 + 4 * j)
  let idOf := fun (j : Nat) => v.n 0x24 (0x401 + 4 * j)
  ts.flatMap (fun j =>
    let l := ctrlsOf v j
    let ack := v.n 0x24 (0x402 + 4 * j)
    brk (l.eraseDups.length != l.length) [kc j] [thrK j 0] ++
    l.flatMap (fun c => brk (v.n 0x24 (0x21 + 0x20 * c) == 0) [kc j, key 0x24 (0x21 + 0x20 * c)] [thrK j 0]) ++
    brk (l.any (fun c => !(filterTakes v c ack))) [key 0x24 (0x402 + 4 * j)]
      (thrK j 0 :: kc j :: l.flatMap (fun c => (Bits.upTo 64).map (fun r => key 0x24 (0x200 + 0x40 * c + r))))) ++
  (pairs ts).flatMap (fun p =>
    brk (idOf p.1 == idOf p.2 && (ctrlsOf v p.1).any (fun c => (ctrlsOf v p.2).contains c))
      [key 0x24 (0x401 + 4 * p.1), key 0x24 (0x401 + 4 * p.2)] [kc p.1, kc p.2, thrK p.1 0, thrK p.2 0]) ++
  (Bits.upTo 8).flatMap (fun c =>
    let on := ts.filter (fun j => (ctrlsOf v j).contains c)
    let (nb, db) := bitTimes v c
    brk (decide (320000 < on.length * (68 * nb + 391 * db))) (on.map kc)
      (on.map (fun j => thrK j 0) ++ (Bits.upTo 10).map (fun o => key 0x24 (0x20 + 0x20 * c + o))))

/-- The rules of the receive mappings (R369, R372, R94). -/
def mapRules (d : Dev) (v : View) : List Broken :=
  let on := (Bits.upTo 256).filter (fun e => (v.n 0x24 (0x800 + 4 * e)).testBit 15)
  let idx := fun (e : Nat) => v.n 0x24 (0x802 + 4 * e)
  let ki := fun (e : Nat) => key 0x24 (0x802 + 4 * e)
  let ks := fun (e : Nat) => key 0x24 (0x800 + 4 * e)
  on.flatMap (fun e =>
    let s := v.n 0x24 (0x800 + 4 * e)
    let f := v.n 0x24 (0x801 + 4 * e)
    let t := f / 256 % 8
    let n := f / 2048 % 32
    let filt := 0x200 + 0x40 * (s % 8) + 2 * (s / 256 % 64 - 32)
    brk (t == 0 || decide (5 < t) || (t == 1 && decide (7 < n)) || (t != 1 && t != 4 && n != 0)) [key 0x24 (0x801 + 4 * e)] [ks e] ++
    brk (!(assignable (idx e)) || (d.claimant (idx e)).isSome) [ki e] [ks e] ++
    brk (!((v.n 0x24 filt).testBit 30)) [ks e] [key 0x24 filt]) ++
  (pairs on).flatMap (fun p => brk (idx p.1 == idx p.2) [ki p.1, ki p.2] [ks p.1, ks p.2])

/-- R479. -/
def locketRules (v : View) : List Broken :=
  let code := fun (e : Nat) => v.n 0x34 (0x10 + 2 * e)
  let used := (Bits.upTo 32).filter (fun e => code e != 0)
  used.flatMap (fun e =>
    let w := v.n 0x34 (0x11 + 2 * e)
    brk (decide (code e < 0x100) || decide (0x12FF < code e)) [key 0x34 (0x10 + 2 * e)] ++
    brk (w % 65536 == 0 || w / 65536 % 256 == 0) [key 0x34 (0x11 + 2 * e)] [key 0x34 (0x10 + 2 * e)]) ++
  (pairs used).flatMap (fun p => brk (code p.1 == code p.2) [key 0x34 (0x10 + 2 * p.1), key 0x34 (0x10 + 2 * p.2)])

/-- Every cross-field rule. -/
def Dev.rules (d : Dev) (v : View) : List Broken :=
  (Bits.upTo 32).flatMap (portRules v) ++ (Bits.upTo 512).flatMap (chainRules v) ++ rsRules v ++ gnssRules v ++ fusionRules d v ++
    thrusterRules v ++ groupRules v ++ loopRules d v ++ plantRules d v ++ netRules d v ++
    (Bits.upTo 8).flatMap (canRates v) ++ canThrusters v ++ mapRules d v ++ locketRules v

/-- Keys rising, each once. -/
def risingKeys (l : List Nat) : List Nat := l.foldl (fun a k => insNat k a) []

/-- The fields that break a rule of a staged set. -/
def Dev.rangeOff (staged : SMap Word) (d : Dev) : List Nat :=
  let keys := staged.map Prod.fst
  risingKeys (((d.rules (d.view staged)).filter (fun b => (b.off ++ b.more).any keys.contains)).flatMap Broken.off)

/-! ### Quiesce conditions (Table 2.12, R69) -/

/-- A transport has an outstanding tag other than the commit's own (R56). -/
def Dev.transportBusy (d : Dev) (tr : Transport) (own : Option (BitVec 6)) : Bool :=
  d.cmd.tags.any (fun p => p.req.src.tr == tr && some p.req.tag != own)

/-- A port carries traffic: acquisition runs and the port is enabled (R132). -/
def Dev.portRuns (d : Dev) (p : Nat) : Bool := d.acq.running && d.parB 4 (0x10 + 8 * p)

/-- The ports on which resampler u depends, before and after (R132). -/
def Dev.rsPorts (d : Dev) (v : View) (u : Nat) : List Nat :=
  let one := fun (w : View) =>
    let us := (Bits.upTo 16).filter (fun x => x == u || w.n 5 (0x101 + 8 * u) == x || w.n 5 (0x101 + 8 * x) == u)
    (us.filter (rsUsed w)).map (fun x => w.n 5 (0x100 + 8 * x) / 16)
  one (fun t p => d.par t p) ++ one v

/-- A loop runs. -/
def Dev.loopLive (d : Dev) (i : Nat) : Bool := d.engine.running && d.parB 0x18 (0x1000 + 16 * i)

/-- A Q field of table LOOPS is held by a running loop (R293). -/
def Dev.loopLocked (d : Dev) (v : View) (p : Nat) : Bool :=
  if p < 0x800 then (cmdLoops (fun t p => d.par t p) (p - 0x40) ++ cmdLoops v (p - 0x40)).any d.loopLive
  else if p < 0x2000 then d.loopLive ((p - 0x1000) / 16)
  else (Bits.upTo 256).any (fun i =>
    let s := poolOf (fun t p => d.par t p) i
    d.loopLive i && decide (s.1 ≤ (p - 0x2000) / 8) && decide ((p - 0x2000) / 8 < s.1 + s.2))

/-- A Q field cannot commit now. -/
def Dev.locked (d : Dev) (v : View) (own : Option (BitVec 6)) (t p : Nat) : Bool :=
  if t = 1 then d.transportBusy (if p = 0x20 then .pcie else if p = 0x21 then .spi else .udp) own
  else if t = 2 then d.acq.running
  else if t = 4 then if p = 2 then d.acq.running else d.portRuns ((p - 0x10) / 8)
  else if t = 5 then
    if p < 0x1000 then (d.rsPorts v ((p - 0x100) / 8)).any d.portRuns
    else d.portRuns ((p % 0x200) / 16)
  else if t = 8 then d.gnss.running
  else if t = 0x18 then d.loopLocked v p
  else if t = 0x20 then
    if p = 0x40 then (d.port 2).enabled || (d.port 3).enabled else (d.port ((p - 0x20) / 8)).enabled
  else if t = 0x24 then (d.ctrl ((p - 0x20) / 0x20)).mode != 0
  else if t = 0x28 then d.clasp.role != .solo && d.clasp.role != .ineligible
  else d.solver.mode != .idle

/-- The staged Q fields whose quiesce condition does not hold. -/
def Dev.lockedOff (staged : SMap Word) (own : Option (BitVec 6)) (d : Dev) : List Nat :=
  let v := d.view staged
  (staged.map Prod.fst).filter (fun k =>
    match Params.fieldOf (k / 65536) (k % 65536) with
    | some f => f.cls == .quiesce && d.locked v own (k / 65536) (k % 65536)
    | none => false)

/-- The staged F fields outside FACTORY (R68). -/
def Dev.sealedOff (staged : SMap Word) (d : Dev) : List Nat :=
  if d.life.state = .factory then []
  else (staged.map Prod.fst).filter (fun k =>
    match Params.fieldOf (k / 65536) (k % 65536) with | some f => f.cls == .factory | none => false)

/-! ### The Hallmark (R74) -/

/-- The entries of one table: positions from p on, `n` of them. -/
def canonGo (vals : Nat → Nat → Word) (t : Nat) : Nat → Nat → List Byte
  | _, 0 => []
  | p, n + 1 =>
    (match Params.fieldOf t p with
     | some f =>
       if f.cls = .factory then []
       else Bits.le 1 t ++ Bits.le 2 p ++ Bits.le 4 (if f.cls = .sealed then 0 else (vals t p).toNat)
     | none => []) ++ canonGo vals t (p + 1) n

/-- The canonical image. -/
def canonical (vals : Nat → Nat → Word) : List Byte := Params.tables.flatMap (fun x => canonGo vals x.1 0 (x.2 + 1))

/-- The Hallmark of a configuration. -/
def hallmarkOf (vals : Nat → Nat → Word) : DWord := BitVec.ofNat 64 (Bits.fromLe ((Bits.sha256 (canonical vals)).take 8))

/-! ### Validation (R68) -/

/-- The list of offending fields in a reply (R68): up to 64. -/
def offBytes (l : List Nat) : List Byte := (l.take 64).flatMap (fun k => Bits.le 1 (k / 65536) ++ [0] ++ Bits.le 2 (k % 65536))

/-- The verdict on a staging set: the Hallmark it produces, or a status, an argument and a payload. -/
inductive Verdict where
  | good (mark : DWord)
  | bad (status : Half) (rarg : Nat) (payload : List Byte)
deriving DecidableEq, Repr

/-- Validation all-or-nothing, in the order of R68. -/
def Dev.validate (staged : SMap Word) (own : Option (BitVec 6)) (expect : DWord) (d : Dev) : Verdict :=
  let s := d.sealedOff staged
  let l := d.lockedOff staged own
  let r := d.rangeOff staged
  if !s.isEmpty then .bad stSealed s.length (offBytes s)
  else if !l.isEmpty then .bad stLocked l.length (offBytes l)
  else if !r.isEmpty then .bad stRange r.length (offBytes r)
  else
    let h := hallmarkOf (d.view staged)
    if expect ≠ 0 ∧ expect ≠ h then .bad stRange 0xFFFF (Bits.le 8 h.toNat) else .good h

end Sys2Proof.Machine
end

