-- ==== Sys2Proof/Machine/Stage.lean ====
section
/-! DEFINITION. Machine/Stage.lean: reading and staging fields, commits and their application, the Hallmark (02 R61 to
R74), the partner's side of a commit (R71). -/

namespace Sys2Proof.Machine

open Sys2Proof

/-! ### Reading (R61, R74) -/

/-- The value of a sealed field, from the Bezel (R427, Tables 13.9 and 14.5). -/
def Dev.sealedValue (t p : Nat) (d : Dev) : Word :=
  let w := d.island.bezel
  BitVec.ofNat 32 (
    if t = 0x28 then
      if p = 1 then Bits.b2n (w.getLsbD 18) else if p = 2 then Bits.b2n (w.getLsbD 19)
      else 2 * Bits.b2n (w.getLsbD 21) + Bits.b2n (w.getLsbD 20)
    else if p = 1 then w.toNat else if p = 2 then d.island.bezelLive.toNat
    else if p = 3 then w.toNat % 65536 else if p = 4 then bezelDisc w else if p = 5 then bezelPlan w
    else if p = 6 then Bits.b2n (bezelManual w) else Bits.b2n (w.getLsbD 22))

/-- A field as PARAM_READ gives it: a reserved position reads zero. -/
def Dev.fieldRead (t p : Nat) (staged : Bool) (d : Dev) : Word :=
  match Params.fieldOf t p with
  | none => 0
  | some f =>
    if f.cls = .sealed then d.sealedValue t p
    else if staged then d.view d.cfg.staged t p else d.par t p

/-- An address names existing positions (R61). -/
def addrOk (a : FieldAddr) : Bool :=
  a.count != 0 && (match Params.lastPos a.table with | some l => decide (a.first + a.count ≤ l + 1) | none => false)

/-- The keys that an address names. -/
def addrKeys (a : FieldAddr) : List Nat := (Bits.upTo a.count).map (fun i => key a.table (a.first + i))

/-- The owner that a request's source makes (R63): for UDP the transport with the address. -/
def ownerOf (s : Source) : Source := { tr := s.tr, ip := if s.tr = .udp then s.ip else 0 }

/-- The source owns the staging set. -/
def Dev.owns (d : Dev) (s : Source) : Bool := d.cfg.owner == some (ownerOf s)

/-- A request of the owner holds off the abandonment (R64). -/
def Dev.touchStage (s : Source) (d : Dev) : Dev :=
  if d.owns s then { d with cfg := { d.cfg with lastUse := d.time.now } } else d

/-- PARAM_READ (R61, R64). -/
def Dev.paramReadOp (r : Req) (d : Dev) : OpRes :=
  let a := fieldAddr r.target
  if !(addrOk a) then refuse d stRange
  else reads d ((addrKeys a).flatMap (fun k => Bits.le 4 (d.fieldRead (k / 65536) (k % 65536) r.stagedView).toNat))

/-- HALLMARK_READ (R74). -/
def Dev.hallmarkReadOp (r : Req) (d : Dev) : OpRes :=
  let h := if r.stagedView then hallmarkOf (d.view d.cfg.staged) else d.cfg.hallmark
  reads d (Bits.le 8 h.toNat ++ Bits.le 4 d.cfg.lastCommit)

/-! ### Staging (R62 to R65) -/

/-- A PARAM_STAGE, PARAM_DISCARD or PARAM_COMMIT from this source meets a conflict (R63). -/
def Dev.stageConflict (d : Dev) (s : Source) : Bool :=
  d.commitPending || (d.cfg.owner.isSome && !(d.owns s))

/-- A staged change, or a discard, waits for the mirror (R71). -/
def Dev.markStage (k : Nat) (v : Option Word) (d : Dev) : Dev :=
  { d with cfg := { d.cfg with marks := Bits.putBy (fun m => m.key == k) { key := k, value := v } d.cfg.marks } }

/-- The check of one value (R62, R65): none where it may be staged. -/
def Dev.stageCheck (t p : Nat) (w : Word) (d : Dev) : Option Half :=
  match Params.fieldOf t p with
  | none => if w = 0 then none else some stRange
  | some f =>
    if f.cls = .sealed || (f.cls = .factory && d.life.state != .factory) then some stSealed
    else if f.ok w || w == f.reset then none else some stRange

/-- The first value of a request that fails: its number and status. -/
def Dev.stageFail (t p : Nat) (vs : List Word) (n : Nat) (d : Dev) : Option (Nat × Half) :=
  match vs with
  | [] => none
  | w :: m => match d.stageCheck t p w with
    | some s => some (n, s)
    | none => d.stageFail t (p + 1) m (n + 1)

/-- One value enters the set. -/
def Dev.stageOne (k : Nat) (w : Word) (d : Dev) : Dev :=
  ({ d with cfg := { d.cfg with staged := Bits.insert k w d.cfg.staged } }).markStage k (some w)

/-- PARAM_STAGE (R62, R63, R65). -/
def Dev.paramStageOp (r : Req) (d : Dev) : OpRes :=
  let a := fieldAddr r.target
  if d.stageConflict r.src then refuse d stConflict
  else if !(addrOk a) then
    refuse d stRange (match Params.lastPos a.table with | some l => l + 1 - a.first | none => 0)
  else
    let vs := (Bits.upTo a.count).map (fun i => Bits.wordAt r.payload (4 * i))
    match d.stageFail a.table a.first vs 0 with
    | some (n, s) => refuse d s (if s = stRange then n else 0)
    | none =>
      let l := ((addrKeys a).zip vs).filter (fun x => (Params.fieldOf (x.1 / 65536) (x.1 % 65536)).isSome)
      let d := l.foldl (fun (y : Dev) (x : Nat × Word) => y.stageOne x.1 x.2) d
      done { d with cfg := { d.cfg with owner := some (ownerOf r.src), lastUse := d.time.now } } l.length

/-- Staged fields leave the set; an empty set has no owner (R63). -/
def Dev.unstage (ks : List Nat) (d : Dev) : Dev :=
  let d := ks.foldl (fun x k => x.markStage k none) d
  let l := d.cfg.staged.filter (fun e => !(ks.contains e.1))
  { d with cfg := { d.cfg with staged := l, owner := if l.isEmpty then none else d.cfg.owner } }

/-- PARAM_DISCARD (R63). -/
def Dev.paramDiscardOp (r : Req) (d : Dev) : OpRes :=
  let a := fieldAddr r.target
  if d.stageConflict r.src then refuse d stConflict
  else if r.tgt ≠ 0 ∧ !(addrOk a) then refuse d stRange
  else
    let ks := (d.cfg.staged.map Prod.fst).filter (fun k => r.tgt == 0 || (addrKeys a).contains k)
    done (d.unstage ks) ks.length

/-- The set is abandoned (R64): 0207h. -/
def Dev.abandonStage (reason : Nat) (d : Dev) : Dev :=
  match d.cfg.owner with
  | none => d
  | some o =>
    let ks := d.cfg.staged.map Prod.fst
    let d := d.unstage ks
    ({ d with cfg := { d.cfg with owner := none } }).raise 0x0207 0
      (Bits.le 1 (trCode o.tr) ++ Bits.le 2 ks.length ++ Bits.le 1 reason)

/-- STAGING_ABANDONED by timeout: the owner has been silent for STAGE_TIMEOUT; a frozen set is never abandoned (R64). -/
def Dev.stageTimeout (d : Dev) : Dev :=
  if d.cfg.owner.isSome && !d.commitPending &&
      decide (1000000000 * d.parN 1 0x2A ≤ d.time.now - d.cfg.lastUse) then d.abandonStage 1 else d

/-- The owner's transport is disabled by a commit, or its address is no longer a host's (R64). -/
def Dev.stageGuard (d : Dev) : Dev :=
  match d.cfg.owner with
  | some o =>
    if d.commitPending then d
    else if d.par 1 (0x20 + trCode o.tr) = 0 then d.abandonStage 2
    else if o.tr = .udp ∧ (Bits.upTo 4).all (fun i => d.parN 1 (0x25 + i) != o.ip) then d.abandonStage 3
    else d
  | none => d

/-- A PCIe owner's transport is reset (R64). -/
def Dev.stagePcieReset (d : Dev) : Dev :=
  match d.cfg.owner with
  | some o => if o.tr = .pcie && !d.commitPending then d.abandonStage 2 else d
  | none => d

/-! ### Commits (R66 to R69) -/

/-- PARAM_COMMIT (R63, R66). -/
def Dev.paramCommitOp (tag : BitVec 6) (r : Req) (d : Dev) : OpRes :=
  if d.stageConflict r.src then refuse d stConflict
  else if !r.nextTick && decide (3000 < Bits.diff32 r.tgt d.frame.number) then refuse d stRange
  else if d.cfg.staged.isEmpty then done d
  else
    let c : Commit := { tag := tag, frame := r.tgt, next := r.nextTick, expect := BitVec.ofNat 64 (Bits.at' r.payload 0 8) }
    deferred { d with cfg := { d.cfg with commit := some c } } none

/-- The unit has a partner to carry the commit out with (R71). -/
def Dev.paired (d : Dev) : Bool := d.clasp.role.inControl && d.clasp.partnerHere

/-- The pending commit is judged in this window, on the numbering in force (R67): on time, late, or not yet. -/
def Dev.commitDue (c : Commit) (d : Dev) : Bool × Bool :=
  let n := Bits.diff32 c.frame d.nextNo
  if c.next then (true, false) else (decide (n ≤ 0) || decide (3000 < n), decide (n < 0) || decide (3000 < n) || c.late)

/-- A commit is refused: the set is unfrozen and kept (R68); 0203h counts the offending fields, none for a Hallmark. -/
def Dev.commitRefused (c : Commit) (st : Half) (rarg : Nat) (payload : List Byte) (d : Dev) : Dev :=
  let d := { d with cfg := { d.cfg with commit := none } }
  (d.finish c.tag { status := st, rarg := BitVec.ofNat 16 rarg, payload := payload }).raise 0x0203 1
    (Bits.le 2 st.toNat ++ Bits.le 2 (if rarg = 0xFFFF then 0 else rarg))

/-- The validation window opens at t0+19.6 ms (R18, R67, R68, R71). -/
def Dev.commitWindow (d : Dev) : Dev :=
  match d.cfg.commit with
  | none => d
  | some c =>
    let (due, late) := d.commitDue c
    if !due then d
    else if d.paired ∧ !d.cfg.marks.isEmpty then { d with cfg := { d.cfg with commit := some { c with late := !c.next } } }
    else match d.validate d.cfg.staged (some c.tag) c.expect with
      | .bad st n p => d.commitRefused c st n p
      | .good h =>
        let f := d.nextNo
        let d1 := { d with cfg := { d.cfg with
          commit := some { c with validated := true, newMark := h, late := late, paired := d.paired } } }
        if d.paired then
          d1.emit (.lane (laneMessage 4 d.frame.number 0 0 1
            (Bits.le 4 f ++ Bits.le 8 h.toNat ++ Bits.le 4 d.cfg.staged.length)))
        else d1

/-! ### Application (R68, R70, R73) -/

/-- The store takes the committed configuration into its older copy; a write that fails leaves the store as it was and raises
0206h (R73). -/
def Dev.storeConfig (d : Dev) : Dev :=
  if d.hw.noStore then d.raise 0x0206 3 (Bits.le 4 d.frame.number) else
  let n := d.nvm
  let a := if n.cfgA.valid then n.cfgA.seq else 0
  let b := if n.cfgB.valid then n.cfgB.seq else 0
  let c := CfgCopy.signed { seq := (if a < b then b else a) + 1, vals := d.cfg.committed }
  if !n.cfgA.valid || (n.cfgB.valid && decide (n.cfgA.seq < n.cfgB.seq)) then { d with nvm := { n with cfgA := c } }
  else { d with nvm := { n with cfgB := c } }

/-- What blocks do at once when fields change: the refined model returns to its nominals (R241), receive mappings start
afresh (R369), PPS_OUT and the ports follow their enables. -/
def Dev.applyEffects (d old : Dev) : Dev :=
  let changed := fun (t p : Nat) => d.par t p != old.par t p
  let d := if (Bits.upTo 8).any (fun i => changed 0x10 (1 + i)) || (old.parB 0x10 9 && !(d.parB 0x10 9)) then d.refineReset else d
  let d := (d.can.maps.map Prod.fst).foldl (fun (x : Dev) e =>
    if (Bits.upTo 4).any (fun o => changed 0x24 (0x800 + 4 * e + o)) then x.setRxMap e {} else x) d
  let d := if (Bits.upTo 0x50).any (changed 0x34) then d.locketCap else d
  let d := if changed 0x30 4 then d.autoRestart else d
  d.ppsGate.stageGuard

/-- A set of fields is applied to every block at the tick (R68), and the Hallmark with it (R74). -/
def Dev.applySet (set : SMap Word) (mark : DWord) (d : Dev) : Dev :=
  let old := d
  let d := { d with cfg := { d.cfg with
    committed := set.foldl (fun m (e : Nat × Word) => Bits.put Params.resetKey m e.1 e.2) d.cfg.committed,
    hallmark := mark, lastCommit := d.frame.number } }
  let d := d.storeConfig.raise 0x0202 0 (Bits.le 4 d.frame.number ++ Bits.le 4 mark.toNat)
  d.applyEffects old

/-- The validated commit is applied at its tick: the set is empty (R63, R68, R72). It stays its owner's until the commit's
final reply releases it (R64). -/
def Dev.commitTick (d : Dev) : Dev :=
  match d.cfg.commit with
  | some c =>
    if c.validated then
      let set := d.cfg.staged
      let d := { d with cfg := { d.cfg with
        staged := [], marks := [], commit := none,
        applied := some { tag := c.tag, frame := d.frame.number, mark := c.newMark, late := c.late, paired := c.paired,
                          partner := c.partner } } }
      d.applySet set c.newMark
    else d
  | none => d

/-- The final reply of an applied commit, in the tail slot after the store write (R71, R72). -/
def Dev.commitReply (d : Dev) : Dev :=
  match d.cfg.applied with
  | none => d
  | some a =>
    let d := { d with cfg := { d.cfg with applied := none, owner := none } }
    let part := a.partner.getD stTimeout
    if a.paired ∧ part ≠ stOk then
      let ms := [(0, stOk), (1, part)]
      (d.finish a.tag { status := stPartial, rarg := 1, payload := partialPayload 0 ms, late := a.late }).partialEvent 0x12 0 ms
    else
      d.finish a.tag { status := stOk, late := a.late,
                       payload := Bits.le 4 a.frame ++ Bits.le 8 a.mark.toNat ++ Bits.le 1 (if a.paired then 3 else 1) ++ [0, 0, 0] }

/-! ### The pair (R71) -/

/-- The partner's result for the commit in its window. -/
def Dev.commitResult (bs : List Byte) (d : Dev) : Dev :=
  match laneOf bs with
  | some (5, f, _, _, _, p) =>
    let (new, d) := d.takeOnce 5 f
    match d.cfg.commit with
    | some c =>
      if new ∧ c.validated ∧ c.paired ∧ c.partner = none ∧ Bits.at' p 0 4 = d.nextNo then
        let st := BitVec.ofNat 16 (Bits.at' p 12 2)
        let r := if st = stOk ∧ Bits.at' p 4 8 ≠ c.newMark.toNat then stRange else st
        { d with cfg := { d.cfg with commit := some { c with partner := some r } } }
      else d
    | none => d
  | some _ => d
  | none => d.laneError bs

/-- COMMIT_RESULT_TIMEOUT at t0+19.9 ms. -/
def Dev.commitResultTimeout (d : Dev) : Dev :=
  match d.cfg.commit with
  | some c =>
    if c.validated && c.paired && c.partner.isNone && decide (d.frame.nextTick ≤ d.dev + 100000) then
      { d with cfg := { d.cfg with commit := some { c with partner := some stTimeout } } }
    else d
  | none => d

/-- A commit failed on this unit: cause 2 (Table 13.5). -/
def Dev.commitFailed (frame : Nat) (d : Dev) : Dev :=
  d.modClasp (fun c => { c with causes := c.causes ||| 4, failFrom := some frame })

/-- COMMIT_RECEIVED: the unit validates its mirrored copy against the Hallmark and answers (R71). -/
def Dev.commitReceived (bs : List Byte) (d : Dev) : Dev :=
  match laneOf bs with
  | some (4, f, _, _, _, p) =>
    let (new, d) := d.takeOnce 4 f
    if !new || d.clasp.role.inControl then d
    else
      let apply := Bits.at' p 0 4
      let v := d.validate d.cfg.mirrored none (BitVec.ofNat 64 (Bits.at' p 4 8))
      let mine := hallmarkOf (d.view d.cfg.mirrored)
      let (st, n) : Half × Nat := match v with | .good _ => (stOk, 0) | .bad s k _ => (s, k)
      let d := match v with
        | .good _ => { d with cfg := { d.cfg with partnerCommit := some apply } }
        | .bad _ _ _ => d.commitFailed apply
      d.emit (.lane (laneMessage 5 d.frame.number 0 0 1
        (Bits.le 4 apply ++ Bits.le 8 mine.toNat ++ Bits.le 2 st.toNat ++ Bits.le 2 n)))
  | some _ => d
  | none => d.laneError bs

/-- The partner's commit is applied here at the tick it names; at any other tick it has failed here. `named` is the number
that the tick would have had on the old numbering (R67). -/
def Dev.partnerCommitTick (named : Nat) (d : Dev) : Dev :=
  match d.cfg.partnerCommit with
  | none => d
  | some f =>
    let set := d.cfg.mirrored
    let d := { d with cfg := { d.cfg with partnerCommit := none } }
    if f = named then ({ d with cfg := { d.cfg with mirrored := [] } }).applySet set (hallmarkOf (d.view set))
    else d.commitFailed f

/-- A pending commit ends with the unit's role: its set is discarded on both units (R49). -/
def Dev.commitDropped (d : Dev) : Dev :=
  match d.cfg.commit with
  | none => d
  | some _ =>
    let ks := d.cfg.staged.map Prod.fst
    let d := { d with cfg := { d.cfg with commit := none } }
    let d := d.unstage ks
    { d with cfg := { d.cfg with owner := none } }

end Sys2Proof.Machine
end

