-- ==== Sys2Proof/Machine/Life.lean ====
section
/-! DEFINITION. Machine/Life.lean: life-cycle states, firmware images, the debug port, reset and start-up (17), and the
hardware's own events (18). -/

namespace Sys2Proof.Machine

open Sys2Proof

/-- The life-cycle block changed. -/
def Dev.modLife (f : LifeSt → LifeSt) (d : Dev) : Dev := { d with life := f d.life }

/-! ### Life-cycle states (R482 to R488) -/

/-- A transition of Table 17.3: whether it needs the Hallmark, SERIAL and AUTH; none where it does not exist (R486). -/
def transition (a b : Life) : Option (Bool × Bool × Bool) :=
  match a, b with
  | .factory, .commission => some (false, false, true)
  | .commission, .service => some (true, false, false)
  | .service, .maintain => some (false, false, false)
  | .maintain, .service => some (true, false, false)
  | .maintain, .commission => some (false, false, false)
  | .commission, .returned => some (false, true, false)
  | .maintain, .returned => some (false, true, false)
  | .returned, .commission => some (false, false, true)
  | .returned, .factory => some (false, false, true)
  | .maintain, .retired => some (false, true, true)
  | .returned, .retired => some (false, true, true)
  | _, _ => none

/-- The role and mode condition of R487: none where it holds. -/
def Dev.advanceRole (d : Dev) : Option (Half × Half) :=
  let held := d.clasp.role.inControl || d.clasp.lease
  if held && d.solver.mode != .idle then some (stLife, 0x0100)
  else if d.clasp.role = .active then some (stRole, 1)
  else none

/-- The opcodes whose outstanding requests hold up a transition (R487). -/
def advanceBusy (op : Byte) : Bool := [0x12, 0x61, 0x90, 0xF0, 0xF1, 0xA1].contains op.toNat

/-- The digest that AUTH signs (R485). -/
def Dev.authDigest (d : Dev) (target : Life) : List Byte :=
  Bits.sha256 (d.serial ++ Bits.le 8 d.life.challenge.toNat ++ Bits.le 1 d.life.state.code ++ Bits.le 1 target.code)

/-- LIFECYCLE_ADVANCE (R485 to R488). -/
def Dev.lifecycleAdvanceOp (tag : BitVec 6) (r : Req) (d : Dev) : OpRes :=
  let p := r.payload
  match (lifeOf r.tgt).bind (fun b => (transition d.life.state b).map (fun n => (b, n))) with
  | none => refuse d stRange
  | some (b, hall, ser, auth) =>
    match d.advanceRole with
    | some (st, a) => refuse d st a.toNat
    | none =>
      let zero := fun (o n : Nat) => (p.drop o).take n == Bits.zeros n
      if d.cmd.tags.any (fun q => q.req.tag != tag && q.started && q.done.isNone && advanceBusy q.op) then refuse d stBusy
      else if Bits.at' p 24 8 ≠ d.life.challenge.toNat then refuse d stRange 24
      else if (if hall then Bits.at' p 0 8 != d.cfg.hallmark.toNat else !(zero 0 8)) then refuse d stRange 0
      else if (if ser then (p.drop 8).take 16 != d.serial else !(zero 8 16)) then refuse d stRange 8
      else if (if auth then !(Config.ecdsaOk (d.authDigest b) ((p.drop 32).take 64)) else !(zero 32 64)) then refuse d stRange 32
      else deferred (d.modLife (fun l => { l with advance := some (tag, b) })) (some 1000000000)

/-- The older copy of the life-cycle state takes a new state (R483). -/
def Dev.storeLife (s : Life) (d : Dev) : Dev :=
  let n := d.nvm
  let a := if n.lifeA.valid then n.lifeA.seq else 0
  let b := if n.lifeB.valid then n.lifeB.seq else 0
  let c := LifeCopy.signed { seq := (if a < b then b else a) + 1, state := s }
  if !n.lifeA.valid || (n.lifeB.valid && decide (a < b)) then { d with nvm := { n with lifeA := c } }
  else { d with nvm := { n with lifeB := c } }

/-- A fresh challenge (R485). -/
def Dev.newChallenge (d : Dev) : Dev := (d.modLife (fun l => { l with challenge := Config.challenge d.free })).fresh

/-- The level of the debug port (Table 17.1, R514): closed before unit ready (Table 17.6) and while bank VIO4 is out. -/
def Dev.debugLevel (d : Dev) : Nat :=
  if !d.life.ready || d.hw.vioOut.getLsbD 3 then 0
  else match d.life.state with
    | .factory => 2
    | .commission => if d.parB 1 0x40 then 1 else 0
    | .maintain => if d.parB 1 0x40 then 1 else 0
    | .returned => 1
    | _ => 0

/-- The debug port follows at a tick; 1108h each time it opens (R489). -/
def Dev.debugTick (d : Dev) : Dev :=
  let l := d.debugLevel
  let old := d.life.debug
  let d := d.modLife (fun x => { x with debug := l })
  if old = 0 ∧ l ≠ 0 then d.raise 0x1108 1 (Bits.le 1 l) else d

/-- An accepted transition is applied at the tick, its conditions judged on `old`, the state before the tick (R488). -/
def Dev.lifeTick (d old : Dev) : Dev :=
  match d.life.advance with
  | none => d
  | some (tag, b) =>
    let d := d.modLife (fun l => { l with advance := none })
    match old.advanceRole with
    | some (st, a) => d.finish tag { status := st, rarg := a }
    | none =>
      let a := d.life.state
      let d := d.raise 0x1104 0 (Bits.le 1 a.code ++ Bits.le 1 b.code ++ Bits.le 4 d.frame.number)
      let d := (d.storeLife b).modLife (fun l => { l with state := b })
      let d := if b = .service then { d with health := { d.health with autoFrom := d.time.now, autoDue := false } } else d
      let d := { d with nvm := { d.nvm with prevLife := a.code } }.newChallenge.finish tag { status := stOk }
      if b = .returned ∨ b = .retired then d.fence 7 else d

/-! ### Firmware images (R490 to R493) -/

/-- Image i as the module knows it. -/
def Dev.img (d : Dev) (i : Nat) : FwImage := d.nvm.images.getD i {}
/-- An image changed. -/
def Dev.modImg (i : Nat) (f : FwImage → FwImage) (d : Dev) : Dev :=
  { d with nvm := { d.nvm with images := Bits.modAt d.nvm.images i f } }

/-- Bytes of an image's flash: erased cells read FFh. -/
def FwImage.bytes (m : FwImage) (off len : Nat) : List Byte :=
  (Bits.upTo len).map (fun k => Bits.get (fun _ => (0xFF : Byte)) m.cells (off + k))

/-- VERSION from an image's header, 0 where there is none (Table 17.8). -/
def FwImage.version (m : FwImage) : Nat :=
  if m.factory then Config.fwVersion.toNat
  else if Bits.fromLe (m.bytes 0 2) = 0x5D1E then Bits.fromLe (m.bytes 4 4) else 0

/-- LEVEL from an image's header. -/
def FwImage.level (m : FwImage) : Nat := if m.factory then 0 else Bits.fromLe (m.bytes 12 4)

/-- What is wrong with an image (R490): 1 header, 2 digest, 3 signature, 4 level; none: it is valid. -/
def Dev.imageFault (d : Dev) (i : Nat) : Option Nat :=
  let m := d.img i
  if m.factory then none
  else
    let len := Bits.fromLe (m.bytes 8 4)
    if Bits.fromLe (m.bytes 0 2) ≠ 0x5D1E ∨ Bits.fromLe (m.bytes 2 2) ≠ 0x5120 ∨ len % 4 ≠ 0 ∨ 33554176 < len ∨
        m.bytes 112 144 ≠ Bits.zeros 144 then some 1
    else if Bits.sha256 (m.bytes 256 len) ≠ m.bytes 16 32 then some 2
    else if !(Config.ecdsaOk (Bits.sha256 (m.bytes 0 48)) (m.bytes 48 64)) then some 3
    else if m.level < d.nvm.floor then some 4
    else none

/-- Bytes are written to flash: programming clears bits only (notes/assumptions/31.md). -/
def flashWrite (off : Nat) (bs : List Byte) (m : FwImage) : FwImage :=
  { m with factory := false, state := 1,
           cells := (bs.zipIdx).foldl (fun c (b : Byte × Nat) =>
             Bits.put (fun _ => (0xFF : Byte)) c (off + b.2) (Bits.get (fun _ => (0xFF : Byte)) c (off + b.2) &&& b.1)) m.cells }

/-- A 64 KiB sector is erased. -/
def flashErase (off : Nat) (m : FwImage) : FwImage :=
  { m with factory := false, state := 1, cells := m.cells.filter (fun c => c.1 / 65536 != off / 65536) }

/-- FW_STAGE (R491). -/
def Dev.fwStageOp (tag : BitVec 6) (r : Req) (d : Dev) : OpRes :=
  let i := r.tgt / 2 ^ 31
  let off := r.tgt % 2 ^ 25
  if r.tgt / 2 ^ 25 % 64 ≠ 0 ∨ off % 4 ≠ 0 then refuse d stRange
  else if off / 65536 ≠ (off + r.len - 1) / 65536 ∨ 33554432 < off + r.len then refuse d stRange
  else if i = d.life.running ∧ !d.life.noImage then refuse d stRange 1
  else if off % 65536 = 0 then
    let d := (d.modImg i (flashErase off)).modLife (fun l => { l with
      erase := l.erase ++ [{ tag := some tag, image := i, offset := off, data := r.payload }] })
    deferred d (some 2000000000)
  else done (d.modImg i (flashWrite off r.payload))

/-- FLASH_ERASE_DONE: the chunk that began the sector is written, and its request ends OK (R491). -/
def Dev.eraseDone (d : Dev) : Dev :=
  match d.life.erase with
  | [] => d
  | e :: m =>
    let d := (d.modLife (fun l => { l with erase := m })).modImg e.image (flashWrite e.offset e.data)
    match e.tag with | some t => d.finish t { status := stOk } | none => d

/-- FW_ACTIVATE (R490, R492). -/
def Dev.fwActivateOp (tag : BitVec 6) (r : Req) (d : Dev) : OpRes :=
  if 1 < r.tgt then refuse d stRange
  else if d.clasp.lease && d.solver.mode != .idle then refuse d stRole 1
  else
    match d.imageFault r.tgt with
    | some k =>
      let d := (d.modImg r.tgt (fun m => { m with state := if r.tgt = d.life.running then m.state else 3 })).raise 0x1105 3
        (Bits.le 1 r.tgt ++ Bits.le 1 k)
      deferred (d.finish tag { status := stRange, rarg := if k = 4 then 2 else 1 }) none
    | none =>
      let d := d.modImg r.tgt (fun m => { m with state := if r.tgt = d.life.running then m.state else 2 })
      let d := { d with nvm := { d.nvm with boot := r.tgt, trial := true, trials := 0 } }
      let d := d.modLife (fun l => { l with activating := some tag })
      deferred (d.finish tag { status := stOk }) none

/-- LIFECYCLE_READ (Table 17.8). -/
def Dev.lifecycleBytes (d : Dev) : List Byte :=
  Bits.le 1 d.life.state.code ++ Bits.le 1 d.nvm.prevLife ++ Bits.le 1 d.life.cause ++
    Bits.le 1 (flagBits [d.clasp.causes.getLsbD 9, d.life.trialRun, d.life.rolledBack, d.life.debug != 0]) ++
    Bits.le 1 d.life.running ++ Bits.le 1 d.nvm.boot ++ Bits.le 1 (d.img 0).state ++ Bits.le 1 (d.img 1).state ++
    Bits.le 4 (d.img 0).version ++ Bits.le 4 (d.img 1).version ++ Bits.le 8 d.life.challenge.toNat ++
    Bits.le 4 d.life.readyUs ++ Bits.le 2 (Bits.sat 0xFFFF d.nvm.trials) ++ Bits.le 1 d.life.debug ++ [0]

/-! ### Reset (R497 to R502, R409) -/

/-- What a reset leaves: MRAM, flash, the raw counter's time line, the pins, the oscillator, the latched Bezel. -/
def Dev.wiped (d : Dev) : Dev :=
  { ({} : Dev) with
    nvm := d.nvm, out := d.out, free := d.free,
    time := { now := d.time.now, epoch := d.time.now },
    clasp := { feeds := d.clasp.feeds, feedA := d.clasp.feedA, feedB := d.clasp.feedB, ownSince := d.time.now, beatAt := d.time.now },
    island := { state := if d.island.state == .safe && !d.island.restartDue && d.island.bezelValid then .safe else .starting,
                bezel := d.island.bezel, bezelValid := d.island.bezelValid, bezelLive := d.island.bezelLive,
                bezelPrev := d.island.bezelPrev, mdLatched := d.island.mdLatched, safeAt := d.island.safeAt,
                sealChanged := d.island.sealChanged, reported := d.island.reported },
    pps := { ref10Valid := d.pps.ref10Valid },
    hw := { d.hw with gpio := none, vioOut := 0 },
    life := { rstLow := d.life.rstLow, rstHigh := d.life.rstHigh, stuck := d.life.stuck, stuckFrom := d.life.stuckFrom,
              powered := d.life.powered, poweredAt := d.life.poweredAt, opBase := d.life.opBase, fromPower := d.life.fromPower,
              thermalOff := d.life.thermalOff, restartOk := d.life.restartOk, offSince := d.life.offSince,
              coolCount := d.life.coolCount, cause := d.life.cause } }

/-- The module is held in reset: its outputs take the first column of Table 17.6 (R500). A trial start that ends so before
unit ready has failed, unless by RST_N or the feeds (R493). -/
def Dev.holdReset (cause : Nat) (d : Dev) : Dev :=
  let failed := d.life.trialRun && !d.life.ready && cause != 0 && cause != 1
  let d := if failed then { d with nvm := { d.nvm with trials := d.nvm.trials + 1 } } else d
  let d := d.emit (.reset cause)
  d.wiped.modLife (fun l => { l with inReset := true, cause := cause })

/-- The image that the boot ROM starts: number and whether the other one was abandoned (R493). -/
def Dev.bootChoice (d : Dev) : Option (Nat × Bool) :=
  let b := d.nvm.boot
  let ok := fun (i : Nat) => (d.imageFault i).isNone
  if d.nvm.trial ∧ d.parN 1 0x41 ≤ d.nvm.trials ∧ ok (1 - b) then some (1 - b, true)
  else if ok b then some (b, false)
  else if ok (1 - b) then some (1 - b, false)
  else none

/-- The boot ROM starts an image (R490, R493). -/
def Dev.bootImage (d : Dev) : Dev :=
  match d.bootChoice with
  | none => d.modLife (fun l => { l with noImage := true, trialRun := false })
  | some (i, rolled) =>
    let old := d.nvm.boot
    let trial := d.nvm.trial && i == old
    let n := d.nvm.trials
    let d := { d with nvm := { d.nvm with
      boot := i, trial := trial, trials := if i = old then n else 0,
      images := d.nvm.images.zipIdx.map (fun (x : FwImage × Nat) =>
        if x.2 = i then { x.1 with state := if trial then 5 else 4 }
        else if x.1.state = 4 ∨ x.1.state = 5 then { x.1 with state := if rolled && x.2 == old then 3 else 2 } else x.1) } }
    let d := d.modLife (fun l => { l with running := i, trialRun := trial, rolledBack := rolled })
    if rolled then d.raise 0x1107 3 (Bits.le 1 old ++ Bits.le 1 n) else d

/-- MRAM is read (Table 17.5): the life-cycle state (R483), the configuration (R73), the refined model (R241). -/
def Dev.loadStores (d : Dev) : Dev :=
  let n := d.nvm
  let life := if n.lifeB.valid && (!n.lifeA.valid || decide (n.lifeA.seq < n.lifeB.seq)) then n.lifeB.state else n.lifeA.state
  let vals := if n.cfgB.valid && (!n.cfgA.valid || decide (n.cfgA.seq < n.cfgB.seq)) then n.cfgB.vals
    else if n.cfgA.valid then n.cfgA.vals else []
  let d := { d with cfg := { d.cfg with committed := vals } }
  let d := { d with cfg := { d.cfg with hallmark := hallmarkOf (fun t p => d.par t p) } }
  d.modLife (fun l => { l with state := life })

/-- What start-up finds of the PHYs and the hold-up, as measured at the last POWER_UP (R512, R520; notes/assumptions/103.md). -/
def Dev.partsChecked (d : Dev) : Dev :=
  let d := (Bits.maskBits 4 d.hw.phyFault.toNat).foldl (fun x p => x.raiseI 0x1206 3 p (Bits.le 1 p)) d
  if d.hw.holdup < 120 then d.raise 0x1203 1 (Bits.le 2 d.hw.holdup) else d

/-- Start-up from the release of reset to before unit ready (Table 17.5 from the 15 ms row). With power the Bezel latches. -/
def Dev.startUp (cause : Nat) (bezel : Option (Word × Word)) (diode : Option Int) (d : Dev) : Dev :=
  let off := d.life.offSince
  let latch := d.life.fromPower
  let d := d.wiped.loadStores
  let d := { d with nvm := { d.nvm with cycles := Bits.sat 0xFFFF (d.nvm.cycles + 1) } }
  let d := d.modLife (fun l => { l with
    inReset := false, cause := cause, fromPower := false, thermalOff := false, coolCount := 0, stuck := cause == 6 })
  let d := d.locketStart
  let d := if cause = 6 then d.raise 0x1102 1 (Bits.le 4 ((d.time.now - d.life.stuckFrom) / 1000000)) else d
  let d := if cause = 4 then d.raise 0x0F09 0 (Bits.le 4 ((d.time.now - off) / 1000000000) ++ Bits.le 1 d.shutdowns60) else d
  let d := match bezel with
    | some (a, b) => if latch then d.bezelLatch a b else (d.bezelRead a).bezelRead b
    | none => d
  let d := d.islandStarting.newChallenge.bootImage
  let d := d.flowStart.refineLoad.modClasp (fun c => { c with causes := if cause = 6 then 0x0280 else 0x0080 })
  let d := { d with health := { d.health with autoFrom := d.time.now, tests := d.testsKept } }
  if d.life.noImage then d
  else
    let d := d.partsChecked
    let d := { d with health := { d.health with diodeUse := .check } }
    match diode with
    | some t => d.diodeComplete (some t)
    | none => d

/-- An internal reset: the module restarts at once (R498, R500). -/
def Dev.restart (cause : Nat) (d : Dev) : Dev := (d.holdReset cause).startUp cause none none

/-- The module runs: powered, out of reset. -/
def Dev.runs (d : Dev) : Bool := d.life.powered && !d.life.inReset && !d.life.thermalOff

/-- FENCE_ACK_TIMEOUT (R384). -/
def Dev.fenceAckTimeout (d : Dev) : Dev :=
  match d.clasp.ackSince with
  | some t => if 20000000 ≤ d.time.now - t then d.restart 3 else d
  | none => d

/-- RST_N_ASSERT (R499): the line has been low for `low` ns. Between 2 and 10 µs a free value decides. -/
def Dev.rstAssert (low : Nat) (d : Dev) : Dev :=
  let at0 := d.time.now - low
  let pin := fun (x : Dev) => x.modLife (fun l => { l with rstLow := some at0, rstHigh := none })
  if d.hw.vioOut.getLsbD 2 then d
  else if !d.life.powered || d.life.stuck then pin d
  else if d.life.inReset then pin d
  else if low < 2000 then d
  else
    let take := decide (10000 ≤ low) || Config.rstFree d.free
    let d := if low < 10000 then d.fresh else d
    if take then (pin d).holdReset 1 else d

/-- RST_N_RELEASE: start-up from the instant of release (R494); a stuck reset only notes the level (R501). -/
def Dev.rstRelease (b1 b2 : Word) (diode : Option Int) (d : Dev) : Dev :=
  let d := d.modLife (fun l => { l with rstLow := none, rstHigh := some d.time.now })
  if d.life.powered && d.life.inReset && !d.life.thermalOff then
    d.startUp (if d.life.fromPower then 0 else 1) (some (b1, b2)) diode
  else d

/-- RESET_STUCK: low for 5 s, measured to ±1 % (R501). -/
def Dev.resetStuck (b1 b2 : Word) (diode : Option Int) (d : Dev) : Dev :=
  match d.life.rstLow with
  | some s =>
    if d.life.powered && d.life.inReset && !d.life.thermalOff && decide (4950000000 ≤ d.time.now - s) then
      (d.modLife (fun l => { l with stuckFrom := s })).startUp 6 (some (b1, b2)) diode
    else d
  | none => d

/-- RESET_OBEYED: high for 100 ms (R501). -/
def Dev.resetObeyed (d : Dev) : Dev :=
  match d.life.rstHigh with
  | some h =>
    if d.life.stuck && decide (100000000 ≤ d.time.now - h) then
      (d.modLife (fun l => { l with stuck := false })).raise 0x1103 0 (Bits.le 4 ((d.time.now - d.life.stuckFrom) / 1000000))
    else d
  | none => d

/-- POWER_UP (R494, R512, R520): start-up, or waiting for RST_N where it is low. -/
def Dev.powerUp (b1 b2 : Word) (phy : BitVec 4) (holdup : Nat) (diode : Option Int) (d : Dev) : Dev :=
  if d.life.powered then d
  else
    let d := { d with hw := { d.hw with oscWarm := false, holdup := holdup, phyFault := phy },
                      island := { } }
    let d := d.modLife (fun l => { l with
      powered := true, poweredAt := d.time.now, opBase := d.nvm.opWritten, fromPower := true, inReset := true, cause := 0,
      stuck := false, thermalOff := false, coolCount := 0, rstLow := l.rstLow.map (fun _ => d.time.now) })
    if d.life.rstLow.isSome then d
    else
      d.startUp 0 (some (b1, b2)) diode

/-- HOLDUP_EXHAUSTED: the storage reaches its floor (R511). Everything but MRAM and flash is lost. -/
def Dev.holdupExhausted (d : Dev) : Dev :=
  if d.clasp.feeds = 0 then (d.holdReset 0).modLife (fun l => { l with powered := false, inReset := true }) else d

/-- THERMAL_RESET: 5 ms after a shutdown was decided the module is held in reset (Table 15.3). -/
def Dev.thermalReset (d : Dev) : Dev :=
  match d.health.decided with
  | some t =>
    if 5000000 ≤ d.time.now - t then
      let ok := d.health.restartOk
      (d.holdReset 4).modLife (fun l => { l with thermalOff := true, restartOk := ok, offSince := d.time.now, coolCount := 0 })
    else d
  | none => d

/-- THERMAL_OFF_DIODE_READ, every second (R444). -/
def Dev.thermalOffRead (reading : Option Int) (d : Dev) : Dev :=
  if !(d.life.powered && d.life.thermalOff) then d
  else
    let n := match reading with | some t => if t ≤ 1600 then d.life.coolCount + 1 else 0 | none => 0
    let d := d.modLife (fun l => { l with coolCount := n })
    if 30 ≤ n ∧ d.life.restartOk ∧ d.shutdowns60 < 3 then d.startUp 4 none none else d

/-! ### Unit ready (R493 to R496, R394) -/

/-- The claim-wait of Table 13.14, ns. -/
def Dev.claimWait (d : Dev) : Nat := 1000000 * ((if d.preferred then 100 else 200) + 50 * d.unitId)

/-- UNIT_READY. -/
def Dev.unitReady (d : Dev) : Dev :=
  if !d.runs || d.life.ready || d.life.noImage then d
  else
    let us := d.c / 1000
    let d := d.failedAgain
    let d := d.modLife (fun l => { l with ready := true, readyUs := us, runDue := true })
    let d := { d with health := { d.health with autoFrom := d.time.now } }
    let d := d.modClasp (fun c => { c with waiting := true, beatAt := d.time.now, nsFrames := 0, claimWaitAt := some (d.time.now + d.claimWait) })
    let d := d.raise 0x1101 0 (Bits.le 1 d.life.cause ++ Bits.le 1 d.life.running ++ Bits.le 4 us ++ Bits.le 2 d.nvm.cycles)
    let d := if 285000 < us then d.raise 0x1109 1 (Bits.le 4 us) else d
    let m := d.img d.life.running
    let d := if d.life.trialRun then
        let d := (d.modImg d.life.running (fun x => { x with state := 4 })).modLife (fun l => { l with trialRun := false })
        { d with nvm := { d.nvm with trial := false, trials := 0 } }.raise 0x1106 0
          (Bits.le 1 d.life.running ++ Bits.le 4 m.version)
      else d
    let d := { d with nvm := { d.nvm with floor := if d.nvm.floor < m.level then m.level else d.nvm.floor } }
    d.relays

/-- The RUN fields, CAN_MODE and PORT_EN take effect at the first tick after unit ready (R496). -/
def Dev.runTick (d : Dev) : Dev :=
  if d.life.runDue then d.modLife (fun l => { l with runDue := false, running496 := true }) else d

/-! ### The hardware's events (R514, R522, R523, R529) -/

/-- VIO_OUT. -/
def Dev.vioIsOut (bank mv : Nat) (d : Dev) : Dev :=
  if bank = 0 ∨ 4 < bank ∨ d.hw.vioOut.getLsbD (bank - 1) then d
  else
    let d := { d with hw := { d.hw with
      vioOut := d.hw.vioOut ||| BitVec.ofNat 4 (2 ^ (bank - 1)), vioSince := Bits.setAt d.hw.vioSince (bank - 1) d.time.now } }
    let d := if bank = 4 then d.modLife (fun l => { l with debug := 0 }) else d
    let d := if bank = 3 then d.modLife (fun l => { l with
        rstLow := none, rstHigh := if l.rstHigh.isSome then l.rstHigh else some d.time.now }) else d
    let d := if bank = 3 then { d with hw := { d.hw with gpio := none } } else d
    d.raiseI 0x1201 1 bank (Bits.le 1 bank ++ Bits.le 2 mv)

/-- VIO_RESTORED. -/
def Dev.vioIsBack (bank : Nat) (d : Dev) : Dev :=
  if bank = 0 ∨ 4 < bank ∨ !(d.hw.vioOut.getLsbD (bank - 1)) then d
  else
    let ms := (d.time.now - d.hw.vioSince.getD (bank - 1) 0) / 1000000
    ({ d with hw := { d.hw with vioOut := d.hw.vioOut &&& ~~~ (BitVec.ofNat 4 (2 ^ (bank - 1))) } }).raiseI 0x1202 0 bank
      (Bits.le 1 bank ++ Bits.le 4 ms)

/-- OSC_WARM: the oscillator warms in a reset too, and the event is raised where the module runs. -/
def Dev.oscIsWarm (secs : Nat) (d : Dev) : Dev :=
  if !d.life.powered then d
  else
    let d := { d with hw := { d.hw with oscWarm := true } }
    if d.runs then d.raise 0x1205 0 (Bits.le 4 secs) else d

/-- OSC_FAULT. -/
def Dev.oscFails (kind : Nat) (ppb : Int) (d : Dev) : Dev := d.raise 0x1204 3 (Bits.le 1 kind ++ Bits.leI 4 ppb)

/-- DRAM_ECC_ERROR. -/
def Dev.dramError (addr : Word) (uncorrectable : Bool) (d : Dev) : Dev :=
  if uncorrectable then d.raise 0x1208 4 (Bits.le 4 addr.toNat) else d.raise 0x1207 0 (Bits.le 4 addr.toNat)

/-- GPIO0 to GPIO7 (Table 18.9) as updated at a sub-tick. -/
def Dev.gpioNow (d : Dev) : Option Byte :=
  if !d.life.ready || d.hw.vioOut.getLsbD 2 then none
  else some (BitVec.ofNat 8 (flagBits [true, d.clasp.lease, d.worst == 3 || d.worst == 4,
    d.timeValid && !d.holdover && !d.time.converging, d.health.x != 0, d.clasp.partnerHere,
    decide (d.sinceT0 < 1000000), d.island.state == .run && d.mdClosed 0 && d.mdClosed 1]))

/-- The status outputs follow. -/
def Dev.gpioTick (d : Dev) : Dev := { d with hw := { d.hw with gpio := d.gpioNow } }

/-- A debug access (R489): what the port's level allows. A read answers a free value; a write, a halt and scan reach
what no rule describes (notes/assumptions/32.md). -/
def Dev.debugAccess (a : DebugAccess) (d : Dev) : Dev :=
  match a with
  | .read addr => if d.life.debug = 0 then d else (d.emit (.word (Config.debugWord (addr + d.free)))).fresh
  | .write _ _ => d
  | .halt => d
  | .scan => d

end Sys2Proof.Machine
end

