-- ==== Sys2Proof/Machine/Mirror.lean ====
section
/-! DEFINITION. Machine/Mirror.lean: the state mirror and the resynchronisation of the partner (13 R388 to R392, Tables
13.4 and 13.11 to 13.13, 02 R71, 03 R103, 06 R200, 07 R243). The words of segments 1 and 2 stand in the formats that Uagus
assigns. -/

namespace Sys2Proof.Machine

open Sys2Proof

/-! ### Words -/

/-- The FLOAT32 nearest to v / 2^16, ties to even. -/
def floatOf (v : Int) : Word :=
  if v = 0 then 0
  else
    let m := v.natAbs
    let e := Nat.log2 m
    let s := if e ≤ 23 then m * 2 ^ (23 - e) else (Bits.roundEven (m : Int) (2 ^ (e - 23))).toNat
    let (s, e) := if s = 2 ^ 24 then (2 ^ 23, e + 1) else (s, e)
    BitVec.ofNat 32 ((if v < 0 then 2 ^ 31 else 0) + (e + 111) * 2 ^ 23 + (s - 2 ^ 23))

/-- A FLOAT32 in units of 2^-16; 0 where it is not finite. -/
def ofFloat (w : Word) : Int := match Bits.float32 w with | some (n, k) => Bits.roundEven (65536 * n) k | none => 0

/-- This unit's firmware major version. -/
def Dev.fwMajor (d : Dev) : Nat := (d.img d.life.running).version / 2 ^ 24

/-! ### What a mirror carries -/

/-- The class of a reference that stands in a conflict, and its conflict. -/
def Dev.conflictOf (d : Dev) (r : Nat) : Option Conflict :=
  ((Bits.upTo 4).filterMap (fun c => (d.cls c).conflict)).find? (fun x => x.a == r || x.b == r)

/-- The conflict or readmission timer of a reference, ms. -/
def Dev.refTimer (d : Dev) (r : Nat) : Nat :=
  match d.conflictOf r with
  | some x => (d.time.now - x.since) / 1000000
  | none => match (d.ref r).passSince with | some t => (d.time.now - t) / 1000000 | none => 0

/-- The code of a reference's state (Table 6.6). -/
def refStates : List RefState := [.off, .unavailable, .aligning, .probation, .admitted, .rejected, .conflictUsed, .conflictUnused]

/-- An entry of segment 1. -/
def Dev.refEntry (d : Dev) (r : Nat) : List Byte :=
  let x := d.ref r
  Bits.le 1 (refStates.idxOf x.state) ++ [0] ++ Bits.le 1 x.mult ++ [0] ++ Bits.le 4 (d.refTimer r) ++
    Bits.le 2 (Bits.sat 0xFFFF x.inserted.length) ++ Bits.le 2 (Bits.sat 0xFFFF x.discarded.length) ++
    Bits.leI 4 (Num.toRaw 10 x.align.1) ++ Bits.leI 4 (Num.toRaw 10 x.align.2) ++ Bits.le 4 (x.last.getD 0).toNat

/-- The fraction bits of word i of a mirrored level 3 of l states: the state, D, then U row by row (Table 13.13, R196). -/
def mirrorFmt (l i : Nat) : Nat := fmtBits (if i < l then i else udFmt l (i - l))

/-- The words of level 3. -/
def Dev.level3Words (d : Dev) (l : Nat) : List Int :=
  let c := d.fusion.cur
  (Bits.upTo (2 * l + l * (l - 1) / 2)).map (fun i =>
    Num.toRaw (mirrorFmt l i) (if i < l then c.x.getD i 0 else c.ud.getD (i - l) 0))

/-- Segment 1 FUSION. -/
def Dev.segFusion (d : Dev) : List Byte :=
  let l := d.level3Count
  Bits.le 2 l ++ Bits.le 2 17 ++ Bits.le 1 (flagBits ((Bits.upTo 4).map (fun c => (d.cls c).fallback))) ++ [0, 0, 0] ++
    (d.level3Words l).flatMap (Bits.leI 4) ++ (Bits.upTo 17).flatMap d.refEntry

/-- The variables of one stage as words: six states, the forces (two for an azimuth thruster), the slacks. -/
def Dev.stageWords (d : Dev) (s : Stage) : List Byte :=
  s.state.flatMap (Bits.leI 4) ++
    s.forces.flatMap (fun f => Bits.leI 4 f.fx ++ (if d.thrPar f.thr 0 = 1 then Bits.leI 4 f.fy else [])) ++
    s.slacks.flatMap (fun b => Bits.leI 4 b.2)

/-- Segment 2 SOLUTION: x, z and y of the solution in the formats of Table 7.3, z and y over the m rows of Table 7.1. -/
def Dev.segSolution (d : Dev) : List Byte :=
  match d.solver.prev with
  | none => []
  | some p =>
    let m := d.solver.sol.m
    let rows := fun (l : List (List Int)) (k : Int) => (Bits.upTo p.stages.length).flatMap (fun i =>
      (fitRows m (l.getD i [])).flatMap (fun v => Bits.leI 4 (v / k)))
    p.stages.flatMap d.stageWords ++ rows p.z 1 ++ rows p.y ((2 ^ (d.sPar 0xB - 1) : Nat) : Int)

/-- A target as Table 7.8 lays it out. -/
def Target.bytes (t : Target) : List Byte :=
  Bits.leI 4 (t.north / 1048576) ++ Bits.leI 4 (t.east / 1048576) ++ Bits.leI 4 (t.heading / 1024) ++ Bits.leI 4 t.course ++
    Bits.leI 4 t.speed ++ Bits.le 1 (flagBits [t.posValid, t.hdgValid, t.track]) ++ Bits.zeros 11

/-- Segment 3 COMMAND. -/
def Dev.segCommand (d : Dev) : List Byte :=
  let s := d.solver
  let req := match s.modeReq with | some r => r.mode.code | none => 0xFF
  Bits.le 1 s.mode.code ++ Bits.le 1 req ++ Bits.le 1 (flagBits [d.modeChanging, s.stickOut]) ++ [0] ++ s.wanted.bytes ++
    Bits.leI 4 (s.force.north / 1048576) ++ Bits.leI 4 (s.force.east / 1048576) ++ Bits.leI 4 (s.force.heading / 1024) ++
    Bits.le 8 (d.frame.t0 - s.trackAt) ++ Bits.leI 2 s.stick.1 ++ Bits.leI 2 s.stick.2.1 ++ Bits.leI 2 s.stick.2.2 ++ [0, 0] ++
    Bits.le 4 (Bits.sat 0xFFFFFFFF ((d.time.now - s.joyAt) / 1000000)) ++ Bits.zeros 60

/-- Segment 4 MODEL. -/
def Dev.segModel (d : Dev) : List Byte :=
  (Bits.upTo 8).flatMap (fun i => Bits.le 4 (floatOf (d.solver.refine.values.getD i 0)).toNat)

/-- Segment 5 THRUSTERS. -/
def Dev.segThrusters (d : Dev) : List Byte :=
  (Bits.upTo 24).flatMap (fun j =>
    let t := d.thr j
    Bits.le 1 (Bits.sat 255 t.unconfirmed) ++ Bits.le 1 (Bits.b2n t.unavailable) ++ Bits.le 1 (Bits.sat 255 t.good) ++ [0])

/-- An entry of segment 6 STAGE. -/
def StageMark.bytes (m : StageMark) : List Byte :=
  Bits.le 1 (m.key / 65536) ++ Bits.le 1 (Bits.b2n m.value.isNone) ++ Bits.le 2 (m.key % 65536) ++
    Bits.le 4 (m.value.getD 0).toNat

/-- The staged changes that this mirror carries: at most 1,024 that no earlier one has. -/
def Dev.stageToSend (d : Dev) : List StageMark := (d.cfg.marks.filter (fun m => m.sent.isNone)).take 1024

/-- Context c is UP on the standby as last reported; with no report for 3 frames every context is (R103). -/
def Dev.partnerCtxUp (d : Dev) (c : Nat) : Bool := decide (3 ≤ d.flows.partnerAge) || d.flows.partnerUp.getLsbD c

/-- A marked point is eligible now (R103). -/
def Dev.mirrorEligible (d : Dev) (i : Nat) : Bool :=
  match d.claimant i with
  | some c => decide (d.flowState (d.flow c) = 2) && !(d.partnerCtxUp c)
  | none => d.hostOwned i

/-- The records that this mirror carries. -/
def Dev.imageToSend (d : Dev) : List Nat := (d.image.marks.filter d.mirrorEligible).take 4096

/-- Segment 7 IMAGE. -/
def Dev.segImage (d : Dev) (l : List Nat) : List Byte := l.flatMap (fun i => Bits.le 4 i ++ (d.pt i).bytes)

/-- Segment 0 HEAD with the lengths of segments 1 to 7. -/
def Dev.segHead (d : Dev) (stage image : Nat) (lens : List Nat) : List Byte :=
  let (n, k, m) := match d.solver.prev with | some p => (p.stages.length, d.solver.sol.n, d.solver.sol.m) | none => (0, 0, 0)
  let key := match d.solver.prev with | some p => p.key.toNat | none => 0
  Bits.le 4 d.frame.number ++ Bits.le 8 d.cfg.hallmark.toNat ++ Bits.le 4 key ++ Bits.le 1 9 ++ Bits.le 1 d.fwMajor ++
    Bits.le 1 n ++ Bits.le 1 k ++ Bits.le 2 m ++ Bits.le 2 stage ++ Bits.le 2 image ++ [0, 0] ++
    lens.flatMap (Bits.le 4) ++ Bits.zeros 8

/-- MIRROR_SEND (R388): the nine segments of the frame. -/
def Dev.mirrorSend (d : Dev) : Dev :=
  let d := match d.clasp.partner with
    | some b =>
      if b.mirrorAck = 0xFFFFFFFF then
        d.cfg.staged.foldl (fun x (e : Nat × Word) =>
          if x.cfg.marks.any (fun m => m.key == e.1) then x else x.markStage e.1 (some e.2)) d
      else d
    | none => d
  let st := d.stageToSend
  let im := d.imageToSend
  let bodies := [d.segFusion, d.segSolution, d.segCommand, d.segModel, d.segThrusters, st.flatMap StageMark.bytes, d.segImage im].map Bits.pad4
  let all := d.segHead st.length im.length (bodies.map List.length) :: bodies
  let crc := Bits.le 4 (Bits.crc32c all.flatten).toNat ++ Bits.zeros 60
  let f := d.frame.number
  let d := (all ++ [crc]).zipIdx.foldl (fun (x : Dev) (b : List Byte × Nat) =>
    (laneMessages 3 f b.2 b.1).foldl (fun y m => y.emit (.lane m)) x) d
  let keys := st.map StageMark.key
  { d with
    clasp := { d.clasp with lastMirror := f },
    cfg := { d.cfg with marks := d.cfg.marks.map (fun m => if keys.contains m.key then { m with sent := some f } else m) },
    image := { d.image with marks := d.image.marks.filter (fun i => !(im.contains i)),
                            carried := if im.isEmpty then d.image.carried else d.image.carried ++ [(f, im)] } }

/-- FLOW_STATE of the unit that is not in control (R103, Table 13.2). -/
def Dev.flowStateSend (d : Dev) : Dev :=
  if d.clasp.lease || !d.life.ready then d
  else
    let up := d.flows.ctxs.filter (fun c => Bits.byteAt c.2.payload 0 == 0 && d.flowState c.2 == 2)
    d.emit (.lane (laneMessage 7 d.frame.number 0 0 1 (Bits.le 32 (Bits.bitsOf (up.map Prod.fst)))))

/-! ### Receiving bodies (R380, R389) -/

/-- A part of a body arrives: the body once all its parts are there. -/
def takePart (typ f seg part parts : Nat) (p : List Byte) (l : List Body) : List Body × Option (List Byte) :=
  let is := fun (b : Body) => b.typ == typ && b.frame == f && b.seg == seg
  let b : Body := match l.find? is with | some x => x | none => { typ := typ, frame := f, seg := seg, parts := parts, got := [] }
  if b.got.any (fun g => g.1 == part) || decide (b.parts ≤ part) then (l, none)
  else
    let b := { b with got := Bits.insert part p b.got }
    if b.got.length = b.parts then (Bits.putBy is b l, some (b.got.flatMap Prod.snd)) else (Bits.putBy is b l, none)

/-- A segment of the mirror in arrival. -/
def Dev.seg (d : Dev) (i : Nat) : List Byte := ((d.clasp.segs.find? (fun s => s.1 == i)).map Prod.snd).getD []

/-- The mirror in arrival is complete: nine segments of this unit's own frame k, of this firmware's major version, under the END
CRC (R389). -/
def Dev.mirrorWhole (d : Dev) : Bool :=
  Bits.at' (d.seg 0) 0 4 == d.frame.number &&
  (Bits.upTo 9).all (fun i => d.clasp.segs.any (fun s => s.1 == i)) &&
    Bits.byteAt (d.seg 0) 17 == d.fwMajor &&
    Bits.crc32c ((Bits.upTo 8).flatMap d.seg) == Bits.wordAt (d.seg 8) 0

/-- MIRROR_SEGMENT_RECEIVED (R377, R380, R389): while the mirror is open, on a unit that is not in control. -/
def Dev.mirrorReceived (bs : List Byte) (d : Dev) : Dev :=
  match laneOf bs with
  | some (3, f, seg, part, parts, p) =>
    if d.clasp.role.inControl || !d.clasp.mirrorOpen || 8 < seg then d
    else
      let d := if d.clasp.bodies.any (fun b => b.typ == 3 && b.frame != f) then
          d.modClasp (fun c => { c with bodies := c.bodies.filter (fun b => b.typ == 6), segs := [] }) else d
      let (l, body) := takePart 3 f seg part parts p d.clasp.bodies
      let d := d.modClasp (fun c => { c with bodies := l })
      match body with
      | none => d
      | some b =>
        let d := d.modClasp (fun c => { c with segs := c.segs ++ [(seg, b)] })
        if d.mirrorWhole then
          let h := d.seg 0
          let own := Bits.at' h 4 8 == d.cfg.hallmark.toNat
          d.modClasp (fun c => { c with mirror := some c.segs, mirrorDone := true, mirrorMatch := own, mirrorOpen := false })
        else d
  | some _ => d
  | none => d.laneError bs

/-- MIRROR_ABORTED at t0+19.6 ms: what is incomplete is discarded whole (R389). -/
def Dev.mirrorAbort (d : Dev) : Dev :=
  d.modClasp (fun c => { c with mirrorOpen := false, segs := [], bodies := c.bodies.filter (fun b => b.typ == 6) })

/-! ### Applying a mirror at t0 (R389, R200, R243) -/

/-- A segment of the mirror that is applied. -/
def segOf (m : List (Nat × List Byte)) (i : Nat) : List Byte := ((m.find? (fun s => s.1 == i)).map Prod.snd).getD []

/-- An entry of segment 1 is taken for a reference; the entry of the internal GNSS reference serves as position and, outside a
conflict, as heading (DEDUCED: notes/assumptions/94.md). -/
def Dev.takeRef (r : Nat) (e : List Byte) (d : Dev) : Dev :=
  let st := (refStates[Bits.byteAt e 0]?).getD .off
  let st := if r = 17 ∧ (st = .conflictUsed ∨ st = .conflictUnused) then .admitted else st
  let since := d.time.now - 1000000 * Bits.at' e 4 4
  d.modRef r (fun x => { x with
    state := st, mult := Bits.byteAt e 2,
    passSince := if st = .rejected ∨ st = .probation then (if Bits.at' e 4 4 = 0 then none else some since) else x.passSince,
    inserted := List.replicate (Bits.at' e 8 2) d.time.now, discarded := List.replicate (Bits.at' e 10 2) d.time.now,
    align := (Num.ofRaw 10 (Bits.atI e 12 4), Num.ofRaw 10 (Bits.atI e 16 4)),
    aligned := x.aligned || st == .probation || st == .admitted, last := some (Bits.wordAt e 20) })

/-- The conflict of a class as the mirrored states and timers show it; a heading slot without a partner among the slots is in
conflict with the internal GNSS reference. -/
def Dev.takeConflict (timer : Nat → Nat) (d : Dev) (c : Nat) : Dev :=
  let inOne := fun (z : Dev) (r : Nat) => (z.ref r).state == RefState.conflictUsed || (z.ref r).state == RefState.conflictUnused
  let d := match c, (d.members c).filter (inOne d) with
    | 1, [a] => d.modRef 17 (fun (x : Ref) => { x with state := if (d.ref a).state = RefState.conflictUsed then .conflictUnused else .conflictUsed })
    | _, _ => d
  match (d.members c).filter (inOne d) with
  | [a, b] =>
    let ms := timer a
    let old := (d.cls c).conflict
    let agree := match old with | some k => if k.a = a ∧ k.b = b then k.agreeSince else none | none => none
    d.modCls c (fun x => { x with conflict := some {
      used := [a, b].find? (fun r => (d.ref r).state == RefState.conflictUsed), a := a, b := b, since := d.time.now - 1000000 * ms,
      agreeSince := agree, expired := decide (1000 * d.fPar 0xA ≤ ms) } })
  | _ => d.modCls c (fun x => { x with conflict := none })

/-- The normalised difference of this unit's position from the mirrored one, by the sum of their covariances (DESIGN CHOICE:
notes/assumptions/94.md); 060Eh above CHI_POS (R200). -/
def Dev.divergence (new : Level3) (d : Dev) : Dev :=
  let a := d.fusion.cur.work
  let b := new.work
  let block := fun (m : Num.Mat) => (m.take 2).map (fun r => r.take 2)
  let q := Num.quad (Num.addM (block a.p) (block b.p)) (Num.subV (a.x.take 2) (b.x.take 2))
  if d.fusion.initialised && !d.passes 0 q then d.raise 0x060E 0 (times100 q) else d

/-- The levels 2 and 3 of the partner replace this unit's: `f` is the frame of the mirror (R200). -/
def Dev.takeFusion (f : Nat) (b : List Byte) (d : Dev) : Dev :=
  if !d.fusion.running then d
  else
    let l := Bits.at' b 0 2
    let n := 2 * l + l * (l - 1) / 2
    let num := fun (i : Nat) => Num.ofRaw (mirrorFmt l i) (Bits.atI b (8 + 4 * i) 4)
    let ot := if d.fusion.outFrame = f then d.fusion.outTime else 20000000 * f + 4000000
    let new : Level3 := { stamp := BitVec.ofNat 32 ot, x := (Bits.upTo l).map num, ud := (List.range' l (n - l)).map num }
    let d := d.divergence new
    let d := d.modFusion (fun x => { x with
      cur := new, mirrored := true, initialised := true,
      classes := x.classes.zipIdx.map (fun (c : RefClass × Nat) => { c.1 with fallback := (Bits.byteAt b 4).testBit c.2 }) })
    let entry := fun (r : Nat) => (b.drop (8 + 4 * n + 24 * Nat.min r 16)).take 24
    let d := (Bits.upTo 18).foldl (fun x r => x.takeRef r (entry r)) d
    (Bits.upTo 4).foldl (Dev.takeConflict (fun r => Bits.at' (entry r) 4 4)) d

/-- One stage of segment 2: six states, then the forces of the thrusters and the slacks of the sections. -/
def Dev.stageFrom (d : Dev) (b : List Byte) (o : Nat) (ts bs : List Nat) : Stage :=
  let fs := ts.foldl (fun (a : List Force × Nat) j =>
    if d.thrPar j 0 = 1 then (a.1 ++ [{ thr := j, fx := Bits.atI b a.2 4, fy := Bits.atI b (a.2 + 4) 4 }], a.2 + 8)
    else (a.1 ++ [{ thr := j, fx := Bits.atI b a.2 4 }], a.2 + 4)) ([], o + 24)
  { forces := fs.1, slacks := bs.zipIdx.map (fun (x : Nat × Nat) => (x.1, Bits.atI b (fs.2 + 4 * x.2) 4)),
    state := (Bits.upTo 6).map (fun i => Bits.atI b (o + 4 * i) 4) }

/-- The thrusters of a mirrored solution, which the mirror does not name: this unit's own set where it has the same key,
else those present that segment 5 does not mark unavailable (DEDUCED: notes/assumptions/92.md). -/
def Dev.mirroredSet (d : Dev) (key : Word) (th : List Byte) : List Nat :=
  if d.structKey d.solveSet = key then d.solveSet else d.thrsPresent.filter (fun j => Bits.byteAt th (4 * j + 1) == 0)

/-- The partner's solution becomes the previous solution, key included (R243). -/
def Dev.takeSolution (m : List (Nat × List Byte)) (d : Dev) : Dev :=
  let h := segOf m 0
  let b := segOf m 2
  let n := Bits.byteAt h 18
  let k := Bits.byteAt h 19
  let rows := Bits.at' h 20 2
  let ts := d.mirroredSet (Bits.wordAt h 12) (segOf m 5)
  let bs := d.sectsOf ts
  let lists := fun (o : Nat) (f : Int) => (Bits.upTo n).map (fun i => (Bits.upTo rows).map (fun r => f * Bits.atI b (o + 4 * (rows * i + r)) 4))
  if n = 0 then d.modSolver (fun s => { s with prev := none, mirrored := true })
  else
    let p : Plan := { key := Bits.wordAt h 12, thrusters := BitVec.ofNat 24 (Bits.bitsOf ts), sections := BitVec.ofNat 8 (Bits.bitsOf bs),
                      stages := (Bits.upTo n).map (fun i => d.stageFrom b (4 * k * i) ts bs),
                      z := lists (4 * n * k) 1, y := lists (4 * n * (k + rows)) ((2 ^ (d.sPar 0xB - 1) : Nat) : Int) }
    d.modSolver (fun s => { s with prev := some p, mirrored := true })

/-- A target from Table 7.8. -/
def targetOf (b : List Byte) (o : Nat) : Target :=
  let f := Bits.byteAt b (o + 20)
  { north := Bits.atI b o 4 * 1048576, east := Bits.atI b (o + 4) 4 * 1048576, heading := Bits.atI b (o + 8) 4 * 1024,
    course := Bits.atI b (o + 12) 4, speed := Bits.atI b (o + 16) 4, posValid := f.testBit 0, hdgValid := f.testBit 1,
    track := f.testBit 2 }

/-- The DP mode of a unit that is not in control changes without a request. -/
def Dev.followMode (m : Mode) (d : Dev) : Dev :=
  if m = d.solver.mode then d else { d with solver := { d.solver with modeReq := none } }.modeInForce m

/-- Mode, targets and stick of the partner (R243). -/
def Dev.takeCommand (b : List Byte) (d : Dev) : Dev :=
  let d := d.followMode ((modeOf (Bits.byteAt b 0)).getD .idle)
  let w := targetOf b 4
  d.modSolver (fun s => { s with
    stickOut := (Bits.byteAt b 2).testBit 1, wanted := w, staged := none,
    force := { w with north := Bits.atI b 36 4 * 1048576, east := Bits.atI b 40 4 * 1048576, heading := Bits.atI b 44 4 * 1024 },
    trackAt := d.frame.t0 - Bits.at' b 48 8,
    stick := (Bits.atI b 56 2, Bits.atI b 58 2, Bits.atI b 60 2), stickNext := none,
    joyAt := d.time.now - 1000000 * Bits.at' b 64 4 })

/-- The refined model (R241). -/
def Dev.takeModel (b : List Byte) (d : Dev) : Dev :=
  d.modSolver (fun s => { s with refine := { s.refine with
    values := (Bits.upTo 8).map (fun i => ofFloat (Bits.wordAt b (4 * i))), next := none } })

/-- The unconfirmed counts and marks (R76). -/
def Dev.takeThrusters (b : List Byte) (d : Dev) : Dev :=
  (Bits.upTo 24).foldl (fun x j => x.modThr j (fun t => { t with
    unconfirmed := Bits.byteAt b (4 * j), unavailable := Bits.byteAt b (4 * j + 1) == 1, good := Bits.byteAt b (4 * j + 2) })) d

/-- The staged changes of the partner (R71). -/
def Dev.takeStage (n : Nat) (b : List Byte) (d : Dev) : Dev :=
  { d with cfg := { d.cfg with mirrored := (Bits.upTo n).foldl (fun m i =>
      let k := key (Bits.byteAt b (8 * i)) (Bits.at' b (8 * i + 2) 2)
      if Bits.byteAt b (8 * i + 1) = 1 then Bits.erase k m else Bits.insert k (Bits.wordAt b (8 * i + 4)) m) d.cfg.mirrored } }

/-- The image records of the partner, over points that this unit lets them (R103), under SOURCE kind 4h (Table 3.4). -/
def Dev.takeImage (n : Nat) (b : List Byte) (d : Dev) : Dev :=
  (Bits.upTo n).foldl (fun x i =>
    let idx := Bits.at' b (20 * i) 4
    let p := pointOf ((b.drop (20 * i + 4)).take 16)
    let may := match x.claimant idx with | some c => x.flowState (x.flow c) != 2 | none => x.hostOwned idx
    let src := if p = {} then p.source
      else BitVec.ofNat 16 (0x4000 + p.source.toNat / 4096 * 256 + p.source.toNat % 256)
    if may then x.setPt idx { p with source := src } else x) d

/-- MIRROR_APPLY at t0 of the next frame. Fusion, solution and command are a STANDBY's. -/
def Dev.mirrorApply (d : Dev) : Dev :=
  let d := d.modSolver (fun s => { s with mirrored := false })
  let d := d.modFusion (fun x => { x with mirrored := false })
  match d.clasp.mirror with
  | none => d
  | some m =>
    let h := segOf m 0
    let d := d.modClasp (fun c => { c with mirror := none, lastMirror := Bits.at' h 0 4, mirrorAck := Bits.at' h 0 4 })
    if d.clasp.role.inControl then d
    else
      let d := if d.clasp.role = .standby then
          (((d.takeFusion (Bits.at' h 0 4) (segOf m 1)).takeSolution m).takeCommand (segOf m 3)) else d
      ((((d.takeModel (segOf m 4)).takeThrusters (segOf m 5)).takeStage (Bits.at' h 22 2) (segOf m 6)).takeImage
        (Bits.at' h 24 2) (segOf m 7))

/-! ### Resynchronisation (R392) -/

/-- The open flow contexts as CONFIG_IMAGE carries them. -/
def Dev.flowsBody (d : Dev) : List Byte :=
  (d.flows.ctxs.filter (fun c => c.2.state != 0)).flatMap (fun c =>
    Bits.pad4 (Bits.le 1 c.1 ++ Bits.le 1 (Bits.byteAt c.2.payload 32) ++ Bits.le 2 c.2.payload.length ++ c.2.payload))

/-- The image of the configuration: its three bodies (Table 13.12). -/
def Dev.configImage (d : Dev) : List (List Byte) :=
  let c := canonical (fun t p => d.par t p)
  [Bits.le 4 (c.length / 7) ++ c, d.flowsBody, d.segModel]

/-- The partner shows a cause that starts a resynchronisation. -/
def Dev.partnerNeedsImage (d : Dev) : Bool :=
  d.clasp.role.inControl && d.clasp.partnerHere && d.parB 0x28 6 &&
    (match d.clasp.partner with | some b => b.nsCause == 1 || b.nsCause == 2 || b.nsCause == 5 | none => false)

/-- The unit in control starts to send the image, at most once every 10 s. -/
def Dev.imageStart (d : Dev) : Dev :=
  if d.partnerNeedsImage && d.clasp.imageOut.isEmpty &&
      (d.clasp.resync == 0 || decide (10000000000 ≤ d.time.now - d.clasp.resyncAt)) then
    let f := d.frame.number
    let ms := d.configImage.zipIdx.flatMap (fun (b : List Byte × Nat) => laneMessages 6 f b.2 b.1)
    d.modClasp (fun c => { c with imageOut := ms, resync := 4, resyncAt := d.time.now })
  else if d.clasp.role.inControl && !d.partnerNeedsImage && d.clasp.resync != 0 then
    d.modClasp (fun c => { c with resync := 0, imageOut := [] })
  else d

/-- What fits into one frame: up to 512 KiB (R392). -/
def fitImage (room : Nat) : List (List Byte) → List (List Byte) × List (List Byte)
  | [] => ([], [])
  | m :: ms => if m.length ≤ room then let r := fitImage (room - m.length) ms; (m :: r.1, r.2) else ([], m :: ms)

/-- CONFIG_IMAGE messages of this frame's tail slot. -/
def Dev.imageSend (d : Dev) : Dev :=
  let d := d.imageStart
  if d.clasp.lease then
    let r := fitImage 524288 d.clasp.imageOut
    (r.1.foldl (fun x m => x.emit (.lane m)) d).modClasp (fun c => { c with imageOut := r.2 })
  else d

/-- The contexts of a flow body. -/
def flowsOf : Nat → List Byte → List (Nat × List Byte)
  | 0, _ => []
  | fuel + 1, b =>
    if b.length < 4 then []
    else
      let n := Bits.at' b 2 2
      if n = 0 then []
      else (Bits.byteAt b 0, (b.drop 4).take n) :: flowsOf fuel (b.drop ((4 + n + 3) / 4 * 4))

/-- CONFIG_IMAGE_RECEIVED: with the whole image there, it is applied in two commits from the next tick. -/
def Dev.imageReceived (bs : List Byte) (d : Dev) : Dev :=
  match laneOf bs with
  | some (6, f, seg, part, parts, p) =>
    if d.clasp.role.inControl || 2 < seg then d
    else
      let d := if d.clasp.bodies.any (fun b => b.typ == 6 && b.frame != f) then
          d.modClasp (fun c => { c with bodies := c.bodies.filter (fun b => b.typ != 6), image := [] }) else d
      let (l, body) := takePart 6 f seg part parts p d.clasp.bodies
      let d := d.modClasp (fun c => { c with bodies := l })
      match body with
      | none => d
      | some b =>
        let im := Bits.insert seg b d.clasp.image
        if im.length = 3 then
          let fl := flowsOf 256 (segOf im 1)
          let own := (d.flows.ctxs.filter (fun c => c.2.state != 0)).map (fun c => (c.1, c.2.payload))
          d.modClasp (fun c => { c with image := im, resync := 1, bodies := c.bodies.filter (fun b => b.typ != 6),
                                        causes := if fl = own then c.causes else c.causes ||| 0x20 })
        else d.modClasp (fun c => { c with image := im })
  | some _ => d
  | none => d.laneError bs

/-- The fields of the image that differ from the committed ones. S fields are never written. -/
def Dev.imageDiff (d : Dev) : SMap Word :=
  let b := segOf d.clasp.image 0
  (Bits.upTo (Bits.at' b 0 4)).foldl (fun m i =>
    let o := 4 + 7 * i
    let t := Bits.byteAt b o
    let p := Bits.at' b (o + 1) 2
    let v := Bits.wordAt b (o + 3)
    match Params.fieldOf t p with
    | some f => if (f.cls = .live ∨ f.cls = .quiesce) ∧ d.par t p ≠ v then Bits.insert (key t p) v m else m
    | none => m) []

/-- The field that stops the block of a locked Q field; none where no field does. -/
def stopField (k : Nat) : Option Nat :=
  let t := k / 65536
  let p := k % 65536
  if t = 2 ∨ t = 4 ∨ t = 5 then some (key 4 1)
  else if t = 8 then some (key 8 1)
  else if t = 0x18 then some (key 0x18 1)
  else if t = 0x20 then some (key 0x20 (if p = 0x40 then 0x30 else 0x20 + 8 * ((p - 0x20) / 8)))
  else if t = 0x24 then some (key 0x24 (0x20 + 0x20 * ((p - 0x20) / 0x20)))
  else none

/-- The two commits of a resynchronisation, one a tick (R392). -/
def Dev.resyncTick (d : Dev) : Dev :=
  if d.clasp.role.inControl then d
  else if d.clasp.resync = 1 then
    let stops := (d.lockedOff d.imageDiff none).filterMap stopField
    let set : SMap Word := stops.foldl (fun m k => Bits.insert k 0 m) []
    let set := if set.any (fun e => e.1 == key 0x20 0x30) then Bits.insert (key 0x20 0x38) 0 set else set
    let d := d.modClasp (fun c => { c with resync := 2 })
    if set.isEmpty then d else d.applySet set (hallmarkOf (d.view set))
  else if d.clasp.resync = 2 then
    let set := d.imageDiff
    match d.validate set none 0 with
    | .bad st _ _ => (d.modClasp (fun c => { c with resync := 3, resyncAt := d.time.now })).raise 0x0D13 1 (Bits.le 2 st.toNat)
    | .good h =>
      let fl := flowsOf 256 (segOf d.clasp.image 1)
      let d := d.applySet set h
      let d := (d.flows.ctxs.map Prod.fst).foldl (fun (x : Dev) c =>
        if fl.any (fun e => e.1 == c && e.2 == (x.flow c).payload) then x else x.flowCloseAt c) d
      let d := fl.foldl (fun (x : Dev) (e : Nat × List Byte) =>
        if (x.flow e.1).state != 0 then x
        else match x.flowCheck [] e.2 with
          | some (o, load) => if load then x.flowRefused e.1 o else x
          | none => x.flowOpenAt e.1 e.2) d
      (d.takeModel (segOf d.clasp.image 2)).modClasp (fun c => { c with
        resync := 0, image := [], causes := c.causes &&& ~~~ (0x20 : BitVec 16) })
  else d

/-- RESYNC_RETRY: a failed resynchronisation is tried again every 10 s. -/
def Dev.resyncRetry (d : Dev) : Dev :=
  if 10000000000 ≤ d.time.now - d.clasp.resyncAt then
    if d.clasp.role.inControl then d
    else if d.clasp.resync = 3 then d.modClasp (fun c => { c with resync := 1 }) else d
  else d

end Sys2Proof.Machine
end

