-- ==== Sys2Proof/Machine/Request.lean ====
section
/-! DEFINITION. Machine/Request.lean: the supervisor's side of the command channel: the checks of Table 2.4, the start of
requests in order, their operations by opcode (Table 2.8), their completion and their limits (02 R42 to R60). -/

namespace Sys2Proof.Machine

open Sys2Proof

/-! ### Opcodes (Table 2.8) -/

/-- The opcodes of Table 2.8. -/
def opcodes : List Nat :=
  [0x00, 0x01, 0x02, 0x10, 0x11, 0x12, 0x13, 0x14, 0x20, 0x21, 0x22, 0x28, 0x29, 0x2A, 0x30, 0x31, 0x32, 0x38, 0x40, 0x41,
   0x48, 0x50, 0x51, 0x58, 0x59, 0x60, 0x61, 0x62, 0x68, 0x69, 0x6A, 0x70, 0x71, 0x78, 0x80, 0x81, 0x88, 0x90, 0x91, 0xA0,
   0xA1, 0xF0, 0xF1]

/-- The opcodes a RETIRED module serves (R484). -/
def retiredOps : List Nat := [0x00, 0x01, 0x02, 0x10, 0x14, 0x20, 0x48, 0x70, 0x78, 0x80, 0x88, 0x91, 0xA0]

/-- The opcodes the boot ROM serves where no image is valid (R493). -/
def bootOps : List Nat := [0x00, 0x01, 0xA0, 0xF0, 0xF1]

/-- The opcodes whose TARGET is 0 in Table 2.8; any other value is out of range (notes/assumptions/52.md). -/
def zeroTargetOps : List Nat := [0x01, 0x02, 0x14, 0x31, 0x32, 0x48, 0x60, 0x70, 0x71, 0x78, 0x88, 0xA0]

/-- The opcodes that carry no payload. -/
def bareOps : List Nat :=
  [0x01, 0x02, 0x10, 0x13, 0x14, 0x20, 0x29, 0x2A, 0x30, 0x38, 0x40, 0x48, 0x50, 0x51, 0x60, 0x69, 0x6A, 0x70, 0x71, 0x78,
   0x88, 0x90, 0x91, 0xA0, 0xF1]

/-- Whole and padded length of a payload with n data bytes behind a head. -/
def padded (head n : Nat) : Nat := head + (n + 3) / 4 * 4

/-- The payload length that an opcode asks for (Table 2.4 step 5); none where any length is good. -/
def lenWant (op : Nat) (r : Req) : Option Nat :=
  if bareOps.contains op then some 0
  else if op = 0x11 then some (4 * (fieldAddr r.target).count)
  else if op = 0x12 then some (if r.len = 0 then 0 else 8)
  else if op = 0x21 then some (if r.len < 16 then 16 else r.len / 16 * 16)
  else if op = 0x22 then (if r.target.getLsbD 31 then none else some 16)
  else if op = 0x28 then some (if r.len < 36 then 36 else 36 + 8 * Bits.byteAt r.payload 33)
  else if op = 0x31 ∨ op = 0x58 then some 32
  else if op = 0x32 ∨ op = 0x61 ∨ op = 0x81 then some 8
  else if op = 0x59 ∨ op = 0x80 then some 4
  else if op = 0xA1 then some 96
  else if op = 0x41 then
    (if r.len < 4 then some 4 else some (padded 4 (Bits.at' r.payload 0 4)))
  else if op = 0x62 then
    (if r.len < 8 then some 8 else if 1514 < Bits.at' r.payload 4 2 then none else some (padded 8 (Bits.at' r.payload 4 2)))
  else if op = 0x68 then
    (if r.len < 8 then some 8 else if 64 < Bits.byteAt r.payload 4 then none else some (padded 8 (Bits.byteAt r.payload 4)))
  else none

/-! ### The checks of Table 2.4 -/

/-- Event 0201h (R43). -/
def Dev.packetEvent (src : Source) (status : Half) (d : Dev) : Dev :=
  d.raise 0x0201 0 (Bits.le 1 (trCode src.tr) ++ Bits.le 2 status.toNat)

/-- A failure before step 4: a REJECT reply, and the tag is not taken (R43). -/
def Dev.rejectPacket (op : Byte) (q : Req) (status : Half) (rarg : Nat) (d : Dev) : Dev :=
  (d.packetEvent q.src status).answer op q rReject status (BitVec.ofNat 16 rarg) []

/-- Steps 4 to 6: reserved bits, opcode, length, payload CRC. `size` is the size the header implies where the datagram has
another (R55). -/
def Dev.packetFault (op : Byte) (q : Req) (len : Nat) (size : Option Nat) (payOk : Bool) (d : Dev) : Option (Half × Nat) :=
  if !q.reservedOk then some (stBadOpcode, 1)
  else if d.life.noImage && !(bootOps.contains op.toNat) then some (stBadOpcode, 3)
  else if !(opcodes.contains op.toNat) then some (stBadOpcode, 0)
  else if len % 4 != 0 || decide (maxPayload q.src.tr < len) then some (stBadLength, maxPayload q.src.tr)
  else match size with
    | some n => some (stBadLength, n)
    | none =>
      match lenWant op.toNat q with
      | some n => if n != len then some (stBadLength, Nat.min n (maxPayload q.src.tr)) else if !payOk then some (stBadCrc, 1) else none
      | none => if !payOk then some (stBadCrc, 1) else none

/-- A failure at steps 4 to 6: a final reply releases the tag (R43). The CRCs are those the packet came with (R55). -/
def Dev.failPacket (op : Byte) (q : Req) (crcs : Word × Word) (status : Half) (rarg : Nat) (d : Dev) : Dev :=
  let d := d.packetEvent q.src status
  let f : Fin := { status := status, rarg := BitVec.ofNat 16 rarg }
  let x : Pend := { op := op, req := q, started := true, done := some f, replied := true }
  let d := { d with cmd := { d.cmd with tags := d.cmd.tags ++ [x] } }
  d.queueReply { src := q.src, bytes := replyBytes op q.tag rFinal status (BitVec.ofNat 16 rarg) [],
                 final := true, op := op, tag := q.tag, hcrc := crcs.1, pcrc := crcs.2 }

/-- A request for the staging set has come from its owner, whatever its answer will be: STAGE_TIMEOUT starts again (R64). -/
def Dev.stageHeard (op : Byte) (q : Req) (d : Dev) : Dev :=
  if [0x11, 0x12, 0x13].contains op.toNat || (op.toNat == 0x10 && q.stagedView) then d.touchStage q.src else d

/-- Steps 3 to 6 (Table 2.4): the request enters the command queue and takes its tag, or is answered. -/
def Dev.intake (op : Byte) (q : Req) (len : Nat) (size : Option Nat) (payOk : Bool) (crcs : Word × Word) (d : Dev) : Dev :=
  if queueDepth 0 ≤ (d.q 0).held then
    let (_, d, ev) := d.qPush 0
    (d.raiseQ ev).rejectPacket op q stBusy 0
  else if (d.pend q.tag).isSome then d.rejectPacket op q stTagInUse 0
  else match d.packetFault op q len size payOk with
    | some (st, rarg) => (d.stageHeard op q).failPacket op q crcs st rarg
    | none =>
      let (_, d, ev) := (d.stageHeard op q).qPush 0
      let d := d.raiseQ ev
      let x : Pend := { op := op, req := q }
      { d with cmd := { d.cmd with tags := d.cmd.tags ++ [x] } }

/-- Steps 1 and 2 on a packet as received, then the others (Table 2.4). -/
def Dev.packetIn (src : Source) (size : Option Nat) (p : Packet) (d : Dev) : Dev :=
  let fits := decide (p.len ≤ maxPayload src.tr)
  let whole : Packet := if fits then p else { p with len := 0 }
  let q := whole.req src
  if !p.crcOk then d.rejectPacket p.op q stBadCrc 0
  else if p.version != 0xA5 then d.rejectPacket p.op q stBadOpcode 2
  else d.intake p.op q p.len size (!fits || p.payloadOk) (p.hcrc, p.pcrc)

/-! ### INFO_READ and STATUS_READ (R60) -/

/-- PART: the ordering code in ASCII, padded with 00h (Table 0.2, Table 2.10). -/
def orderingCode : List Byte :=
  [0x49, 0x42, 0x54, 0x2D, 0x35, 0x31, 0x32, 0x30, 0x2D, if Config.wide then 0x57 else 0x53] ++ Bits.zeros 6

/-- Table 2.10. -/
def Dev.infoBytes (d : Dev) : List Byte :=
  orderingCode ++ d.serial ++ Bits.le 4 (d.img d.life.running).version ++ Bits.le 1 d.life.running ++
    Bits.le 1 d.antCount ++ Bits.le 2 1 ++ Bits.le 2 16384 ++ Bits.le 2 1400 ++ Bits.zeros 4

/-- The sticky overrun bits of the queues. -/
def Dev.overrunBits (d : Dev) : Nat := Bits.bitsOf ((Bits.upTo 60).filter (fun i => (d.q i).overrun))

/-- Table 2.11. -/
def Dev.statusBytes (d : Dev) : List Byte :=
  Bits.le 4 d.frame.number ++ Bits.le 1 d.clasp.role.code ++ Bits.le 1 d.solver.mode.code ++ Bits.le 1 d.life.state.code ++
    Bits.le 1 d.worst ++ Bits.le 8 d.overrunBits ++ Bits.le 1 d.timeFlags ++ Bits.le 1 d.syncByte ++ Bits.le 1 d.health.x ++
    Bits.le 1 (64 - (d.q 0).held) ++ Bits.le 8 d.cfg.hallmark.toNat ++ Bits.le 4 d.cfg.lastCommit

/-- STATUS_READ clears the overrun bits (R33). -/
def Dev.clearOverruns (d : Dev) : Dev :=
  { d with cmd := { d.cmd with queues := Bits.mapV (fun _ => ({} : QCtl)) (fun c => { c with overrun := false }) d.cmd.queues } }

/-! ### TIME_STEP (R332) -/

/-- A TIME_STEP that comes now cannot reach the next tick (R332, R18). -/
def Dev.tickClosed (d : Dev) : Bool := decide (d.frame.nextTick ≤ d.dev + 400000)

/-- TIME_STEP. -/
def Dev.timeStepOp (tag : BitVec 6) (r : Req) (d : Dev) : OpRes :=
  let byTheta := Bits.at' r.payload 0 8 == 2 ^ 63
  let step := Bits.atI r.payload 0 8
  if byTheta && d.time.source == 0 then refuse d stRange
  else if !byTheta && decide ((d.dev : Int) + step < 0) then refuse d stRange
  else
    let first := (d.frame.nextTick / 20000000 + Bits.b2n d.tickClosed) % 2 ^ 32
    let behind := decide (Bits.diff32 r.tgt first < 0)
    let s : StepReq := {
      tag := tag, step := if byTheta then none else some step, frame := r.tgt, next := r.nextTick, closed := d.tickClosed,
      asap := behind, limit := ((if r.nextTick || behind then first else r.tgt) + 2) % 2 ^ 32 }
    deferred { d with time := { d.time with steps := d.time.steps ++ [s] } } none

/-! ### The operations by opcode -/

/-- An operation with no use of its target but zero. -/
def Dev.runData (op : Nat) (r : Req) (d : Dev) : OpRes :=
  if op = 0x00 then { dev := d, ans := .fin { status := stOk, rarg := BitVec.ofNat 16 r.tgt, payload := r.payload } }
  else if op = 0x01 then reads d d.infoBytes
  else if op = 0x02 then reads d.clearOverruns d.statusBytes
  else if op = 0x48 then d.stateReadOp
  else if op = 0x60 then reads d d.timeRecord
  else if op = 0x70 then reads d d.roleRecord
  else if op = 0x88 then reads d d.health.record
  else reads d d.lifecycleBytes

/-- SOLVER_READ and SOLUTION_READ (Table 2.8): slot 0 is the main solve, slot g a what-if. -/
def Dev.solverReadOp (record : Bool) (r : Req) (d : Dev) : OpRes :=
  if 63 < r.tgt then refuse d stRange
  else
    let x := if r.tgt = 0 then d.solver.sol else (d.group r.tgt).sol
    reads d (if record then x.bytes else x.status (if r.tgt = 0 then d.solver.shifted else 0))

/-- SIGNAL_READ, whose reply must fit the transport (R57). -/
def Dev.signalReadFit (r : Req) (d : Dev) : OpRes :=
  let n := r.tgt / 2 ^ 17 % 1024 + 1
  if maxPayload r.src.tr < 16 * n then refuse d stBadLength (maxPayload r.src.tr / 16 * 16) else d.signalReadOp r

/-- The operation of a request that has passed the checks of Table 2.4 up to step 7. -/
def Dev.runOp (op : Nat) (r : Req) (d : Dev) : OpRes :=
  let tag := r.tag
  if zeroTargetOps.contains op && r.tgt != 0 then refuse d stRange
  else if op = 0x10 then d.paramReadOp r
  else if op = 0x11 then d.paramStageOp r
  else if op = 0x12 then d.paramCommitOp tag r
  else if op = 0x13 then d.paramDiscardOp r
  else if op = 0x14 then d.hallmarkReadOp r
  else if op = 0x20 then d.signalReadFit r
  else if op = 0x21 then d.signalWriteOp r
  else if op = 0x22 then d.signalNotifyOp tag r
  else if op = 0x28 then d.flowOpenOp tag r
  else if op = 0x29 then d.flowCloseOp tag r
  else if op = 0x2A then d.flowStatusOp r
  else if op = 0x30 then d.modeSetOp tag r
  else if op = 0x31 then d.targetSetOp r
  else if op = 0x32 then d.joystickOp r
  else if op = 0x38 then d.conseqReadOp r
  else if op = 0x40 then d.gnssRawOp r
  else if op = 0x41 then d.corrFeedOp r
  else if op = 0x50 then d.solverReadOp false r
  else if op = 0x51 then d.solverReadOp true r
  else if op = 0x58 then d.traceArmOp tag r
  else if op = 0x59 then d.traceReadOp r
  else if op = 0x61 then d.timeStepOp tag r
  else if op = 0x62 then d.frameLaunchOp tag r
  else if op = 0x68 then d.canSendOp tag r
  else if op = 0x69 then d.canFetchOp r
  else if op = 0x6A then d.canRecoverOp tag r
  else if op = 0x71 then d.roleReleaseOp tag
  else if op = 0x78 then d.safetyReadOp r
  else if op = 0x80 then d.eventReadOp r
  else if op = 0x81 then (if r.tgt = 0x10FF then d.eventEraseOp (d.island.bezel.getLsbD 22) r else d.eventMarkOp r)
  else if op = 0x90 then d.selftestRunOp tag r
  else if op = 0x91 then d.selftestResultOp r
  else if op = 0xA1 then d.lifecycleAdvanceOp tag r
  else if op = 0xF0 then d.fwStageOp tag r
  else if op = 0xF1 then d.fwActivateOp tag r
  else d.runData op r

/-- The roles that an opcode asks for (Table 2.8). -/
def roleAllows (op : Nat) (role : Role) : Bool :=
  if op = 0x30 ∨ op = 0x31 ∨ op = 0x32 then role.inControl
  else if op = 0x71 then role == .active
  else if op = 0x12 then role != .standby
  else true

/-- Step 7 of Table 2.4: the role and life-cycle conditions; none where they hold. -/
def Dev.gate (op : Nat) (r : Req) (d : Dev) : Option (Half × Nat) :=
  if d.life.state = .retired ∧ !(retiredOps.contains op) then some (stLife, 5)
  else if !(roleAllows op d.clasp.role) then some (stRole, 0)
  else if op = 0x30 ∧ r.tgt ≠ 0 ∧ d.life.state ≠ .commission ∧ d.life.state ≠ .service then some (stLife, 2)
  else if op = 0x61 ∧ d.life.state ≠ .maintain then
    (if d.life.state = .service then (if d.solver.mode = .idle then none else some (stLife, 0x100)) else some (stLife, 3))
  else none

/-! ### Start and completion (R44 to R47) -/

/-- The resources that a request touches (R46), whether it reads them, changes them, or is refused. -/
def Dev.resourcesOf (op : Nat) (r : Req) (d : Dev) : List Resource :=
  if 0x10 ≤ op ∧ op ≤ 0x14 then [.staging]
  else if op = 0x20 then (Bits.upTo (r.tgt / 2 ^ 17 % 1024 + 1)).map (fun k => .signal (r.tgt % 2 ^ 17 + k))
  else if op = 0x21 then (Bits.upTo (r.len / 16)).map (fun k => .signal (r.tgt + k))
  else if op = 0x22 then
    (if r.target.getLsbD 31 then (d.image.watches.filter (fun w => w.tag.toNat == r.tgt % 64)).map (fun w => .signal w.index)
     else [.signal r.tgt])
  else if 0x28 ≤ op ∧ op ≤ 0x2A then [.flow r.tgt]
  else if op = 0x60 ∨ op = 0x61 then [.deviceTime]
  else if op = 0x62 then (Bits.maskBits 8 r.tgt).map .launchQ
  else if op = 0x68 then (Bits.maskBits 8 r.tgt).map .canCtrl
  else if op = 0x69 then [.canCtrl (r.tgt % 8)]
  else if op = 0x6A then [.canCtrl r.tgt]
  else if op = 0x70 ∨ op = 0x71 then [.role]
  else if op = 0xA0 ∨ op = 0xA1 then [.lifeCycle]
  else if op = 0xF0 ∨ op = 0xF1 then [.firmware]
  else []

/-- A reply longer than the transport allows is answered BAD_LENGTH (R57). -/
def Fin.fitted (tr : Transport) (f : Fin) : Fin :=
  if maxPayload tr < f.payload.length then { status := stBadLength, rarg := BitVec.ofNat 16 (maxPayload tr) } else f

/-- The ACCEPTED reply of a deferred request (R45), with its limit (R48). -/
def Dev.accept (p : Pend) (f : Pend → Pend) (limit : Option Nat) (d : Dev) : Dev :=
  let d := d.modPend p.req.tag (fun x => { f x with accepted := true, deadline := limit.map (fun n => d.time.now + n) })
  d.answer p.op p.req 0 stAccepted 0 []

/-- What an operation's answer does to its request (R45, R75). -/
def Dev.takeAnswer (p : Pend) (x : OpRes) : Dev :=
  let d := x.dev
  match x.ans with
  | .fin f => d.finish p.req.tag (f.fitted p.req.src.tr)
  | .defer limit => d.accept p id limit
  | .stand => d.accept p (fun y => { y with standing := true }) none
  | .fan kind ms limit =>
    let d := d.accept p (fun y => { y with members := ms }) limit
    if ms.all (fun m => m.2.isSome) then d.finishFan p.req.tag p.op kind (ms.map (fun m => (m.1, m.2.getD stTimeout))) else d

/-- A request starts: it leaves the command queue, passes step 7, and its operation runs. -/
def Dev.startOne (p : Pend) (d : Dev) : Dev :=
  let (d, ev) := d.qRead 0 1
  if !ev.isEmpty then d.raiseQ ev
  else
    let uses := d.resourcesOf p.op.toNat p.req
    let d := d.modPend p.req.tag (fun x => { x with started := true, resources := uses })
    match d.gate p.op.toNat p.req with
    | some (st, rarg) => d.finish p.req.tag { status := st, rarg := BitVec.ofNat 16 rarg }
    | none => Dev.takeAnswer p (d.runOp p.op.toNat p.req)

/-- The next request that may start: the first that waits, unless it is ORDERED and an earlier one has not had its final
reply (R46, R47). -/
def Dev.startable (d : Dev) : Option Pend :=
  match d.cmd.tags.find? (fun p => !p.started) with
  | none => none
  | some p =>
    if p.req.ordered && d.cmd.tags.any (fun x => x.started && !(x.replied || x.standing)) then none else some p

/-- An earlier request on the same resource has not completed (R46). -/
def Pend.behind (before : List Pend) (p : Pend) : Bool :=
  before.any (fun x => !x.replied && !x.standing && x.resources.any (fun r => p.resources.contains r))

/-- Final replies leave in the order of R46. -/
def Dev.releaseFrom : List Pend → List Pend → Dev → Dev
  | _, [], d => d
  | before, p :: ps, d =>
    match p.done with
    | some f =>
      if p.replied || p.behind before then Dev.releaseFrom (before ++ [p]) ps d
      else
        let d := d.modPend p.req.tag (fun x => { x with replied := true })
        let d := d.answer p.op p.req (if f.late then rFinal ||| rLate else rFinal) f.status f.rarg f.payload
        Dev.releaseFrom (before ++ [{ p with replied := true }]) ps d
    | none => Dev.releaseFrom (before ++ [p]) ps d

/-- Every final reply that may leave. -/
def Dev.release (d : Dev) : Dev := Dev.releaseFrom [] d.cmd.tags d

/-- The supervisor takes requests while one may start. -/
def Dev.pump : Nat → Dev → Dev
  | 0, d => d.release
  | n + 1, d =>
    let d := d.release
    match d.startable with
    | some p => Dev.pump n (d.startOne p)
    | none => d

/-- Held replies enter the reply queue as it gets space (Table 1.4). -/
def Dev.unhold : Nat → Dev → Dev
  | 0, d => d
  | n + 1, d =>
    match d.cmd.held with
    | [] => d
    | r :: rs =>
      if queueDepth 1 ≤ (d.q 1).held then d
      else
        let d := { d with cmd := { d.cmd with held := rs } }
        let (_, d, ev) := d.qPush 1
        let d := (d.raiseQ ev)
        let d := { d with cmd := { d.cmd with replyQ := d.cmd.replyQ ++ [r] } }
        Dev.unhold n (if r.final then d.freeTag r.tag else d)

/-! ### Limits and role changes (R48, R49) -/

/-- The frame-counted limit of a TIME_STEP has passed (Table 2.8). -/
def Dev.stepOverdue (d : Dev) (tag : BitVec 6) : Bool :=
  d.time.steps.any (fun s => s.tag == tag && decide (0 ≤ Bits.diff32 d.frame.number s.limit))

/-- A request's limit has passed without its final reply. -/
def Dev.overdue (d : Dev) (p : Pend) : Bool :=
  p.done.isNone && ((match p.deadline with | some t => decide (t ≤ d.time.now) | none => false) || d.stepOverdue p.req.tag)

/-- Work that goes on past its request's limit has no request any more. -/
def Dev.orphanWork (tag : BitVec 6) (d : Dev) : Dev :=
  let d := { d with health := { d.health with test := d.health.test.map (fun (t : TestRun) => if t.tag == some tag then { t with tag := none } else t) } }
  let d := d.modLife (fun l => { l with
    erase := l.erase.map (fun (e : Erase) => if e.tag == some tag then { e with tag := none } else e),
    advance := l.advance.filter (fun a => a.1 != tag) })
  match d.clasp.releasing with
  | .due _ (some t) => if t = tag then d.modClasp (fun c => { c with releasing := .no }) else d
  | .given (some t) => if t = tag then d.modClasp (fun c => { c with releasing := .given none }) else d
  | _ => d

/-- REQUEST_TIMEOUT (R48): the work stops, and the request ends TIMEOUT; a fan-out's open members end TIMEOUT. -/
def Dev.requestTimeout (tag : BitVec 6) (d : Dev) : Dev :=
  match d.pend tag with
  | none => d
  | some p =>
    if !(d.overdue p) then d
    else
      let d := ((((d.flowOpenStop tag).modeStop tag).canSendStop tag).canRecoverStop tag).launchDiscard (fun e => e.tag == some tag)
      let d := d.orphanWork tag
      let d := { d with time := { d.time with steps := d.time.steps.filter (fun s => s.tag != tag) } }
      match d.pend tag with
      | none => d
      | some q =>
        if q.done.isSome then d
        else if q.members.isEmpty then d.finish tag { status := stTimeout }
        else d.finishFan tag q.op (if q.op = 0x68 then 1 else 2) (q.members.map (fun m => (m.1, m.2.getD stTimeout)))

/-- Deferred requests whose role the unit no longer holds end WRONG_ROLE (R49). -/
def Dev.roleSweep (d : Dev) : Dev :=
  let role := d.clasp.role
  let d := match d.solver.modeReq with
    | some m => (match m.tag with
        | some t => if role.inControl then d else (d.modeStop t).finish t { status := stRole }
        | none => d)
    | none => d
  let d := match d.cfg.commit with
    | some c => if role = Role.standby then d.commitDropped.finish c.tag { status := stRole } else d
    | none => d
  match d.clasp.releasing with
  | .due _ (some _) => if role = Role.active then d else d.endRelease { status := stRole }
  | _ => d

/-! ### What follows every command -/

/-- The final reply of the activating request has left (R492). -/
def Dev.activationReplied (d : Dev) (tag : BitVec 6) : Bool :=
  (d.pend tag).isNone && !(d.cmd.replyQ.any (fun r => r.tag == tag)) && !(d.cmd.held.any (fun r => r.tag == tag))

/-- The supervisor's work after a command: completions, starts, deliveries, and the reset of a firmware activation once its
final reply has left. Requests start from unit ready on (R495), and in the boot ROM where no image is valid (R493). -/
def Dev.settle (d : Dev) : Dev :=
  if !d.runs || !(d.life.ready || d.life.noImage) then d
  else
    let d := Dev.pump 66 d.roleSweep
    let d := (Dev.unhold 64 d.deliver).deliver
    match d.life.activating with
    | some t => if d.activationReplied t then d.restart 5 else d
    | none => d

end Sys2Proof.Machine
end

