-- ==== Sys2Proof/Machine/Transport.lean ====
section
/-! DEFINITION. Machine/Transport.lean: the three transports: PCIe rings and BAR0 (R51, R52), SPI transactions (R53, R54),
UDP datagrams and kept replies (R55), and the notices of queues (R35). -/

namespace Sys2Proof.Machine

open Sys2Proof

/-! ### PCIe (R51, R52, R519) -/

/-- The PCIe registers changed. -/
def Dev.modPcie (f : Pcie → Pcie) (d : Dev) : Dev :=
  { d with cmd := { d.cmd with trans := { d.cmd.trans with pcie := f d.cmd.trans.pcie } } }

/-- A slot count that configures a ring (Table 2.5). -/
def ringLegal (w : Word) : Bool := [2, 4, 8, 16, 32, 64].contains w.toNat

/-- A BAR0 register as the host reads it (Table 2.5). -/
def Dev.bar0 (off : Nat) (d : Dev) : Word :=
  let p := d.cmd.trans.pcie
  if off = 0x000 then 0x00015120
  else if off = 0x004 then BitVec.ofNat 32 (Bits.b2n p.enable)
  else if off = 0x008 then BitVec.ofNat 32 (flagBits [d.life.ready, p.cmdError || p.rplError])
  else if off = 0x010 then p.cmdBaseLo
  else if off = 0x014 then p.cmdBaseHi
  else if off = 0x018 then p.cmdSlots
  else if off = 0x01C then p.cmdProducer
  else if off = 0x020 then p.cmdConsumer
  else if off = 0x030 then p.rplBaseLo
  else if off = 0x034 then p.rplBaseHi
  else if off = 0x038 then p.rplSlots
  else if off = 0x03C then p.rplProducer
  else if off = 0x040 then p.rplConsumer
  else if off = 0x050 then p.irqStatus.zeroExtend 32
  else if off = 0x054 then p.irqMask
  else 0

/-- A producer has run more than one ring size ahead of its consumer (R52). -/
def ringOver (slots producer consumer : Word) : Bool := ringLegal slots && decide (slots.toNat < (producer - consumer).toNat)

/-- RING_ERROR of one ring (R52): its mark, event 0205h and vector 2. -/
def Dev.ringFails (f : Pcie → Pcie) (d : Dev) : Dev := ((d.modPcie f).transportError .pcie 1 1).irq 2

/-- Each ring whose producer has run ahead has failed, and nothing is taken from it any more (R52). -/
def Dev.ringCheck (d : Dev) : Dev :=
  let p := d.cmd.trans.pcie
  if !p.enable then d
  else
    let d := if !p.cmdError && ringOver p.cmdSlots p.cmdProducer p.cmdConsumer
      then d.ringFails (fun x => { x with cmdError := true }) else d
    if !p.rplError && ringOver p.rplSlots p.rplProducer p.rplConsumer
      then d.ringFails (fun x => { x with rplError := true }) else d

/-- The command ring can be served. -/
def Dev.ringServed (d : Dev) : Bool :=
  d.runs && d.ringUp && !d.cmd.trans.pcie.cmdError && ringLegal d.cmd.trans.pcie.cmdSlots

/-- The module has fetched the slot that CMD_CONSUMER counts, and advances the count (R52). -/
def Dev.slotTaken (d : Dev) : Dev :=
  let p := d.cmd.trans.pcie
  (d.modPcie (fun x => { x with cmdConsumer := x.cmdConsumer + 1 })).emit
    (.pcieFetch (slotAddr p.cmdBaseLo p.cmdBaseHi p.cmdSlots p.cmdConsumer))

/-- The module takes packets from the ring, in slot order; the supervisor works between them (R52). -/
def Dev.takeSlots : Nat → Dev → Dev
  | 0, d => d
  | n + 1, d =>
    match d.cmd.trans.pcie.slots with
    | [] => d
    | bs :: rest =>
      if !d.ringServed then d
      else
        let d := (d.modPcie (fun p => { p with slots := rest })).slotTaken
        Dev.takeSlots n (d.packetIn { tr := .pcie } none (packetOf bs)).settle

/-- The rings are looked after: what lies in the command ring is taken once it can be served (R52, R495). -/
def Dev.ringService (d : Dev) : Dev := if d.ringServed then Dev.takeSlots 64 d.ringCheck else d

/-- CMD_PRODUCER_WRITE: the host has written slots and advances the producer; a slot it did not write reads zeros. -/
def Dev.producerWrite (value : Word) (slots : List (List Byte)) (d : Dev) : Dev :=
  let p := d.cmd.trans.pcie
  let n := (value - p.cmdProducer).toNat
  let room := 64 - p.slots.length
  let new := if n ≤ room then slots.take n ++ List.replicate (n - slots.length) [] else []
  (d.modPcie (fun p => { p with cmdProducer := value, slots := p.slots ++ new })).ringCheck

/-- RPL_CONSUMER_WRITE. -/
def Dev.consumerWrite (value : Word) (d : Dev) : Dev := (d.modPcie (fun p => { p with rplConsumer := value })).ringCheck

/-- CTRL_ENABLE: ENABLE = 0 resets the transport of a PCIe staging owner (R64). -/
def Dev.ctrlEnable (enable : Bool) (d : Dev) : Dev :=
  let d := d.modPcie (fun p => { p with enable := enable })
  if enable then d.ringCheck else d.stagePcieReset

/-- RESET_RINGS (Table 2.5, R64). -/
def Dev.resetRings (d : Dev) : Dev :=
  (d.modPcie (fun p => { p with
    cmdProducer := 0, cmdConsumer := 0, rplProducer := 0, rplConsumer := 0, cmdError := false, rplError := false, slots := [] })).stagePcieReset

/-- IRQ_STATUS is cleared by writing ones. -/
def Dev.irqClear (mask : Word) (d : Dev) : Dev :=
  d.modPcie (fun p => { p with irqStatus := p.irqStatus &&& ~~~ (mask.truncate 3) })

/-- Ring geometry may change only while ENABLE = 0 (R52). -/
def Dev.geometry (f : Pcie → Pcie) (d : Dev) : Dev := if d.cmd.trans.pcie.enable then d else d.modPcie f

/-- A write to a BAR0 register (Table 2.5); read-only registers and offsets not listed ignore it (R51). -/
def Dev.bar0Write (off : Nat) (v : Word) (d : Dev) : Dev :=
  if off = 0x004 then (if v.getLsbD 1 then d.resetRings else d).ctrlEnable (v.getLsbD 0)
  else if off = 0x010 then d.geometry (fun p => { p with cmdBaseLo := v })
  else if off = 0x014 then d.geometry (fun p => { p with cmdBaseHi := v })
  else if off = 0x018 then d.geometry (fun p => { p with cmdSlots := v })
  else if off = 0x01C then d.producerWrite v []
  else if off = 0x030 then d.geometry (fun p => { p with rplBaseLo := v })
  else if off = 0x034 then d.geometry (fun p => { p with rplBaseHi := v })
  else if off = 0x038 then d.geometry (fun p => { p with rplSlots := v })
  else if off = 0x040 then d.consumerWrite v
  else if off = 0x050 then d.irqClear v
  else if off = 0x054 then d.modPcie (fun p => { p with irqMask := v })
  else d

/-- Replies of a transport that wait are dropped, counted, and their tags released (R50). -/
def Dev.dropReplies (tr : Transport) (d : Dev) : Dev :=
  let gone := d.cmd.replyQ.filter (fun r => r.src.tr == tr)
  let late := d.cmd.held.filter (fun r => r.src.tr == tr)
  let n := gone.length + late.length
  if n = 0 then d
  else
    let (d, ev) := if gone.isEmpty then (d, []) else d.qDrop 1 gone.length
    let d := d.raiseQ ev
    let d := { d with cmd := { d.cmd with
      replyQ := d.cmd.replyQ.filter (fun r => r.src.tr != tr), held := d.cmd.held.filter (fun r => r.src.tr != tr) } }
    let d := late.foldl (fun (x : Dev) (r : Reply) => if r.final then x.freeTag r.tag else x) d
    d.transportError tr 2 n

/-- PCIE_PERST: the link is reset, the module is not (R519, R64). -/
def Dev.perst (d : Dev) : Dev := (d.dropReplies .pcie).stagePcieReset

/-! ### SPI (R53, R54) -/

/-- SPI can be used: enabled, and its bank VIO3 is there (R514). -/
def Dev.spiUp (d : Dev) : Bool := d.runs && d.parB 1 0x21 && !(d.hw.vioOut.getLsbD 2)

/-- The replies that wait for SPI. -/
def Dev.spiReplies (d : Dev) : List Reply := d.cmd.replyQ.filter (fun r => r.src.tr == .spi)

/-- The module takes SPI requests: unit ready, or the boot ROM alone (R493, R495). -/
def Dev.spiServed (d : Dev) : Bool := d.life.ready || d.life.noImage

/-- The status byte of a transaction (R53). -/
def Dev.spiStatusByte (d : Dev) : Byte :=
  BitVec.ofNat 8 (flagBits [!d.spiReplies.isEmpty, d.spiServed && decide ((d.q 0).held < 64), d.cmd.trans.spiAborted])

/-- SPI_IRQ_N is driven low while the reply queue holds a reply for SPI (R53). -/
def Dev.spiIrqLow (d : Dev) : Bool := d.spiUp && !d.spiReplies.isEmpty

/-- Status bit 2 set or cleared. -/
def Dev.setAborted (b : Bool) (d : Dev) : Dev := { d with cmd := { d.cmd with trans := { d.cmd.trans with spiAborted := b } } }

/-- SPI_WRITE: the bytes after 5Ah (Table 2.6, R495). -/
def Dev.spiWrite (bs : List Byte) (d : Dev) : Dev :=
  if !d.spiUp then d
  else
    let d := d.emit (.spi [d.spiStatusByte])
    let p := packetOf bs
    if !d.spiServed || decide (bs.length < 16) || decide (bs.length < p.size) then d.setAborted true
    else (d.setAborted false).packetIn { tr := .spi } none p

/-- SPI_READ with `clocked` bytes after the turnaround: the oldest reply, kept until clocked in full (R54). DESIGN CHOICE:
Table 2.6 lets only a WRITE set status bit 2, so a READ cut short clears it as any other transaction does
(notes/assumptions/97.md). -/
def Dev.spiRead (clocked : Nat) (d : Dev) : Dev :=
  if !d.spiUp then d
  else
    let (d, ev) := if d.spiReplies.isEmpty then (d, []) else d.qCheck 1
    let d := d.raiseQ ev
    let st := d.spiStatusByte
    let d := d.setAborted false
    match d.spiReplies with
    | [] => d.emit (.spi (st :: ([0xFF] : List Byte).take clocked))
    | r :: _ =>
      let d := d.emit (.spi (st :: r.bytes.take clocked))
      if clocked < r.bytes.length then d
      else
        let (d, ev) := d.qRead 1 1
        (({ d with cmd := { d.cmd with replyQ := d.cmd.replyQ.erase r } })).raiseQ ev

/-- SPI_STAT (Table 2.6). -/
def Dev.spiStat (d : Dev) : Dev :=
  if !d.spiUp then d
  else
    let st := d.spiStatusByte
    let len := match d.spiReplies with | r :: _ => Bits.at' r.bytes 4 4 | [] => 0
    (d.setAborted false).emit (.spi (st :: (Bits.le 1 d.spiReplies.length ++ Bits.le 1 (64 - (d.q 0).held) ++ Bits.le 2 len)))

/-! ### UDP (R55) -/

/-- An address of the host list (Table 2.7). -/
def Dev.hostListed (d : Dev) (ip : Nat) : Bool := ip != 0 && (Bits.upTo 4).any (fun i => d.parN 1 (0x25 + i) == ip)

/-- The kept reply that answers a repeated request. -/
def Dev.keptFor (d : Dev) (ip : Nat) (op : Byte) (tag : BitVec 6) (hcrc pcrc : Word) : Option Kept :=
  d.cmd.trans.kept.find? (fun k => k.reply.src.ip == ip && k.reply.op == op && k.reply.tag == tag && k.reply.hcrc == hcrc &&
    k.reply.pcrc == pcrc && decide (d.time.now < k.expires))

/-- UDP_DATAGRAM_RECEIVED. DESIGN CHOICE: of a datagram that is both short and from an address outside the host list the
length is judged first, and it counts as cause 4 (notes/assumptions/97.md). -/
def Dev.udpIn (ip port iface dstPort : Nat) (bs : List Byte) (d : Dev) : Dev :=
  let p := packetOf bs
  let x := d.net.ports.getD (2 + iface) {}
  if !(d.runs && d.life.ready && d.parB 1 0x22 && decide (iface < 2) && (d.par 1 0x24).getLsbD iface && x.enabled && x.link) ||
      dstPort != d.parN 1 0x23 then d
  else if bs.length < 16 then d.transportError .udp 4 1
  else if !(d.hostListed ip) then d.transportError .udp 3 1
  else
    match (if p.crcOk then d.keptFor ip p.op (BitVec.ofNat 6 p.tagWord) p.hcrc p.pcrc else none) with
    | some k => d.emit (.udpReply ip port k.reply.bytes)
    | none => d.packetIn { tr := .udp, ip := ip, port := port } (if bs.length = p.size then none else some p.size) p

/-- KEPT_REPLY_EXPIRY. -/
def Dev.keptExpiry (d : Dev) : Dev :=
  { d with cmd := { d.cmd with trans := { d.cmd.trans with
    kept := d.cmd.trans.kept.filter (fun k => decide (d.time.now < k.expires)) } } }

/-! ### A request by its opcode -/

/-- A request's packet (Table 2.1). -/
def packetBytes (op : Byte) (r : Req) : List Byte :=
  r.head op ++ Bits.le 4 (r.hcrc op).toNat ++ (if r.payload.isEmpty then [] else r.payload ++ Bits.le 4 r.pcrc.toNat)

/-- A request whose header CRC, version and payload CRC hold reaches the module on its transport (R50 to R55). -/
def Dev.requestIn (op : Byte) (r : Req) (d : Dev) : Dev :=
  match r.src.tr with
  | .pcie =>
    let p := d.cmd.trans.pcie
    if d.ringServed && p.slots.isEmpty then
      ((d.modPcie (fun p => { p with cmdProducer := p.cmdProducer + 1 })).slotTaken).intake op r r.len none true (r.hcrc op, r.pcrc)
    else if d.runs && !p.cmdError then d.producerWrite (p.cmdProducer + 1) [packetBytes op r]
    else d
  | .spi =>
    if !d.spiUp then d
    else if !d.spiServed then d.setAborted true
    else (d.setAborted false).intake op r r.len none true (r.hcrc op, r.pcrc)
  | .udp =>
    if !(d.runs && d.life.ready && d.udpUp) then d
    else if !(d.hostListed r.src.ip) then d.transportError .udp 3 1
    else match d.keptFor r.src.ip op r.tag (r.hcrc op) r.pcrc with
      | some k => d.emit (.udpReply r.src.ip r.src.port k.reply.bytes)
      | none => d.intake op r r.len none true (r.hcrc op, r.pcrc)

/-! ### Queues (R35, R36) -/

/-- The instant from which the idle time of a queue runs (R35). -/
def QCtl.idleFrom (c : QCtl) : Nat := if c.lastRead < c.lastNonEmpty then c.lastNonEmpty else c.lastRead

/-- A notice is due. -/
def Dev.idleDue (d : Dev) (id : Nat) : Bool :=
  let c := d.q id
  decide (id < 60) && c.held != 0 && !c.noticed && d.idleTime id != 0 && decide (d.idleTime id ≤ d.time.now - c.idleFrom)

/-- QUEUE_IDLE: event 0109h once, and the reader is notified as in Table 1.4. -/
def Dev.queueIdle (id : Nat) (d : Dev) : Dev :=
  if !(d.idleDue id) then d
  else
    let n := (d.q id).held
    let d := (d.setQ id { d.q id with noticed := true }).raiseI 0x0109 0 id (Bits.le 1 id ++ Bits.le 2 n)
    if id = 1 ∨ (0x0C ≤ id ∧ id ≤ 0x1B) then d.irq 1
    else if id = 2 then { d with locket := { d.locket with broughtForward := true } }
    else if 4 ≤ id ∧ id ≤ 0x0B then d.canFill (id - 4)
    else if 0x1C ≤ id then (Bits.upTo 16).foldl (fun x q => x.chainRun x.dev (16 * (id - 0x1C) + q)) (d.fifoRead (id - 0x1C))
    else d

/-- REPLY_QUEUED_ON_SPACE: held replies enter the queue as it has space (Table 1.4). -/
def Dev.replyOnSpace (d : Dev) : Dev := (Dev.unhold 64 d.deliver).deliver

end Sys2Proof.Machine
end

