-- ==== Sys2Proof/Machine/Frame.lean ====
section
/-! DEFINITION. Machine/Frame.lean: the frame: its tick in the order of R20, the step of device time (R28, R29), the
sub-ticks of Table 1.2 and the slots of Table 1.1. -/

namespace Sys2Proof.Machine

open Sys2Proof

/-! ### The step of device time (R28, R29, R328, R332) -/

/-- A TIME_STEP is due at the tick that would start frame `no` on the numbering in force (R67, R332). -/
def StepReq.due (no : Nat) (s : StepReq) : Bool :=
  !s.closed && (s.next || s.asap || decide (Bits.diff32 s.frame no ≤ 0))

/-- It is applied later than the tick it names (R67). -/
def StepReq.isLate (no : Nat) (s : StepReq) : Bool := !s.next && (s.asap || decide (Bits.diff32 s.frame no < 0))

/-- One due TIME_STEP joins the step of this tick, or is refused (R332). -/
def Dev.joinStep (no : Nat) (x : Int × List (BitVec 6 × Int × Bool) × Dev) (s : StepReq) :
    Int × List (BitVec 6 × Int × Bool) × Dev :=
  let (total, l, d) := x
  let v := match s.step with | some n => n | none => -(d.thetaOf d.time.source)
  if (s.step.isNone && d.time.source == 0) || decide ((d.frame.nextTick : Int) + total + v < 0) then
    (total, l, d.finish s.tag { status := stRange })
  else (total + v, l ++ [(s.tag, v, s.isLate no)], d)

/-- Instants held in device time move with it, so that what is measured from them does not (R14). -/
def Dev.shiftInstants (n : Int) (d : Dev) : Dev :=
  let mv := fun (t : Nat) => ((t : Int) + n).toNat
  let sh := BitVec.ofInt 32 n
  let d := { d with
    solver := { d.solver with trackAt := mv d.solver.trackAt },
    acq := { d.acq with
      chains := d.acq.chains.map (fun (c : Nat × Chain) => (c.1, { c.2 with outAt := c.2.outAt.map mv, resetAt := mv c.2.resetAt })),
      rs := d.acq.rs.map (fun (r : Rsmp) => { r with
        samples := r.samples.map (fun (o : RsOut) => { o with instant := o.instant + n }) }) },
    gnss := { d.gnss with fits := d.gnss.fits.map (fun (l : List (Int × Nat)) => l.map (fun (e : Int × Nat) => (e.1 + n, e.2))) },
    fusion := { d.fusion with
      window := [], cur := { d.fusion.cur with stamp := d.fusion.cur.stamp + sh },
      level1 := { d.fusion.level1 with stamp := d.fusion.level1.stamp.map (fun w => w + sh) },
      refs := d.fusion.refs.map (fun (r : Ref) => { r with last := r.last.map (fun w => w + sh) }) } }
  d.mapGroups (fun g => if g.res.result = 0 then g else { g with res := { g.res with stage0 := mv g.res.stage0 } })

/-- A number that a backward step leaves more than 3,000 frames ahead goes at the next tick (R67). -/
def StepReq.afterStep (n : Int) (no : Nat) (s : StepReq) : StepReq :=
  if decide (n < 0) && decide (3000 < Bits.diff32 s.frame no) then { s with asap := true, limit := (no + 3) % 4294967296 } else s

/-- The step frame that a step by n opens at the tick (R28). -/
def FrameSt.stepBy (n : Int) (f : FrameSt) : FrameSt :=
  let t := ((f.nextTick : Int) + n).toNat
  { f with number := frameNo t, t0 := t, isStep := true, nextTick := (t + 39999999) / 20000000 * 20000000, syncDue := true }

/-- Device time after a step by n, which re-judges the TIME_STEPs that still wait. -/
def TimeSt.stepBy (n : Int) (no : Nat) (x : TimeSt) : TimeSt :=
  { x with off := x.off + n * 65536, steps := x.steps.map (StepReq.afterStep n no) }

/-- The counterpart of the old frame on the new timescale (R28). -/
def Dev.openStepFrame (n : Int) (d : Dev) : Dev :=
  { d with time := d.time.stepBy n (d.frame.stepBy n).number, frame := d.frame.stepBy n,
           acq := { d.acq with finishing := d.acq.ports } }

/-- What a step does beside opening its frame (R29). -/
def Dev.stepEffects (n : Int) (d : Dev) : Dev :=
  ((((d.shiftInstants n).shiftStamps n).launchDiscard (fun _ => true)).conseqAbandon).traceStep

/-- The time state after a step, by the new θ (R328, R332). -/
def Dev.stepFollow (first : Nat) (d : Dev) : Dev :=
  if first ≠ 0 then d.follow first true
  else if d.time.source ≠ 0 then d.follow d.time.source true
  else d

/-- The step by n at a tick, with its events: `first` is the source of the first step, 0 where it is not that one. -/
def Dev.applyStep (n : Int) (first : Nat) (d : Dev) : Dev :=
  let d := (((d.openStepFrame n).stepEffects n).stepFollow first).raise 0x0101 0 (Bits.leI 8 n)
  if first = 0 then d else d.raise 0x0B01 0 (Bits.le 1 first)

/-- The regular tick (R9, R10). -/
def Dev.plainTick (d : Dev) : Dev :=
  let t := d.frame.nextTick
  { d with frame := { d.frame with
      number := frameNo t, t0 := t, isStep := false, nextTick := t + 20000000 } }

/-- The time step, if one is pending, opens the frame (R20): the first step (R328) and the TIME_STEPs due. -/
def Dev.stepTick (d : Dev) : Dev :=
  let no := frameNo d.frame.nextTick
  let first := if d.time.state = .unset then d.firstSource else 0
  let v0 : Int := if first = 0 then 0 else -(d.thetaOf first)
  let due := d.time.steps.filter (fun s => s.due no)
  let rest := (d.time.steps.filter (fun s => !(s.due no))).map (fun (s : StepReq) => { s with closed := false })
  let d := { d with time := { d.time with steps := rest } }
  let (total, l, d) := due.foldl (Dev.joinStep no) (v0, [], d)
  if first = 0 ∧ l.isEmpty then d.plainTick
  else
    let d := d.applyStep total first
    l.foldl (fun x e => x.finish e.1 { status := stOk, late := e.2.2, payload := Bits.leI 8 e.2.1 ++ Bits.le 4 x.frame.number }) d

/-! ### FRAME_TICK (R9, R20) -/

/-- What takes effect at a tick: commits, transitions, RUN fields, modes, ports (R68, R488, R496). -/
def Dev.applyTick (d old : Dev) : Dev :=
  let d := ((d.partnerCommitTick (old.nextNo)).commitTick).resyncTick
  let d := (d.lifeTick old).runTick
  d.acqApply.gnssApply.fusionApply.engineApply.plantApply.applyPortEn.applyCanMode

/-- The pair at a tick: the mirror, synchronisation, roles and the return (R374, R385, R389, R390, R398). -/
def Dev.pairTick (d : Dev) : Dev :=
  let d := d.mirrorApply.syncTick
  let control := d.clasp.role.inControl
  let mode := d.solver.mode
  let d := d.roleTick
  let d := if d.clasp.role.inControl && !control then { d with cfg := { d.cfg with mirrored := [], partnerCommit := none } } else d
  let d := if d.solver.mode = mode then d else ({ d with solver := { d.solver with mode := mode } }).followMode d.solver.mode
  d.returnTick

/-- The whole second of device time that lies inside a step frame, as a raw instant (R28). -/
def Dev.secondInside (d : Dev) : Option Nat :=
  let s := (d.frame.t0 / 1000000000 + 1) * 1000000000
  if d.frame.isStep && decide (s < d.frame.nextTick) then some (d.frame.rawT0 + (s - d.frame.t0)) else none

/-- A tick on a whole second of device time (R9): re-anchoring, the source, PPS. A step has already measured its source. -/
def Dev.secondTick (d : Dev) : Dev :=
  let d := { d with frame := { d.frame with secondDue := d.secondInside } }
  if d.frame.t0 % 1000000000 ≠ 0 then d
  else if d.frame.isStep then d.reanchor.ppsRise
  else d.second.ppsRise

/-- Health at a tick (R438, R446, R450, R489). -/
def Dev.healthTick (d : Dev) : Dev :=
  let d := ((d.faultResume.throttle.traceThrottle.selftestTick d.frame.isStep).autoTick).debugTick
  if d.testing 3 then d.traceSelftest else d

/-- Points written at the tick, the memory's findings, the snapshot, and what reads it (R17, R104). -/
def Dev.imageTick (m : MemoryIn) (d : Dev) : Dev :=
  let d := (((d.pointerStrike m).imageStrike m).imageScrub).netPoints.faultPoints.healthPoints
  let d := { d with health := { d.health with record := d.thermalRecord } }
  d.snapshot.notifyTick.modeTick.targetTick.refineTick.plantTick.conseqTick.flowTick

/-- FRAME_TICK: device time has reached the next multiple of 20 ms (R9). -/
def Dev.frameTick (m : MemoryIn) (d : Dev) : Dev :=
  if d.dev < d.frame.nextTick then d
  else if d.life.activating.isSome then d.restart 5
  else
    let d := ({ d with hw := { d.hw with noStore := m.noStore } } : Dev).locketTick.locketStrike m.records
    let old := d
    let d := d.confirmTick.stepTick
    let d := { d with frame := { d.frame with sub := 0, subAt := d.frame.t0, slots := 0, rawT0 := d.time.now - d.sinceT0 },
                      engine := { d.engine with cmdPass := none } }
    (((((d.applyTick old).pairTick).healthTick).secondTick).gnssLatchTick).imageTick m

/-! ### SUB_TICK (R11, R21) -/

/-- The next sub-tick boundary: a whole millisecond of device time; one less than 0.5 ms after t0 of a step frame is
omitted (R28). -/
def Dev.subNext (d : Dev) : Nat :=
  let s := d.frame.subAt
  let b := (s / 1000000 + 1) * 1000000
  if b - s < 500000 then b + 1000000 else b

/-- What happens at s+0 and s to s+0.20 ms of a sub-tick (Table 1.2). -/
def Dev.subWork (m : SubTickIn) (d : Dev) : Dev :=
  let d := d.releaseRepeat.acqSub
  let d := d.aidChannels
  let (d, seen) := d.plantJudge
  let d := (d.enginePass seen).readSites m.siteHz
  let d := d.modClasp (fun c => { c with feedA := m.feedA, feedB := m.feedB })
  d.gpioTick

/-- s+0.25 ms (Table 1.2): the pass in progress ends, its outputs are written, the phase-back is evaluated, and the flows
publish what they read after it (R97, R309). -/
def Dev.passEnd (d : Dev) : Dev :=
  match d.engine.pass with
  | none => d
  | some w =>
    let d := ({ d with engine := { d.engine with pass := none } } : Dev).passOutputs w.loops
    let (d, js) := d.plantAct w.seen
    let d := d.tracePoints.flowPublishAll
    { d with engine := { d.engine with limits := some (w.due + 250000, js) } }

/-- s+0.5 ms (Table 1.2): the fast launch slot (R286). -/
def Dev.limitSlot (d : Dev) : Dev :=
  match d.engine.limits with
  | none => d
  | some (_, js) => ({ d with engine := { d.engine with limits := none } } : Dev).limitFrames js

/-- What the sub-tick in progress does before instant t, and the whole second inside a step frame up to it: each at its own
instant (notes/assumptions/101.md). -/
def Dev.dueWork (t : Nat) (d : Dev) : Dev :=
  let d := match d.engine.pass with
    | some w => if w.due < t then (d.advance w.due).passEnd else d
    | none => d
  let d := match d.engine.limits with
    | some (u, _) => if u < t then (d.advance u).limitSlot else d
    | none => d
  match d.frame.secondDue with
  | some u =>
    if u ≤ t then
      let d := d.advance u
      ({ d with frame := { d.frame with secondDue := none } } : Dev).second.ppsRise
    else d
  | none => d

/-- PASS_OVERRUN at s+0.25 ms: what has not finished of the pass in progress is abandoned, and the pass ends (R25). -/
def Dev.overrunSlot (first : Nat) (d : Dev) : Dev :=
  match d.engine.pass with
  | some w =>
    if w.due ≤ d.time.now ∧ !(d.engine.undo.all (fun u => decide (u.loop < first))) then (d.passOverrun first).passEnd else d
  | none => d

/-- SUB_TICK: a boundary has been reached; sub-tick 0 begins with the frame. -/
def Dev.subTick (m : SubTickIn) (d : Dev) : Dev :=
  if d.slotDue .sub0 0 then (d.slotDone .sub0).subWork m
  else
    let b := d.subNext
    if d.frame.slots.getLsbD 0 && decide (b < d.frame.nextTick) && decide (b ≤ d.dev) then
      ({ d with frame := { d.frame with sub := d.frame.sub + 1, subAt := b } }).subWork m
    else d

/-! ### The slots of Table 1.1 -/

/-- Free array time for what-ifs once slot 0 has its output, up to the handoff (R16, R258). -/
def Dev.afterSolve (d : Dev) : Dev :=
  if d.solver.solve.isNone && d.frame.slots.getLsbD (slotBit .fusion) && !(d.frame.slots.getLsbD (slotBit .handoff)) &&
      !d.conseq.window then d.conseqOpen 3334 (d.frame.t0 + 15000000) else d

/-- FUSION_OUTPUT at t0+4 ms; the main solve starts on it (R173, R206). -/
def Dev.fusionSlot (late : Bool) (d : Dev) : Dev :=
  if d.slotDue .fusion 4000000 then ((((d.slotDone .fusion).fusionOutput late).solveSetup)).afterSolve else d

/-- SOLVE_ITERATION_COMPLETE. -/
def Dev.iterationSlot (d : Dev) : Dev := d.solveIteration.afterSolve

/-- SOLVE_DEADLINE (R222). -/
def Dev.deadlineSlot (d : Dev) : Dev :=
  if d.slotDue .deadline (1000 * d.parN 2 1) then ((d.slotDone .deadline).solveDeadline).afterSolve else d

/-- REFINEMENT_WINDOW_START at t0+0.2 ms. -/
def Dev.refineFromSlot (d : Dev) : Dev := if d.slotDue .refineFrom 200000 then (d.slotDone .refineFrom).refineStart else d

/-- REFINEMENT_WINDOW_END at t0+3.8 ms. -/
def Dev.refineToSlot (d : Dev) : Dev := if d.slotDue .refineTo 3800000 then (d.slotDone .refineTo).refineEnd else d

/-- HANDOFF at t0+15 ms. -/
def Dev.handoffSlot (readable : Bool) (d : Dev) : Dev :=
  if d.slotDue .handoff 15000000 then ((d.slotDone .handoff).handoff readable).conseqClose else d

/-- COMMAND_QUEUE_CUTOFF at t0+15.8 ms. -/
def Dev.cutoffSlot (notQueued : BitVec 24) (d : Dev) : Dev :=
  if d.slotDue .cutoff 15800000 then (d.slotDone .cutoff).cutoff notQueued else d

/-- The lease timer is reloaded when the health check passes, `served` being the supervisor's watchdog (R382). -/
def Dev.renewLease (served : Bool) (d : Dev) : Dev :=
  if d.leaseLive && served && d.healthCheck then d.modClasp (fun c => { c with leaseAt := d.time.now + 60000000 }) else d

/-- LAUNCH at t0+16 ms: the launch, the lease, the heartbeat, and the work of the tail slot. -/
def Dev.launchSlot (served : Bool) (d : Dev) : Dev :=
  if d.slotDue .launch 16000000 then
    let d := d.cutoffSlot 0
    let control := d.clasp.lease && d.clasp.role.inControl
    let d := (((d.slotDone .launch).launchThrusters).renewLease served).beatSend.releaseAtLaunch
    let d := if control then d.mirrorSend else d.flowStateSend
    ((((d.imageSend).locketCommit 256).selftestTail).conseqOpen 0 (d.frame.nextTick - 400000)).commitReply
  else d

/-- TAIL_SLOT_END, 0.4 ms before the next tick (R15, R28): the mirror closes and the validation window opens. -/
def Dev.tailSlot (d : Dev) : Dev :=
  if !(d.frame.slots.getLsbD (slotBit .tail)) && decide (d.frame.nextTick ≤ d.dev + 400000) then
    ((d.slotDone .tail).mirrorAbort.conseqTail).commitWindow
  else d

end Sys2Proof.Machine
end

