-- ==== Sys2Proof/WellFormed.lean ====
section
/-! DEFINITION. WellFormed.lean: the operands a command can have: each number within the range that the manual gives the
thing it names (notes/assumptions/3.md). A command outside it is nothing that can happen to the module. -/

namespace Sys2Proof

/-- A UDP source is an IPv4 address and a port; the other transports have none (R50). -/
def Source.wf (s : Source) : Bool :=
  if s.tr = .udp then decide (s.ip < 2 ^ 32) && decide (s.port < 65536) else s.ip == 0 && s.port == 0

/-- A request whose LENGTH field can say its payload (Table 2.1). -/
def Req.wf (r : Req) : Bool := r.src.wf && decide (r.payload.length < 2 ^ 32)

/-- Opcode 22h cancels with TARGET bit 31 (Table 2.8). -/
def Req.cancels (r : Req) : Bool := r.target.getLsbD 31

/-- Opcode 81h erases with TARGET 10FFh (Table 2.8, R478). -/
def Req.erases (r : Req) : Bool := r.target == 0x10FF#32

/-- The 24 temperature sites and the two feeds (R434, R402). -/
def SubTickIn.wf (m : SubTickIn) : Bool :=
  m.siteHz.length == 24 && m.siteHz.all (fun z => decide (z < 2 ^ 32)) && decide (m.feedA < 65536) && decide (m.feedB < 65536)

/-- Addresses of 48 bits, VLAN 12 bits, sequence 16 bits, payload as an Ethernet frame carries (R531, R347). -/
def EthFrame.wf (f : EthFrame) : Bool :=
  decide (f.dst < 2 ^ 48) && decide (f.src < 2 ^ 48) && (f.vlan.all (fun v => decide (v < 4096))) &&
    (f.red.all (fun (r : RedTag) => decide (r.seq < 65536))) && decide (f.ipSrc < 2 ^ 32) && decide (f.udpPort < 65536) &&
    decide (f.ethType < 65536) && decide (f.payload.length ≤ 1500)

/-- An identifier of its format and a data length of its format (R356, ISO 11898-1). -/
def CanFrame.wf (f : CanFrame) : Bool :=
  decide (f.id < (if f.ide then 2 ^ 29 else 2 ^ 11)) &&
    (decide (f.data.length ≤ 8) || (f.fdf && [12, 16, 20, 24, 32, 48, 64].contains f.data.length)) &&
    !(f.fdf && f.remote) && !(f.remote && !f.data.isEmpty)

/-- Bytes 2 to 1043 (Table 5.2). -/
def LinkFrame.wf (f : LinkFrame) : Bool := f.bytes.length == 1042

/-- The fields as wide as Table 11.4 and IEEE 1588 have them (R338). -/
def PtpMsg.wf : PtpMsg → Bool
  | .announce gm p1 cls acc vari p2 ts steps _ _ =>
      decide (gm < 2 ^ 64) && decide (p1 < 256) && decide (cls < 256) && decide (acc < 256) && decide (vari < 65536) &&
        decide (p2 < 256) && decide (ts < 256) && decide (steps < 65536)
  | .sync _ _ _ => true
  | .followUp _ _ => true
  | .pdelayReq => true
  | .pdelayResp delay => decide (delay < 2 ^ 32)

/-- Records are numbered below 131,072 and hold 128 bits (R78); there are 60 queues (Table 1.4). -/
def MemoryIn.wf (m : MemoryIn) : Bool :=
  m.struck.all (fun (e : Nat × Nat) => decide (e.1 < 131072) && decide (e.2 < 2 ^ 128)) &&
    m.pointers.all (fun (e : Nat × Nat) => decide (e.1 < 60) && decide (e.2 < 2 ^ 16))

/-- A last error code is 1 to 6 (R360). -/
def CanEnd.wf : CanEnd → Bool
  | .ok => true
  | .ackError _ => true
  | .error lec _ => decide (1 ≤ lec) && decide (lec < 7)

/-- A last error code is 1 to 6 (R360). -/
def CanRxError.wf : CanRxError → Bool
  | .plain lec => decide (1 ≤ lec) && decide (lec < 7)
  | .severe lec => decide (1 ≤ lec) && decide (lec < 7)

/-- The operands of a command are in the ranges of what they name. -/
def Instr.wf : Instr → Bool
  | .frameTick _ m => m.wf
  | .ppsPulseEnd _ => true
  | .stepWaitExpiry _ => true
  | .subTick _ m => m.wf
  | .passOverrun _ l => decide (l < 256)
  | .outputClampedLong _ l => decide (l < 256)
  | .releaseHoldExpiry _ i => decide (i < 8)
  | .pmsFallback _ i => decide (i < 8)
  | .feedInvalid _ f v => decide (f < 2) && decide (v < 65536) && (decide (v < 1700) || decide (3700 < v))
  | .feedValid _ f v => decide (f < 2) && decide (1800 ≤ v) && decide (v ≤ 3600)
  | .fusionOutput _ _ => true
  | .solveIterationComplete _ => true
  | .solveDeadline _ => true
  | .refinementWindowStart _ => true
  | .refinementWindowEnd _ => true
  | .joystickTimeout _ => true
  | .handoff _ _ => true
  | .commandQueueCutoff _ _ => true
  | .launch _ _ => true
  | .tailSlotEnd _ => true
  | .commitResultTimeout _ => true
  | .whatifComplete _ => true
  | .cycleOverdue _ => true
  | .resultStale _ g => decide (1 ≤ g) && decide (g < 64)
  | .echo _ r => r.wf
  | .infoRead _ r => r.wf
  | .statusRead _ r => r.wf
  | .paramRead _ r => r.wf
  | .paramStage _ r => r.wf
  | .paramCommit _ r => r.wf
  | .paramDiscard _ r => r.wf
  | .hallmarkRead _ r => r.wf
  | .signalRead _ r => r.wf
  | .signalWrite _ r => r.wf
  | .signalNotify _ r => r.wf && !r.cancels
  | .signalNotifyCancel _ r => r.wf && r.cancels
  | .flowOpen _ r => r.wf
  | .flowClose _ r => r.wf
  | .flowStatus _ r => r.wf
  | .modeSet _ r => r.wf
  | .targetSet _ r => r.wf
  | .joystickSet _ r => r.wf
  | .conseqRead _ r => r.wf
  | .gnssRawRead _ r => r.wf
  | .gnssCorrFeed _ r => r.wf
  | .stateRead _ r => r.wf
  | .solverRead _ r => r.wf
  | .solutionRead _ r => r.wf
  | .traceArm _ r => r.wf
  | .traceRead _ r => r.wf
  | .timeRead _ r => r.wf
  | .timeStep _ r => r.wf
  | .frameLaunch _ r => r.wf
  | .canSend _ r => r.wf
  | .canFetch _ r => r.wf
  | .canRecover _ r => r.wf
  | .roleRead _ r => r.wf
  | .roleRelease _ r => r.wf
  | .safetyRead _ r => r.wf
  | .eventRead _ r => r.wf
  | .eventMark _ r => r.wf && !r.erases
  | .eventErase _ r => r.wf && r.erases
  | .thermalRead _ r => r.wf
  | .selftestRun _ r => r.wf
  | .selftestResult _ r => r.wf
  | .lifecycleRead _ r => r.wf
  | .lifecycleAdvance _ r => r.wf
  | .fwStage _ r => r.wf
  | .fwActivate _ r => r.wf
  | .flashEraseDone _ => true
  | .requestTimeout _ _ => true
  | .stagingAbandoned _ => true
  | .spiWrite _ bs => decide (1 ≤ bs.length)
  | .spiRead _ n => decide (1 ≤ n)
  | .spiStat _ => true
  | .udpDatagramReceived _ ip port i dst bs =>
      decide (ip < 2 ^ 32) && decide (port < 65536) && decide (i < 2) && decide (dst < 65536) && decide (bs.length ≤ 65507)
  | .keptReplyExpiry _ => true
  | .cmdProducerWrite _ _ slots => decide (slots.length ≤ 64) && slots.all (fun s => decide (s.length ≤ 16416))
  | .rplConsumerWrite _ _ => true
  | .ctrlEnable _ _ => true
  | .resetRings _ => true
  | .irqStatusClear _ _ => true
  | .registerWrite _ off _ => decide (off < 4096) && off % 4 == 0
  | .pciePerst _ => true
  | .replyQueuedOnSpace _ => true
  | .queueIdle _ q => decide (q < 60)
  | .ethFrameReceived _ p f => decide (p < 4) && f.wf
  | .flowTimeout _ c => decide (c < 256)
  | .flowBadAfter _ c => decide (c < 256)
  | .ackFrameReceived _ p f => decide (p < 4) && f.wf
  | .ptpMessageReceived _ p m => decide (p < 4) && decide (m.domain < 256) && m.msg.wf
  | .ptpMessageSend _ p _ => decide (p < 4)
  | .announceTimeout _ p => decide (p < 4)
  | .ppsInEdge _ _ => true
  | .ref10Invalid _ => true
  | .launchQueueLaunch _ q => decide (q < 8)
  | .supervisionFrameSend _ => true
  | .ringOpen _ => true
  | .nodeForget _ => true
  | .portLinkChange _ p _ => decide (p < 4)
  | .bypassMismatch _ r => decide (r < 2)
  | .samplePortFrame _ p slots _ => decide (p < 32) && decide (slots.length ≤ 16)
  | .resamplerNoCrossing _ u => decide (u < 16)
  | .linkFrame _ l f => decide (l < 12) && f.wf
  | .acquisitionPass _ => true
  | .trackingLossOfLock _ a c => decide (a < 4) && decide (c < 96)
  | .reacquisitionExpiry _ a c => decide (a < 4) && decide (c < 96)
  | .gnssSolutionComplete _ => true
  | .gnssSolutionDeadline _ => true
  | .correctionDatagram _ i dst bs => decide (i < 2) && decide (dst < 65536) && decide (bs.length ≤ 65507)
  | .correctionsStale _ s => decide (s < 4)
  | .gnssStoreWrite _ => true
  | .refMaxgapExpiry _ s => decide (s < 16)
  | .conflictExpired _ c => decide (c < 4)
  | .conflictCleared _ c => decide (c < 4)
  | .referenceReadmit _ c s => decide (c < 4) && decide (s < 18)
  | .fusionSettled _ => true
  | .canFrameReceived _ c f => decide (c < 8) && f.wf
  | .rxmapTimeout _ m => decide (m < 256)
  | .canBufferLock _ c b => decide (c < 8) && decide (32 ≤ b) && decide (b < 64)
  | .canBufferRelease _ c b => decide (c < 8) && decide (32 ≤ b) && decide (b < 64)
  | .canLockTimeout _ c b => decide (c < 8) && decide (32 ≤ b) && decide (b < 64)
  | .canAttemptEnd _ c b r => decide (c < 8) && decide (b < 32) && r.result.wf
  | .canRecoveryComplete _ c => decide (c < 8)
  | .heartbeatReceived _ l bs => decide (l < 2) && decide (bs.length ≤ 4096)
  | .releaseReceived _ l bs => decide (l < 2) && decide (bs.length ≤ 4096)
  | .mirrorSegmentReceived _ l bs => decide (l < 2) && decide (bs.length ≤ 4096)
  | .commitReceived _ l bs => decide (l < 2) && decide (bs.length ≤ 4096)
  | .commitResultReceived _ l bs => decide (l < 2) && decide (bs.length ≤ 4096)
  | .configImageReceived _ l bs => decide (l < 2) && decide (bs.length ≤ 4096)
  | .flowStateReceived _ l bs => decide (l < 2) && decide (bs.length ≤ 4096)
  | .leaseExpiry _ => true
  | .fenceAck _ => true
  | .fenceAckTimeout _ => true
  | .ownInEdge _ => true
  | .ownInTimeout _ => true
  | .secondOwner _ => true
  | .partnerLost _ => true
  | .laneDown _ l => decide (l < 2)
  | .claimWaitExpiry _ => true
  | .orphanSolo _ => true
  | .returnHoldoffExpiry _ => true
  | .resyncRetry _ => true
  | .ownershipMismatch _ k => decide (1 ≤ k) && decide (k < 3)
  | .islandTick _ _ => true
  | .discrepancyTimeout _ i => decide (i < 16)
  | .lineFaultClear _ i => decide (i < 16)
  | .resetInputHeld _ => true
  | .outputOvercurrent _ o => decide (o < 16)
  | .outputReadbackFail _ o _ => decide (o < 16)
  | .masterDisconnectTest _ m _ => decide (m < 2)
  | .islandWatchdogExpiry _ c => decide (1 ≤ c) && decide (c < 4)
  | .bezelRead _ _ => true
  | .diodeConversionComplete _ _ => true
  | .diodeRecheck _ => true
  | .thermalReset _ => true
  | .thermalOffDiodeRead _ _ => true
  | .rateAlertClear _ => true
  | .selftestComplete _ r => decide (r.micros < 2 ^ 32)
  | .autoSelftestDue _ => true
  | .faultEntryHandled _ => true
  | .faultHoldExpiry _ c s => decide (c < 65536) && decide (s < 65536)
  | .priorityLaneWrite _ => true
  | .lostRecord _ => true
  | .locketScrub _ _ => true
  | .opSecondsWrite _ => true
  | .powerUp _ _ _ _ h _ => decide (h < 256)
  | .rstNAssert _ _ => true
  | .rstNRelease _ _ _ _ => true
  | .resetStuck _ _ _ _ => true
  | .resetObeyed _ => true
  | .supervisorWatchdog _ => true
  | .unitReady _ => true
  | .holdupExhausted _ => true
  | .vioOut _ b mv => decide (1 ≤ b) && decide (b < 5) && decide (mv < 65536)
  | .vioRestored _ b => decide (1 ≤ b) && decide (b < 5)
  | .oscWarm _ n => decide (n < 2 ^ 32)
  | .oscFault _ _ _ => true
  | .dramEccError _ _ _ => true
  | .canReceiveError _ c e => decide (c < 8) && e.wf
  | .ref10Valid _ => true
  | .refinedModelStoreWrite _ => true
  | .debugPortAccess _ _ => true

end Sys2Proof
end

