-- ==== Sys2Proof/Machine/Act.lean ====
section
/-! DEFINITION. Machine/Act.lean: what every command shares: its instant, its own effect, and the supervisor's work that
follows it (notes/assumptions/2.md). -/

namespace Sys2Proof.Machine

open Sys2Proof

/-- An effect of a running module: a module without power, in reset, held off by its temperature, or in the boot ROM with
no valid image takes no part in it (R493, R495, R499). -/
def Dev.whenRuns (f : Dev → Dev) (d : Dev) : Dev := if d.runs && !d.life.noImage then f d else d

/-- An effect that begins at unit ready: the Clasp lanes carry no message before it (Table 17.6). -/
def Dev.whenReady (f : Dev → Dev) (d : Dev) : Dev := if d.runs && d.life.ready then f d else d

/-- An effect that the boot ROM, or a unit that runs beside it, has too (R427, R493). -/
def Dev.whenPowered (f : Dev → Dev) (d : Dev) : Dev := if d.runs then f d else d

/-- FEED_INVALID: the feed falls whether or not the module runs; its event and what follows need a running module. -/
def Dev.feedFalls (feed volts : Nat) (d : Dev) : Dev :=
  if d.runs then d.feedInvalid feed volts else d.setFeed feed volts false

/-- FEED_VALID, as FEED_INVALID. -/
def Dev.feedRises (feed volts : Nat) (d : Dev) : Dev :=
  if d.runs then d.feedValid feed volts else d.setFeed feed volts true

/-- The rings are looked after, and the supervisor does what it can (R44 to R52). -/
def Dev.after (d : Dev) : Dev := d.ringService.settle

/-- Instant t is reached: what the sub-tick in progress does before it has happened, and time moves. -/
def Dev.reach (t : Nat) (d : Dev) : Dev := (if d.runs && !d.life.noImage then d.dueWork t else d).advance t

/-- A command at instant t: time moves, its own effect f happens, and the supervisor's work follows. A command whose operands
name nothing that there is has no effect of its own (notes/assumptions/3.md). -/
def State.act (i : Instr) (t : Nat) (f : Dev → Dev) (s : State) : Host.Outcome State Fault Refusal :=
  .next { s with dev := ((if i.wf then f else id) (s.dev.reach t)).after }

/-- PASS_OVERRUN is the one command that meets the pass in progress at s+0.25 ms before it ends. -/
def State.actInPass (i : Instr) (t : Nat) (f : Dev → Dev) (s : State) : Host.Outcome State Fault Refusal :=
  .next { s with dev := ((if i.wf then f else id) (s.dev.advance t)).after }

end Sys2Proof.Machine
end

