-- ==== Sys2Proof/Machine/CmdBus.lean ====
section
/-! DEFINITION. Machine/CmdBus.lean: the meanings of the commands of the CAN controllers (12): each one line over the shared operations. -/

namespace Sys2Proof.Machine

open Sys2Proof

/-- CAN_FRAME_RECEIVED (R358): A CAN frame is accepted into a receive buffer and moved to the queue, mappings and
acknowledgement matching. -/
def execCanFrameReceived (t : Nat) (ctrl : Nat) (f : CanFrame) (s : State) : Host.Outcome State Fault Refusal :=
  s.act (.canFrameReceived t ctrl f) t (Dev.whenRuns (Dev.canReceive ctrl f))

/-- RXMAP_TIMEOUT (R369): A mapped point reaches RXM_TIMEOUT or 4 × RXM_TIMEOUT and becomes STALE or BAD. -/
def execRxmapTimeout (t : Nat) (mapping : Nat) (s : State) : Host.Outcome State Fault Refusal :=
  s.act (.rxmapTimeout t mapping) t (Dev.whenRuns (Dev.mapTimeout mapping))

/-- CAN_BUFFER_LOCK (R357): A read of word 0 locks a receive buffer. -/
def execCanBufferLock (t : Nat) (ctrl : Nat) (buf : Nat) (s : State) : Host.Outcome State Fault Refusal :=
  s.act (.canBufferLock t ctrl buf) t (Dev.whenRuns (Dev.canLock ctrl buf))

/-- CAN_BUFFER_RELEASE (R357): A read of word 18 releases a receive buffer and moves in the held frame. -/
def execCanBufferRelease (t : Nat) (ctrl : Nat) (buf : Nat) (s : State) : Host.Outcome State Fault Refusal :=
  s.act (.canBufferRelease t ctrl buf) t (Dev.whenRuns (Dev.canRelease ctrl buf))

/-- CAN_LOCK_TIMEOUT (R357): A buffer lock held over 20 µs is released by hardware. -/
def execCanLockTimeout (t : Nat) (ctrl : Nat) (buf : Nat) (s : State) : Host.Outcome State Fault Refusal :=
  s.act (.canLockTimeout t ctrl buf) t (Dev.whenRuns (Dev.canLockTimeout ctrl buf))

/-- CAN_ATTEMPT_END (R359): A transmission attempt ends, by success or error, and the error counters update. -/
def execCanAttemptEnd (t : Nat) (ctrl : Nat) (buf : Nat) (r : CanAttempt) (s : State) : Host.Outcome State Fault Refusal :=
  s.act (.canAttemptEnd t ctrl buf r) t (Dev.whenRuns (Dev.canAttempt ctrl buf r.result r.sinceSof))

/-- CAN_RECOVERY_COMPLETE (R364): 128 recessive sequences are counted and the controller becomes error-active. -/
def execCanRecoveryComplete (t : Nat) (ctrl : Nat) (s : State) : Host.Outcome State Fault Refusal :=
  s.act (.canRecoveryComplete t ctrl) t (Dev.whenRuns (Dev.canRecovered ctrl))

/-- CAN_RECEIVE_ERROR (R360): The controller detects a bus error while receiving, and REC and the error state change
under ISO 11898-1, possibly raising 0C01h. -/
def execCanReceiveError (t : Nat) (ctrl : Nat) (e : CanRxError) (s : State) : Host.Outcome State Fault Refusal :=
  s.act (.canReceiveError t ctrl e) t (Dev.whenRuns (Dev.canRxError ctrl e))

end Sys2Proof.Machine
end

