-- ==== Sys2Proof/Machine/CmdChannel.lean ====
section
/-! DEFINITION. Machine/CmdChannel.lean: the meanings of the commands of limits, transports and queues (02, 01 R33 to R36): each one line over the shared operations. -/

namespace Sys2Proof.Machine

open Sys2Proof

/-- FLASH_ERASE_DONE (R491): A sector erase and chunk write complete, and FW_STAGE gets its final OK. -/
def execFlashEraseDone (t : Nat) (s : State) : Host.Outcome State Fault Refusal :=
  s.act (.flashEraseDone t) t (Dev.whenPowered Dev.eraseDone)

/-- REQUEST_TIMEOUT (R48): A deferred request passes its completion limit and ends TIMEOUT. -/
def execRequestTimeout (t : Nat) (tag : BitVec 6) (s : State) : Host.Outcome State Fault Refusal :=
  s.act (.requestTimeout t tag) t (Dev.whenPowered (Dev.requestTimeout tag))

/-- STAGING_ABANDONED (R64): An unfrozen staging set is abandoned after STAGE_TIMEOUT without activity from its owner. -/
def execStagingAbandoned (t : Nat) (s : State) : Host.Outcome State Fault Refusal :=
  s.act (.stagingAbandoned t) t (Dev.whenRuns Dev.stageTimeout)

/-- SPI_WRITE (R53): An SPI transaction with code 5Ah delivers one request. -/
def execSpiWrite (t : Nat) (bytes : List Byte) (s : State) : Host.Outcome State Fault Refusal :=
  s.act (.spiWrite t bytes) t (Dev.whenPowered (Dev.spiWrite bytes))

/-- SPI_READ (R54): An SPI transaction with code C3h clocks out the oldest SPI reply. -/
def execSpiRead (t : Nat) (clocked : Nat) (s : State) : Host.Outcome State Fault Refusal :=
  s.act (.spiRead t clocked) t (Dev.whenPowered (Dev.spiRead clocked))

/-- SPI_STAT (R53): An SPI transaction with code 3Ch returns the reply and queue status. -/
def execSpiStat (t : Nat) (s : State) : Host.Outcome State Fault Refusal :=
  s.act (.spiStat t) t (Dev.whenPowered Dev.spiStat)

/-- UDP_DATAGRAM_RECEIVED (R55): A command datagram is taken, filtered by length and address and answered from the
replay store. -/
def execUdpDatagramReceived (t : Nat) (ip : Nat) (port : Nat) (iface : Nat) (dstPort : Nat) (bytes : List Byte) (s : State) : Host.Outcome State Fault Refusal :=
  s.act (.udpDatagramReceived t ip port iface dstPort bytes) t (Dev.whenRuns (Dev.udpIn ip port iface dstPort bytes))

/-- KEPT_REPLY_EXPIRY (R55): UDP_REPLAY runs out and a kept reply is dropped. -/
def execKeptReplyExpiry (t : Nat) (s : State) : Host.Outcome State Fault Refusal :=
  s.act (.keptReplyExpiry t) t (Dev.whenRuns Dev.keptExpiry)

/-- CMD_PRODUCER_WRITE (R52): The host advances CMD_PRODUCER, and the module takes command slots. -/
def execCmdProducerWrite (t : Nat) (value : Word) (slots : List (List Byte)) (s : State) : Host.Outcome State Fault Refusal :=
  s.act (.cmdProducerWrite t value slots) t (Dev.whenRuns (Dev.producerWrite value slots))

/-- RPL_CONSUMER_WRITE (R52): The host advances RPL_CONSUMER, freeing reply slots. -/
def execRplConsumerWrite (t : Nat) (value : Word) (s : State) : Host.Outcome State Fault Refusal :=
  s.act (.rplConsumerWrite t value) t (Dev.whenRuns (Dev.consumerWrite value))

/-- CTRL_ENABLE (R51): A write to CTRL bit 0 enables or disables the PCIe rings. -/
def execCtrlEnable (t : Nat) (enable : Bool) (s : State) : Host.Outcome State Fault Refusal :=
  s.act (.ctrlEnable t enable) t (Dev.whenRuns (Dev.ctrlEnable enable))

/-- RESET_RINGS (R51): A write to CTRL bit 1 sets the ring indices to zero and clears RING_ERROR. -/
def execResetRings (t : Nat) (s : State) : Host.Outcome State Fault Refusal :=
  s.act (.resetRings t) t (Dev.whenRuns Dev.resetRings)

/-- IRQ_STATUS_CLEAR (R51): A write of 1s to IRQ_STATUS clears interrupt bits. -/
def execIrqStatusClear (t : Nat) (mask : Word) (s : State) : Host.Outcome State Fault Refusal :=
  s.act (.irqStatusClear t mask) t (Dev.whenRuns (Dev.irqClear mask))

/-- REGISTER_WRITE (R51): A write to a BAR0 register that has no behaviour of its own. -/
def execRegisterWrite (t : Nat) (offset : Nat) (value : Word) (s : State) : Host.Outcome State Fault Refusal :=
  s.act (.registerWrite t offset value) t (Dev.whenRuns (Dev.bar0Write offset value))

/-- PCIE_PERST (R519): PCIE_PERST_N resets the PCIe link only, dropping outstanding PCIe replies. -/
def execPciePerst (t : Nat) (s : State) : Host.Outcome State Fault Refusal :=
  s.act (.pciePerst t) t (Dev.whenRuns Dev.perst)

/-- REPLY_QUEUED_ON_SPACE (R36): A held reply enters the reply queue once space frees. -/
def execReplyQueuedOnSpace (t : Nat) (s : State) : Host.Outcome State Fault Refusal :=
  s.act (.replyQueuedOnSpace t) t (Dev.whenRuns Dev.replyOnSpace)

/-- QUEUE_IDLE (R35): A non-empty queue has not been read for its idle time, and its reader is notified. -/
def execQueueIdle (t : Nat) (queue : Nat) (s : State) : Host.Outcome State Fault Refusal :=
  s.act (.queueIdle t queue) t (Dev.whenRuns (Dev.queueIdle queue))

end Sys2Proof.Machine
end

