-- ==== Sys2Proof/Machine/CmdFrame.lean ====
section
/-! DEFINITION. Machine/CmdFrame.lean: the meanings of the commands of the frame, its sub-ticks and slots (01, 06, 07, 08, 09, 10): each one line over the shared operations. -/

namespace Sys2Proof.Machine

open Sys2Proof

/-- FRAME_TICK (R9): Device time reaches a whole multiple of 20 ms and a new frame starts, carrying out the tick
actions in the order of R20. -/
def execFrameTick (t : Nat) (m : MemoryIn) (s : State) : Host.Outcome State Fault Refusal :=
  s.act (.frameTick t m) t (Dev.whenRuns (Dev.frameTick m))

/-- PPS_PULSE_END (R334): PPS_WIDTH runs out and PPS_OUT falls. -/
def execPpsPulseEnd (t : Nat) (s : State) : Host.Outcome State Fault Refusal :=
  s.act (.ppsPulseEnd t) t (Dev.whenRuns Dev.ppsEnd)

/-- STEP_WAIT_EXPIRY (R328): STEP_WAIT after reset runs out, and GNSS becomes acceptable for the first step. -/
def execStepWaitExpiry (t : Nat) (s : State) : Host.Outcome State Fault Refusal :=
  s.act (.stepWaitExpiry t) t (Dev.whenRuns Dev.stepWait)

/-- SUB_TICK (R21): A 1 ms sub-tick boundary is reached: acquisition outputs are delivered and the control-engine pass
starts. -/
def execSubTick (t : Nat) (m : SubTickIn) (s : State) : Host.Outcome State Fault Refusal :=
  s.act (.subTick t m) t (Dev.whenRuns (Dev.subTick m))

/-- PASS_OVERRUN (R25): At s+0.25 ms an unfinished pass is abandoned, and 0106h is raised (010Ah on the third in a row). -/
def execPassOverrun (t : Nat) (firstLoop : Nat) (s : State) : Host.Outcome State Fault Refusal :=
  s.actInPass (.passOverrun t firstLoop) t (Dev.whenRuns (Dev.overrunSlot firstLoop))

/-- OUTPUT_CLAMPED_LONG (R284): A loop output has been clamped for 1,000 consecutive passes. -/
def execOutputClampedLong (t : Nat) (loop : Nat) (s : State) : Host.Outcome State Fault Refusal :=
  s.act (.outputClampedLong t loop) t (Dev.whenRuns (Dev.clampedLong loop))

/-- RELEASE_HOLD_EXPIRY (R312): Frequency and RoCoF have held for RELEASE_HOLD, and the island moves to RELEASING. -/
def execReleaseHoldExpiry (t : Nat) (island : Nat) (s : State) : Host.Outcome State Fault Refusal :=
  s.act (.releaseHoldExpiry t island) t (Dev.whenRuns (Dev.releaseHold island))

/-- PMS_FALLBACK (R303): Generator points have not been GOOD for PMS_HOLD, and the island enters PMS fallback. -/
def execPmsFallback (t : Nat) (island : Nat) (s : State) : Host.Outcome State Fault Refusal :=
  s.act (.pmsFallback t island) t (Dev.whenRuns (Dev.pmsFallback island))

/-- FEED_INVALID (R402): A feed has been outside 17.0 to 37.0 V for 1 ms and becomes invalid. -/
def execFeedInvalid (t : Nat) (feed : Nat) (volts : Nat) (s : State) : Host.Outcome State Fault Refusal :=
  s.act (.feedInvalid t feed volts) t (Dev.feedFalls feed volts)

/-- FEED_VALID (R402): A feed has been within 18.0 to 36.0 V for 100 ms and becomes valid again. -/
def execFeedValid (t : Nat) (feed : Nat) (volts : Nat) (s : State) : Host.Outcome State Fault Refusal :=
  s.act (.feedValid t feed volts) t (Dev.feedRises feed volts)

/-- FUSION_OUTPUT (R173): At t0+4 ms the vessel state record is handed to the solver and the fusion points are written. -/
def execFusionOutput (t : Nat) (late : Bool) (s : State) : Host.Outcome State Fault Refusal :=
  s.act (.fusionOutput t late) t (Dev.whenRuns (Dev.fusionSlot late))

/-- SOLVE_ITERATION_COMPLETE (R220): A solver iteration completes, and the residuals are tested for convergence. -/
def execSolveIterationComplete (t : Nat) (s : State) : Host.Outcome State Fault Refusal :=
  s.act (.solveIterationComplete t) t (Dev.whenRuns Dev.iterationSlot)

/-- SOLVE_DEADLINE (R222): The main-solve deadline arrives and the outcome is EARLY or SHIFTED. -/
def execSolveDeadline (t : Nat) (s : State) : Host.Outcome State Fault Refusal :=
  s.act (.solveDeadline t) t (Dev.whenRuns Dev.deadlineSlot)

/-- REFINEMENT_WINDOW_START (R240): Online model refinement starts or resumes at t0+0.2 ms. -/
def execRefinementWindowStart (t : Nat) (s : State) : Host.Outcome State Fault Refusal :=
  s.act (.refinementWindowStart t) t (Dev.whenRuns Dev.refineFromSlot)

/-- REFINEMENT_WINDOW_END (R240): Model refinement is suspended at t0+3.8 ms. -/
def execRefinementWindowEnd (t : Nat) (s : State) : Host.Outcome State Fault Refusal :=
  s.act (.refinementWindowEnd t) t (Dev.whenRuns Dev.refineToSlot)

/-- JOYSTICK_TIMEOUT (R239): No JOYSTICK_SET has come for JOY_TIMEOUT, and the stick demands become zero. -/
def execJoystickTimeout (t : Nat) (s : State) : Host.Outcome State Fault Refusal :=
  s.act (.joystickTimeout t) t (Dev.whenRuns Dev.joyTimeout)

/-- HANDOFF (R15): At t0+15 ms the allocation is handed to the inner loops, and what-if work is suspended. -/
def execHandoff (t : Nat) (readable : Bool) (s : State) : Host.Outcome State Fault Refusal :=
  s.act (.handoff t readable) t (Dev.whenRuns (Dev.handoffSlot readable))

/-- COMMAND_QUEUE_CUTOFF (R15): At t0+15.8 ms thruster frames not yet queued are dropped for the frame, and 0104h is
raised. -/
def execCommandQueueCutoff (t : Nat) (notQueued : BitVec 24) (s : State) : Host.Outcome State Fault Refusal :=
  s.act (.commandQueueCutoff t notQueued) t (Dev.whenRuns (Dev.cutoffSlot notQueued))

/-- LAUNCH (R15): At t0+16 ms command frames are launched, the lease is renewed, the heartbeat is sent and the tail
slot begins. -/
def execLaunch (t : Nat) (served : Bool) (s : State) : Host.Outcome State Fault Refusal :=
  s.act (.launch t served) t (Dev.whenRuns (Dev.launchSlot served))

/-- TAIL_SLOT_END (R15): At t0+19.6 ms the mirror is closed, tail work is suspended and the validation window opens. -/
def execTailSlotEnd (t : Nat) (s : State) : Host.Outcome State Fault Refusal :=
  s.act (.tailSlotEnd t) t (Dev.whenRuns Dev.tailSlot)

/-- COMMIT_RESULT_TIMEOUT (R71): No COMMIT_RESULT has arrived by t0+19.9 ms, and the partner's member gets TIMEOUT. -/
def execCommitResultTimeout (t : Nat) (s : State) : Host.Outcome State Fault Refusal :=
  s.act (.commitResultTimeout t) t (Dev.whenRuns Dev.commitResultTimeout)

/-- WHATIF_COMPLETE (R263): A what-if solve completes and is judged against the capability conditions. -/
def execWhatifComplete (t : Nat) (s : State) : Host.Outcome State Fault Refusal :=
  s.act (.whatifComplete t) t (Dev.whenRuns Dev.whatifComplete)

/-- CYCLE_OVERDUE (R261): The cycle in progress exceeds STRETCH_LIMIT and 0805h is raised. -/
def execCycleOverdue (t : Nat) (s : State) : Host.Outcome State Fault Refusal :=
  s.act (.cycleOverdue t) t (Dev.whenRuns Dev.cycleOverdue)

/-- RESULT_STALE (R266): A group's result passes AGE_LIMIT and becomes STALE. -/
def execResultStale (t : Nat) (group : Nat) (s : State) : Host.Outcome State Fault Refusal :=
  s.act (.resultStale t group) t (Dev.whenRuns (Dev.resultStale group))

end Sys2Proof.Machine
end

