-- ==== Sys2Proof/Machine/CmdHardware.lean ====
section
/-! DEFINITION. Machine/CmdHardware.lean: the meanings of the commands of power, reset and the board (17, 18): each one line over the shared operations. -/

namespace Sys2Proof.Machine

open Sys2Proof

/-- POWER_UP (R494): A feed rises through 18.0 V and start-up runs to Table 17.5. -/
def execPowerUp (t : Nat) (bezel1 : Word) (bezel2 : Word) (phyFaults : BitVec 4) (holdup : Nat) (diode : Option Int) (s : State) : Host.Outcome State Fault Refusal :=
  s.act (.powerUp t bezel1 bezel2 phyFaults holdup diode) t (Dev.powerUp bezel1 bezel2 phyFaults holdup diode)

/-- RST_N_ASSERT (R499): RST_N is held low for 10 µs or more and resets the module. -/
def execRstNAssert (t : Nat) (lowNs : Nat) (s : State) : Host.Outcome State Fault Refusal :=
  s.act (.rstNAssert t lowNs) t (Dev.rstAssert lowNs)

/-- RST_N_RELEASE (R494): RST_N is released and start-up runs from the 15 ms row. -/
def execRstNRelease (t : Nat) (bezel1 : Word) (bezel2 : Word) (diode : Option Int) (s : State) : Host.Outcome State Fault Refusal :=
  s.act (.rstNRelease t bezel1 bezel2 diode) t (Dev.rstRelease bezel1 bezel2 diode)

/-- RESET_STUCK (R501): RST_N has been low for 5 s; the start is forced. -/
def execResetStuck (t : Nat) (bezel1 : Word) (bezel2 : Word) (diode : Option Int) (s : State) : Host.Outcome State Fault Refusal :=
  s.act (.resetStuck t bezel1 bezel2 diode) t (Dev.resetStuck bezel1 bezel2 diode)

/-- RESET_OBEYED (R501): RST_N has been high for 100 ms after a stuck reset, and it is obeyed again. -/
def execResetObeyed (t : Nat) (s : State) : Host.Outcome State Fault Refusal :=
  s.act (.resetObeyed t) t (Dev.whenPowered Dev.resetObeyed)

/-- SUPERVISOR_WATCHDOG (R498): A supervisor watchdog or lockstep disagreement resets the module. -/
def execSupervisorWatchdog (t : Nat) (s : State) : Host.Outcome State Fault Refusal :=
  s.act (.supervisorWatchdog t) t (Dev.whenPowered (Dev.restart 2))

/-- UNIT_READY (R495): The supervisor first takes a request and unit ready is declared. -/
def execUnitReady (t : Nat) (s : State) : Host.Outcome State Fault Refusal :=
  s.act (.unitReady t) t (Dev.whenRuns Dev.unitReady)

/-- HOLDUP_EXHAUSTED (R511): The hold-up storage reaches its floor and the module resets. -/
def execHoldupExhausted (t : Nat) (s : State) : Host.Outcome State Fault Refusal :=
  s.act (.holdupExhausted t) t Dev.holdupExhausted

/-- VIO_OUT (R514): A VIO bank has been out of range for 1 ms. -/
def execVioOut (t : Nat) (bank : Nat) (mv : Nat) (s : State) : Host.Outcome State Fault Refusal :=
  s.act (.vioOut t bank mv) t (Dev.whenPowered (Dev.vioIsOut bank mv))

/-- VIO_RESTORED (R514): A VIO bank has been back in range for 10 ms. -/
def execVioRestored (t : Nat) (bank : Nat) (s : State) : Host.Outcome State Fault Refusal :=
  s.act (.vioRestored t bank) t (Dev.whenPowered (Dev.vioIsBack bank))

/-- OSC_WARM (R522): The oven oscillator reaches its warm stability. -/
def execOscWarm (t : Nat) (secs : Nat) (s : State) : Host.Outcome State Fault Refusal :=
  s.act (.oscWarm t secs) t (Dev.oscIsWarm secs)

/-- OSC_FAULT (R522): The oven control reaches its limit or the frequency is off. -/
def execOscFault (t : Nat) (kind : Nat) (ppb : Int) (s : State) : Host.Outcome State Fault Refusal :=
  s.act (.oscFault t kind ppb) t (Dev.whenPowered (Dev.oscFails kind ppb))

/-- DRAM_ECC_ERROR (R529): An LPDDR4 ECC error is corrected or found uncorrectable. -/
def execDramEccError (t : Nat) (addr : Word) (uncorrectable : Bool) (s : State) : Host.Outcome State Fault Refusal :=
  s.act (.dramEccError t addr uncorrectable) t (Dev.whenPowered (Dev.dramError addr uncorrectable))

/-- DEBUG_PORT_ACCESS (R489): An access on the VIO4 debug port is ignored, served read-only or served in full
according to the open level. -/
def execDebugPortAccess (t : Nat) (a : DebugAccess) (s : State) : Host.Outcome State Fault Refusal :=
  s.act (.debugPortAccess t a) t (Dev.whenPowered (Dev.debugAccess a))

end Sys2Proof.Machine
end

