-- ==== Sys2Proof/Machine/CmdHealth.lean ====
section
/-! DEFINITION. Machine/CmdHealth.lean: the meanings of the commands of temperature, self-test, faults and Locket (15, 16): each one line over the shared operations. -/

namespace Sys2Proof.Machine

open Sys2Proof

/-- DIODE_CONVERSION_COMPLETE (R436): A diode conversion completes and is checked against the sites. -/
def execDiodeConversionComplete (t : Nat) (reading : Option Int) (s : State) : Host.Outcome State Fault Refusal :=
  s.act (.diodeConversionComplete t reading) t (Dev.whenRuns (Dev.diodeComplete reading))

/-- DIODE_RECHECK (R436): RECHECK_PERIOD runs out while a site is failed, and a diode check starts. -/
def execDiodeRecheck (t : Nat) (s : State) : Host.Outcome State Fault Refusal :=
  s.act (.diodeRecheck t) t (Dev.whenRuns Dev.diodeRecheck)

/-- THERMAL_RESET (R443): At D + 5 ms the monitor holds the module in reset. -/
def execThermalReset (t : Nat) (s : State) : Host.Outcome State Fault Refusal :=
  s.act (.thermalReset t) t (Dev.whenPowered Dev.thermalReset)

/-- THERMAL_OFF_DIODE_READ (R444): In thermal-off, the diode is read every 1 s and the module is released when it is
cool. -/
def execThermalOffDiodeRead (t : Nat) (reading : Option Int) (s : State) : Host.Outcome State Fault Refusal :=
  s.act (.thermalOffDiodeRead t reading) t (Dev.thermalOffRead reading)

/-- RATE_ALERT_CLEAR (R440): r_max has stayed at or below 1.0 °C/s for 10 s and the alert clears. -/
def execRateAlertClear (t : Nat) (s : State) : Host.Outcome State Fault Refusal :=
  s.act (.rateAlertClear t) t (Dev.whenRuns Dev.alertClear)

/-- SELFTEST_COMPLETE (R447): A domain's scan and restore finish, and it passes or fails. -/
def execSelftestComplete (t : Nat) (r : ScanResult) (s : State) : Host.Outcome State Fault Refusal :=
  s.act (.selftestComplete t r) t (Dev.whenRuns (Dev.selftestComplete r))

/-- AUTO_SELFTEST_DUE (R450): AUTO_TEST_PERIOD runs out and the next domain's test falls due. -/
def execAutoSelftestDue (t : Nat) (s : State) : Host.Outcome State Fault Refusal :=
  s.act (.autoSelftestDue t) t (Dev.whenRuns Dev.autoDue)

/-- FAULT_ENTRY_HANDLED (R453): The fault manager handles a queued entry in its three steps. -/
def execFaultEntryHandled (t : Nat) (s : State) : Host.Outcome State Fault Refusal :=
  s.act (.faultEntryHandled t) t (Dev.whenRuns Dev.faultHandled)

/-- FAULT_HOLD_EXPIRY (R454): A fault with no stated end leaves the table after FAULT_HOLD. -/
def execFaultHoldExpiry (t : Nat) (code : Nat) (source : Nat) (s : State) : Host.Outcome State Fault Refusal :=
  s.act (.faultHoldExpiry t code source) t (Dev.whenRuns (Dev.faultExpire code source))

/-- PRIORITY_LANE_WRITE (R464): A priority-lane entry is written to MRAM within 1 ms of its raise. -/
def execPriorityLaneWrite (t : Nat) (s : State) : Host.Outcome State Fault Refusal :=
  s.act (.priorityLaneWrite t) t (Dev.whenRuns Dev.laneWrite)

/-- LOST_RECORD (R468): The loss latch enters the front queue as a LOST record once an entry is free. -/
def execLostRecord (t : Nat) (s : State) : Host.Outcome State Fault Refusal :=
  s.act (.lostRecord t) t (Dev.whenRuns Dev.lostRecord)

/-- LOCKET_SCRUB (R472): The whole Locket store is scrubbed every 24 h. -/
def execLocketScrub (t : Nat) (bad : List Nat) (s : State) : Host.Outcome State Fault Refusal :=
  s.act (.locketScrub t bad) t (Dev.whenRuns (Dev.locketScrub bad))

/-- OP_SECONDS_WRITE (R463): OP_SECONDS is written to MRAM every 60 s. -/
def execOpSecondsWrite (t : Nat) (s : State) : Host.Outcome State Fault Refusal :=
  s.act (.opSecondsWrite t) t (Dev.whenRuns Dev.opWrite)

end Sys2Proof.Machine
end

