-- ==== Sys2Proof/Machine/CmdMeasure.lean ====
section
/-! DEFINITION. Machine/CmdMeasure.lean: the meanings of the commands of acquisition, ranging, fusion and refinement (04, 05, 06, 07): each one line over the shared operations. -/

namespace Sys2Proof.Machine

open Sys2Proof

/-- SAMPLE_PORT_FRAME (R108): A sample-port frame is received, checked and fed into its chains. -/
def execSamplePortFrame (t : Nat) (port : Nat) (slots : List Word) (stalled : Bool) (s : State) : Host.Outcome State Fault Refusal :=
  s.act (.samplePortFrame t port slots stalled) t (Dev.whenRuns (Dev.portFrame port slots stalled))

/-- RESAMPLER_NO_CROSSING (R126): 50 ms pass without a crossing and the resampler unlocks. -/
def execResamplerNoCrossing (t : Nat) (u : Nat) (s : State) : Host.Outcome State Fault Refusal :=
  s.act (.resamplerNoCrossing t u) t (Dev.whenRuns (Dev.rsNoCross u))

/-- LINK_FRAME (R140): A GNSS link frame is received, checked and time-stamped. -/
def execLinkFrame (t : Nat) (link : Nat) (f : LinkFrame) (s : State) : Host.Outcome State Fault Refusal :=
  s.act (.linkFrame t link f) t (Dev.whenRuns (Dev.linkFrame link f))

/-- ACQUISITION_PASS (R144): A pass of the correlator bank completes for the searches packed into it. -/
def execAcquisitionPass (t : Nat) (s : State) : Host.Outcome State Fault Refusal :=
  s.act (.acquisitionPass t) t (Dev.whenRuns Dev.acquisitionPass)

/-- TRACKING_LOSS_OF_LOCK (R148): A channel's lock indicator stays below threshold, and the channel loses lock. -/
def execTrackingLossOfLock (t : Nat) (ant : Nat) (ch : Nat) (s : State) : Host.Outcome State Fault Refusal :=
  s.act (.trackingLossOfLock t ant ch) t (Dev.whenRuns (Dev.lossOfLock ant ch))

/-- REACQUISITION_EXPIRY (R148): 10 s of reacquisition pass and the channel is released. -/
def execReacquisitionExpiry (t : Nat) (ant : Nat) (ch : Nat) (s : State) : Host.Outcome State Fault Refusal :=
  s.act (.reacquisitionExpiry t ant ch) t (Dev.whenRuns (Dev.reacqExpiry ant ch))

/-- GNSS_SOLUTION_COMPLETE (R154): The position, time and attitude solution of the latch is finished. -/
def execGnssSolutionComplete (t : Nat) (s : State) : Host.Outcome State Fault Refusal :=
  s.act (.gnssSolutionComplete t) t (Dev.whenRuns Dev.solutionComplete)

/-- GNSS_SOLUTION_DEADLINE (R153): At t0+2.0 ms fusion takes the latch; an unfinished solution is abandoned with 050Ah. -/
def execGnssSolutionDeadline (t : Nat) (s : State) : Host.Outcome State Fault Refusal :=
  s.act (.gnssSolutionDeadline t) t (Dev.whenRuns Dev.solutionDeadline)

/-- CORRECTION_DATAGRAM (R162): A UDP datagram of an RTCM 3 correction stream arrives and is decoded. -/
def execCorrectionDatagram (t : Nat) (iface : Nat) (dstPort : Nat) (bytes : List Byte) (s : State) : Host.Outcome State Fault Refusal :=
  s.act (.correctionDatagram t iface dstPort bytes) t (Dev.whenRuns (Dev.corrDatagram iface dstPort bytes))

/-- CORRECTIONS_STALE (R164): A stream's newest epoch passes CORR_MAX_AGE. -/
def execCorrectionsStale (t : Nat) (stream : Nat) (s : State) : Host.Outcome State Fault Refusal :=
  s.act (.correctionsStale t stream) t (Dev.whenRuns (Dev.corrStale stream))

/-- GNSS_STORE_WRITE (R167): Almanac, ephemerides and position are written every 10 minutes. -/
def execGnssStoreWrite (t : Nat) (s : State) : Host.Outcome State Fault Refusal :=
  s.act (.gnssStoreWrite t) t (Dev.whenRuns Dev.gnssStoreWrite)

/-- REF_MAXGAP_EXPIRY (R175): A reference slot without a sample for REF_MAXGAP becomes unavailable. -/
def execRefMaxgapExpiry (t : Nat) (slot : Nat) (s : State) : Host.Outcome State Fault Refusal :=
  s.act (.refMaxgapExpiry t slot) t (Dev.whenRuns (Dev.maxgap slot))

/-- CONFLICT_EXPIRED (R185): A conflict lasts CONFLICT_TIME, and 0605h is raised. -/
def execConflictExpired (t : Nat) (cls : Nat) (s : State) : Host.Outcome State Fault Refusal :=
  s.act (.conflictExpired t cls) t (Dev.whenRuns (Dev.conflictExpired cls))

/-- CONFLICT_CLEARED (R185): The pair test has passed for READMIT_TIME and the conflict ends. -/
def execConflictCleared (t : Nat) (cls : Nat) (s : State) : Host.Outcome State Fault Refusal :=
  s.act (.conflictCleared t cls) t (Dev.whenRuns (Dev.conflictCleared cls))

/-- REFERENCE_READMIT (R186): A REJECTED or PROBATION reference has passed its tests for READMIT_TIME and is admitted. -/
def execReferenceReadmit (t : Nat) (cls : Nat) (slot : Nat) (s : State) : Host.Outcome State Fault Refusal :=
  s.act (.referenceReadmit t cls slot) t (Dev.whenRuns (Dev.readmit cls slot))

/-- FUSION_SETTLED (R201): The sigmas lie below their limits after 250 frames, and settling ends. -/
def execFusionSettled (t : Nat) (s : State) : Host.Outcome State Fault Refusal :=
  s.act (.fusionSettled t) t (Dev.whenRuns Dev.fusionSettled)

/-- REFINED_MODEL_STORE_WRITE (R241): Every 10 minutes the refined vessel parameters are written to the configuration
store area of R101. -/
def execRefinedModelStoreWrite (t : Nat) (s : State) : Host.Outcome State Fault Refusal :=
  s.act (.refinedModelStoreWrite t) t (Dev.whenRuns Dev.refineStore)

end Sys2Proof.Machine
end

