-- ==== Sys2Proof/Machine/CmdNetwork.lean ====
section
/-! DEFINITION. Machine/CmdNetwork.lean: the meanings of the commands of flows, time and Ethernet (03, 11): each one line over the shared operations. -/

namespace Sys2Proof.Machine

open Sys2Proof

/-- ETH_FRAME_RECEIVED (R531): A received Ethernet frame passes duplicate discard and is offered to the subscribe
contexts. -/
def execEthFrameReceived (t : Nat) (port : Nat) (f : EthFrame) (s : State) : Host.Outcome State Fault Refusal :=
  s.act (.ethFrameReceived t port f) t (Dev.whenRuns (Dev.ethReceived port f))

/-- FLOW_TIMEOUT (R96): A subscribe context reaches TIMEOUT and enters STALE. -/
def execFlowTimeout (t : Nat) (ctx : Nat) (s : State) : Host.Outcome State Fault Refusal :=
  s.act (.flowTimeout t ctx) t (Dev.whenRuns (Dev.flowTimeout ctx))

/-- FLOW_BAD_AFTER (R96): A subscribe context reaches BAD_AFTER and enters DOWN. -/
def execFlowBadAfter (t : Nat) (ctx : Nat) (s : State) : Host.Outcome State Fault Refusal :=
  s.act (.flowBadAfter t ctx) t (Dev.whenRuns (Dev.flowBadAfter ctx))

/-- ACK_FRAME_RECEIVED (R346): A drive acknowledgement frame on Ethernet is matched to the command records. -/
def execAckFrameReceived (t : Nat) (port : Nat) (f : EthFrame) (s : State) : Host.Outcome State Fault Refusal :=
  s.act (.ackFrameReceived t port f) t (Dev.whenRuns (Dev.ackFrame port f))

/-- PTP_MESSAGE_RECEIVED (R336): A PTP message is stamped and processed, or corrected and forwarded as a transparent
clock. -/
def execPtpMessageReceived (t : Nat) (port : Nat) (m : PtpIn) (s : State) : Host.Outcome State Fault Refusal :=
  s.act (.ptpMessageReceived t port m) t (Dev.whenRuns (Dev.ptpReceive port m.domain m.msg))

/-- PTP_MESSAGE_SEND (R336): A Sync, Announce or Pdelay_Req interval runs out and the message is sent. -/
def execPtpMessageSend (t : Nat) (port : Nat) (k : PtpSend) (s : State) : Host.Outcome State Fault Refusal :=
  s.act (.ptpMessageSend t port k) t (Dev.whenRuns (Dev.ptpSend port k))

/-- ANNOUNCE_TIMEOUT (R338): The SLAVE port loses Announce and the PASSIVE port becomes SLAVE. -/
def execAnnounceTimeout (t : Nat) (port : Nat) (s : State) : Host.Outcome State Fault Refusal :=
  s.act (.announceTimeout t port) t (Dev.whenRuns (Dev.announceLost port))

/-- PPS_IN_EDGE (R335): A PPS_IN edge is stamped and checked for the holdover aid. -/
def execPpsInEdge (t : Nat) (rising : Bool) (s : State) : Host.Outcome State Fault Refusal :=
  s.act (.ppsInEdge t rising) t (Dev.whenRuns (Dev.ppsIn rising))

/-- REF10_INVALID (R335): REF10_IN leaves its validity band. -/
def execRef10Invalid (t : Nat) (s : State) : Host.Outcome State Fault Refusal :=
  s.act (.ref10Invalid t) t (Dev.whenRuns Dev.ref10Bad)

/-- LAUNCH_QUEUE_LAUNCH (R342): A launch-queue entry reaches its launch time and leaves its port. -/
def execLaunchQueueLaunch (t : Nat) (queue : Nat) (s : State) : Host.Outcome State Fault Refusal :=
  s.act (.launchQueueLaunch t queue) t (Dev.whenRuns (Dev.launchDue queue))

/-- SUPERVISION_FRAME_SEND (R347): An HSR or PRP supervision frame is sent every LIFE_CHECK. -/
def execSupervisionFrameSend (t : Nat) (s : State) : Host.Outcome State Fault Refusal :=
  s.act (.supervisionFrameSend t) t (Dev.whenRuns Dev.supervise)

/-- RING_OPEN (R347): Supervision frames fail to return within 2 × LIFE_CHECK, and the ring is OPEN. -/
def execRingOpen (t : Nat) (s : State) : Host.Outcome State Fault Refusal :=
  s.act (.ringOpen t) t (Dev.whenRuns Dev.ringOpens)

/-- NODE_FORGET (R347): An HSR node or discard entry is forgotten after its hold time. -/
def execNodeForget (t : Nat) (s : State) : Host.Outcome State Fault Refusal :=
  s.act (.nodeForget t) t (Dev.whenRuns Dev.forget)

/-- PORT_LINK_CHANGE (R347): An Ethernet port's link goes up or down. -/
def execPortLinkChange (t : Nat) (port : Nat) (up : Bool) (s : State) : Host.Outcome State Fault Refusal :=
  s.act (.portLinkChange t port up) t (Dev.whenRuns (Dev.linkChange port up))

/-- BYPASS_MISMATCH (R349): Relay coil and read-back have disagreed for 20 ms. -/
def execBypassMismatch (t : Nat) (relay : Nat) (s : State) : Host.Outcome State Fault Refusal :=
  s.act (.bypassMismatch t relay) t (Dev.whenRuns (Dev.bypassBad relay))

/-- REF10_VALID (R326): REF10_IN returns within 10 ppm of 10 MHz and becomes valid again as a holdover aid. -/
def execRef10Valid (t : Nat) (s : State) : Host.Outcome State Fault Refusal :=
  s.act (.ref10Valid t) t (Dev.whenRuns Dev.ref10Good)

end Sys2Proof.Machine
end

