-- ==== Sys2Proof/Machine/CmdPair.lean ====
section
/-! DEFINITION. Machine/CmdPair.lean: the meanings of the commands of the pair of units (13, 02 R71): each one line over the shared operations. -/

namespace Sys2Proof.Machine

open Sys2Proof

/-- HEARTBEAT_RECEIVED (R378): A partner HEARTBEAT is taken from a Clasp lane. -/
def execHeartbeatReceived (t : Nat) (lane : Nat) (bytes : List Byte) (s : State) : Host.Outcome State Fault Refusal :=
  s.act (.heartbeatReceived t lane bytes) t (Dev.whenReady (Dev.beatReceived lane bytes))

/-- RELEASE_RECEIVED (R377): A RELEASE message is taken from the partner. -/
def execReleaseReceived (t : Nat) (lane : Nat) (bytes : List Byte) (s : State) : Host.Outcome State Fault Refusal :=
  s.act (.releaseReceived t lane bytes) t (Dev.whenReady (Dev.releaseReceived bytes))

/-- MIRROR_SEGMENT_RECEIVED (R380): A mirror segment part is taken and the mirror is rebuilt. -/
def execMirrorSegmentReceived (t : Nat) (lane : Nat) (bytes : List Byte) (s : State) : Host.Outcome State Fault Refusal :=
  s.act (.mirrorSegmentReceived t lane bytes) t (Dev.whenReady (Dev.mirrorReceived bytes))

/-- COMMIT_RECEIVED (R71): A COMMIT message is validated against the mirrored staging copy. -/
def execCommitReceived (t : Nat) (lane : Nat) (bytes : List Byte) (s : State) : Host.Outcome State Fault Refusal :=
  s.act (.commitReceived t lane bytes) t (Dev.whenReady (Dev.commitReceived bytes))

/-- COMMIT_RESULT_RECEIVED (R71): The partner's COMMIT_RESULT is taken for the commit's PARTIAL outcome. -/
def execCommitResultReceived (t : Nat) (lane : Nat) (bytes : List Byte) (s : State) : Host.Outcome State Fault Refusal :=
  s.act (.commitResultReceived t lane bytes) t (Dev.whenReady (Dev.commitResult bytes))

/-- CONFIG_IMAGE_RECEIVED (R392): CONFIG_IMAGE parts are taken for resynchronisation. -/
def execConfigImageReceived (t : Nat) (lane : Nat) (bytes : List Byte) (s : State) : Host.Outcome State Fault Refusal :=
  s.act (.configImageReceived t lane bytes) t (Dev.whenReady (Dev.imageReceived bytes))

/-- FLOW_STATE_RECEIVED (R103): A FLOW_STATE message updates the standby's UP contexts. -/
def execFlowStateReceived (t : Nat) (lane : Nat) (bytes : List Byte) (s : State) : Host.Outcome State Fault Refusal :=
  s.act (.flowStateReceived t lane bytes) t (Dev.whenReady (Dev.flowStateReceived bytes))

/-- LEASE_EXPIRY (R382): The hardware lease timer expires. -/
def execLeaseExpiry (t : Nat) (s : State) : Host.Outcome State Fault Refusal :=
  s.act (.leaseExpiry t) t (Dev.whenRuns Dev.leaseExpires)

/-- FENCE_ACK (R384): The supervisor acknowledges an expiry fence and RELEASE is sent. -/
def execFenceAck (t : Nat) (s : State) : Host.Outcome State Fault Refusal :=
  s.act (.fenceAck t) t (Dev.whenRuns Dev.fenceAck)

/-- FENCE_ACK_TIMEOUT (R384): No acknowledgement within 20 ms, and the Clasp hardware resets the unit. -/
def execFenceAckTimeout (t : Nat) (s : State) : Host.Outcome State Fault Refusal :=
  s.act (.fenceAckTimeout t) t (Dev.whenRuns Dev.fenceAckTimeout)

/-- OWN_IN_EDGE (R376): A valid OWN_IN edge arrives; after 3 edges OWN_IN reads asserted. -/
def execOwnInEdge (t : Nat) (s : State) : Host.Outcome State Fault Refusal :=
  s.act (.ownInEdge t) t (Dev.whenRuns Dev.ownEdge)

/-- OWN_IN_TIMEOUT (R376): No valid edge for 300 µs, and OWN_IN reads deasserted. -/
def execOwnInTimeout (t : Nat) (s : State) : Host.Outcome State Fault Refusal :=
  s.act (.ownInTimeout t) t (Dev.whenRuns Dev.ownQuiet)

/-- SECOND_OWNER (R387): OWN_IN is asserted for 1 ms while the lease is held. -/
def execSecondOwner (t : Nat) (s : State) : Host.Outcome State Fault Refusal :=
  s.act (.secondOwner t) t (Dev.whenRuns Dev.secondOwner)

/-- PARTNER_LOST (R381): No heartbeat for 80 ms, and the partner is absent. -/
def execPartnerLost (t : Nat) (s : State) : Host.Outcome State Fault Refusal :=
  s.act (.partnerLost t) t (Dev.whenRuns Dev.partnerLost)

/-- LANE_DOWN (R381): A lane is down after 3 frames without a valid heartbeat. -/
def execLaneDown (t : Nat) (lane : Nat) (s : State) : Host.Outcome State Fault Refusal :=
  s.act (.laneDown t lane) t (Dev.whenRuns (Dev.laneDown lane))

/-- CLAIM_WAIT_EXPIRY (R394): The start-up claim-wait ends, and the unit claims in IDLE. -/
def execClaimWaitExpiry (t : Nat) (s : State) : Host.Outcome State Fault Refusal :=
  s.act (.claimWaitExpiry t) t (Dev.whenRuns Dev.claimWaitEnds)

/-- ORPHAN_SOLO (R393): No heartbeat for ORPHAN_TIME, and the unit becomes SOLO in IDLE. -/
def execOrphanSolo (t : Nat) (s : State) : Host.Outcome State Fault Refusal :=
  s.act (.orphanSolo t) t (Dev.whenRuns Dev.orphanSolo)

/-- RETURN_HOLDOFF_EXPIRY (R397): The preferred standby's hold-off runs out and RETURN_REQ is set. -/
def execReturnHoldoffExpiry (t : Nat) (s : State) : Host.Outcome State Fault Refusal :=
  s.act (.returnHoldoffExpiry t) t (Dev.whenRuns Dev.holdoffEnds)

/-- RESYNC_RETRY (R392): A failed resynchronisation is retried after 10 s. -/
def execResyncRetry (t : Nat) (s : State) : Host.Outcome State Fault Refusal :=
  s.act (.resyncRetry t) t (Dev.whenRuns Dev.resyncRetry)

/-- OWNERSHIP_MISMATCH (R401): OWN_IN and heartbeats disagree for their timeout, and 0D0Dh is raised. -/
def execOwnershipMismatch (t : Nat) (kind : Nat) (s : State) : Host.Outcome State Fault Refusal :=
  s.act (.ownershipMismatch t kind) t (Dev.whenRuns (Dev.mismatch kind))

end Sys2Proof.Machine
end

