-- ==== Sys2Proof/Machine/CmdRequests.lean ====
section
/-! DEFINITION. Machine/CmdRequests.lean: the meanings of the commands of the requests of Table 2.8, one definition an opcode (02): each one line over the shared operations. -/

namespace Sys2Proof.Machine

open Sys2Proof

/-- ECHO (R57): Returns the payload and TARGET. -/
def execEcho (t : Nat) (r : Req) (s : State) : Host.Outcome State Fault Refusal :=
  s.act (.echo t r) t (Dev.requestIn 0x00 r)

/-- INFO_READ (R60): Returns the identity payload of Table 2.10. -/
def execInfoRead (t : Nat) (r : Req) (s : State) : Host.Outcome State Fault Refusal :=
  s.act (.infoRead t r) t (Dev.requestIn 0x01 r)

/-- STATUS_READ (R60): Returns the status payload and clears the sticky overrun bits. -/
def execStatusRead (t : Nat) (r : Req) (s : State) : Host.Outcome State Fault Refusal :=
  s.act (.statusRead t r) t (Dev.requestIn 0x02 r)

/-- PARAM_READ (R61): Reads committed or staged field values. -/
def execParamRead (t : Nat) (r : Req) (s : State) : Host.Outcome State Fault Refusal :=
  s.act (.paramRead t r) t (Dev.requestIn 0x10 r)

/-- PARAM_STAGE (R65): Checks values and stages them in the staging set. -/
def execParamStage (t : Nat) (r : Req) (s : State) : Host.Outcome State Fault Refusal :=
  s.act (.paramStage t r) t (Dev.requestIn 0x11 r)

/-- PARAM_COMMIT (R66): Freezes the staging set for application at a named tick. -/
def execParamCommit (t : Nat) (r : Req) (s : State) : Host.Outcome State Fault Refusal :=
  s.act (.paramCommit t r) t (Dev.requestIn 0x12 r)

/-- PARAM_DISCARD (R63): Discards staged fields or the whole set. -/
def execParamDiscard (t : Nat) (r : Req) (s : State) : Host.Outcome State Fault Refusal :=
  s.act (.paramDiscard t r) t (Dev.requestIn 0x13 r)

/-- HALLMARK_READ (R74): Returns the Hallmark and the frame of the last commit. -/
def execHallmarkRead (t : Nat) (r : Req) (s : State) : Host.Outcome State Fault Refusal :=
  s.act (.hallmarkRead t r) t (Dev.requestIn 0x14 r)

/-- SIGNAL_READ (R86): Returns consecutive point records read at one instant. -/
def execSignalRead (t : Nat) (r : Req) (s : State) : Host.Outcome State Fault Refusal :=
  s.act (.signalRead t r) t (Dev.requestIn 0x20 r)

/-- SIGNAL_WRITE (R87): Checks and writes host-owned point records together. -/
def execSignalWrite (t : Nat) (r : Req) (s : State) : Host.Outcome State Fault Refusal :=
  s.act (.signalWrite t r) t (Dev.requestIn 0x21 r)

/-- SIGNAL_NOTIFY (R90): Sets up a standing notification condition on a point. -/
def execSignalNotify (t : Nat) (r : Req) (s : State) : Host.Outcome State Fault Refusal :=
  s.act (.signalNotify t r) t (Dev.requestIn 0x22 r)

/-- SIGNAL_NOTIFY_CANCEL (R57): Cancels a standing notification and sends its final reply. -/
def execSignalNotifyCancel (t : Nat) (r : Req) (s : State) : Host.Outcome State Fault Refusal :=
  s.act (.signalNotifyCancel t r) t (Dev.requestIn 0x22 r)

/-- FLOW_OPEN (R91): Checks a flow context and accepts it for opening at the next tick. -/
def execFlowOpen (t : Nat) (r : Req) (s : State) : Host.Outcome State Fault Refusal :=
  s.act (.flowOpen t r) t (Dev.requestIn 0x28 r)

/-- FLOW_CLOSE (R85): Closes a flow context and releases its points. -/
def execFlowClose (t : Nat) (r : Req) (s : State) : Host.Outcome State Fault Refusal :=
  s.act (.flowClose t r) t (Dev.requestIn 0x29 r)

/-- FLOW_STATUS (R95): Returns a flow context's status record. -/
def execFlowStatus (t : Nat) (r : Req) (s : State) : Host.Outcome State Fault Refusal :=
  s.act (.flowStatus t r) t (Dev.requestIn 0x2A r)

/-- MODE_SET (R233): Requests a DP mode change, applied when its preconditions hold. -/
def execModeSet (t : Nat) (r : Req) (s : State) : Host.Outcome State Fault Refusal :=
  s.act (.modeSet t r) t (Dev.requestIn 0x30 r)

/-- TARGET_SET (R235): Sets the requested position, heading or track target. -/
def execTargetSet (t : Nat) (r : Req) (s : State) : Host.Outcome State Fault Refusal :=
  s.act (.targetSet t r) t (Dev.requestIn 0x31 r)

/-- JOYSTICK_SET (R238): Sets the joystick demand for the next tick. -/
def execJoystickSet (t : Nat) (r : Req) (s : State) : Host.Outcome State Fault Refusal :=
  s.act (.joystickSet t r) t (Dev.requestIn 0x32 r)

/-- CONSEQ_READ (R268): Returns consequence results. -/
def execConseqRead (t : Nat) (r : Req) (s : State) : Host.Outcome State Fault Refusal :=
  s.act (.conseqRead t r) t (Dev.requestIn 0x38 r)

/-- GNSS_RAW_READ (R152): Returns raw latched channels in dual-antenna configuration. -/
def execGnssRawRead (t : Nat) (r : Req) (s : State) : Host.Outcome State Fault Refusal :=
  s.act (.gnssRawRead t r) t (Dev.requestIn 0x40 r)

/-- GNSS_CORR_FEED (R162): Feeds RTCM 3 bytes into a correction stream. -/
def execGnssCorrFeed (t : Nat) (r : Req) (s : State) : Host.Outcome State Fault Refusal :=
  s.act (.gnssCorrFeed t r) t (Dev.requestIn 0x41 r)

/-- STATE_READ (R197): Returns the vessel state record. -/
def execStateRead (t : Nat) (r : Req) (s : State) : Host.Outcome State Fault Refusal :=
  s.act (.stateRead t r) t (Dev.requestIn 0x48 r)

/-- SOLVER_READ (R246): Returns a slot's solve status. -/
def execSolverRead (t : Nat) (r : Req) (s : State) : Host.Outcome State Fault Refusal :=
  s.act (.solverRead t r) t (Dev.requestIn 0x50 r)

/-- SOLUTION_READ (R245): Returns a slot's solution record. -/
def execSolutionRead (t : Nat) (r : Req) (s : State) : Host.Outcome State Fault Refusal :=
  s.act (.solutionRead t r) t (Dev.requestIn 0x51 r)

/-- TRACE_ARM (R290): Arms a trace probe with a trigger. -/
def execTraceArm (t : Nat) (r : Req) (s : State) : Host.Outcome State Fault Refusal :=
  s.act (.traceArm t r) t (Dev.requestIn 0x58 r)

/-- TRACE_READ (R292): Returns samples from a probe. -/
def execTraceRead (t : Nat) (r : Req) (s : State) : Host.Outcome State Fault Refusal :=
  s.act (.traceRead t r) t (Dev.requestIn 0x59 r)

/-- TIME_READ (R340): Returns the time record. -/
def execTimeRead (t : Nat) (r : Req) (s : State) : Host.Outcome State Fault Refusal :=
  s.act (.timeRead t r) t (Dev.requestIn 0x60 r)

/-- TIME_STEP (R332): Requests a step of device time at a named tick. -/
def execTimeStep (t : Nat) (r : Req) (s : State) : Host.Outcome State Fault Refusal :=
  s.act (.timeStep t r) t (Dev.requestIn 0x61 r)

/-- FRAME_LAUNCH (R343): Queues a host frame on launch queues for a launch time. -/
def execFrameLaunch (t : Nat) (r : Req) (s : State) : Host.Outcome State Fault Refusal :=
  s.act (.frameLaunch t r) t (Dev.requestIn 0x62 r)

/-- CAN_SEND (R370): Queues a CAN message on the controllers in the mask. -/
def execCanSend (t : Nat) (r : Req) (s : State) : Host.Outcome State Fault Refusal :=
  s.act (.canSend t r) t (Dev.requestIn 0x68 r)

/-- CAN_FETCH (R371): Removes received frames from a controller's receive queue. -/
def execCanFetch (t : Nat) (r : Req) (s : State) : Host.Outcome State Fault Refusal :=
  s.act (.canFetch t r) t (Dev.requestIn 0x69 r)

/-- CAN_RECOVER (R364): Starts bus-off recovery on a controller. -/
def execCanRecover (t : Nat) (r : Req) (s : State) : Host.Outcome State Fault Refusal :=
  s.act (.canRecover t r) t (Dev.requestIn 0x6A r)

/-- ROLE_READ (R404): Returns the role record. -/
def execRoleRead (t : Nat) (r : Req) (s : State) : Host.Outcome State Fault Refusal :=
  s.act (.roleRead t r) t (Dev.requestIn 0x70 r)

/-- ROLE_RELEASE (R400): Asks the active unit to hand its lease to the partner. -/
def execRoleRelease (t : Nat) (r : Req) (s : State) : Host.Outcome State Fault Refusal :=
  s.act (.roleRelease t r) t (Dev.requestIn 0x71 r)

/-- SAFETY_READ (R431): Returns the safety island record. -/
def execSafetyRead (t : Nat) (r : Req) (s : State) : Host.Outcome State Fault Refusal :=
  s.act (.safetyRead t r) t (Dev.requestIn 0x78 r)

/-- EVENT_READ (R473): Returns Locket records from a snapshot. -/
def execEventRead (t : Nat) (r : Req) (s : State) : Host.Outcome State Fault Refusal :=
  s.act (.eventRead t r) t (Dev.requestIn 0x80 r)

/-- EVENT_MARK (R476): Writes a marker record through the priority lane. -/
def execEventMark (t : Nat) (r : Req) (s : State) : Host.Outcome State Fault Refusal :=
  s.act (.eventMark t r) t (Dev.requestIn 0x81 r)

/-- EVENT_ERASE (R477): EVENT_MARK with TARGET 10FFh erases the Locket store. -/
def execEventErase (t : Nat) (r : Req) (s : State) : Host.Outcome State Fault Refusal :=
  s.act (.eventErase t r) t (Dev.requestIn 0x81 r)

/-- THERMAL_READ (R457): Returns the thermal record. -/
def execThermalRead (t : Nat) (r : Req) (s : State) : Host.Outcome State Fault Refusal :=
  s.act (.thermalRead t r) t (Dev.requestIn 0x88 r)

/-- SELFTEST_RUN (R446): Requests a self-test of one domain in the next frame. -/
def execSelftestRun (t : Nat) (r : Req) (s : State) : Host.Outcome State Fault Refusal :=
  s.act (.selftestRun t r) t (Dev.requestIn 0x90 r)

/-- SELFTEST_RESULT (R451): Returns a domain's self-test record. -/
def execSelftestResult (t : Nat) (r : Req) (s : State) : Host.Outcome State Fault Refusal :=
  s.act (.selftestResult t r) t (Dev.requestIn 0x91 r)

/-- LIFECYCLE_READ (R503): Returns the life-cycle record. -/
def execLifecycleRead (t : Nat) (r : Req) (s : State) : Host.Outcome State Fault Refusal :=
  s.act (.lifecycleRead t r) t (Dev.requestIn 0xA0 r)

/-- LIFECYCLE_ADVANCE (R485): Requests a life-cycle transition with its authorisation. -/
def execLifecycleAdvance (t : Nat) (r : Req) (s : State) : Host.Outcome State Fault Refusal :=
  s.act (.lifecycleAdvance t r) t (Dev.requestIn 0xA1 r)

/-- FW_STAGE (R491): Writes a chunk of a firmware image to flash. -/
def execFwStage (t : Nat) (r : Req) (s : State) : Host.Outcome State Fault Refusal :=
  s.act (.fwStage t r) t (Dev.requestIn 0xF0 r)

/-- FW_ACTIVATE (R492): Verifies an image, sets it to boot in trial and resets. -/
def execFwActivate (t : Nat) (r : Req) (s : State) : Host.Outcome State Fault Refusal :=
  s.act (.fwActivate t r) t (Dev.requestIn 0xF1 r)

end Sys2Proof.Machine
end

