-- ==== Sys2Proof/Machine/CmdSafety.lean ====
section
/-! DEFINITION. Machine/CmdSafety.lean: the meanings of the commands of the safety island and the Bezel (14): each one line over the shared operations. -/

namespace Sys2Proof.Machine

open Sys2Proof

/-- ISLAND_TICK (R407): The safety island samples inputs, evaluates permits and drives outputs every 250 µs. -/
def execIslandTick (t : Nat) (m : IslandIn) (s : State) : Host.Outcome State Fault Refusal :=
  s.act (.islandTick t m) t (Dev.whenPowered (Dev.islandTick m))

/-- DISCREPANCY_TIMEOUT (R413): t_disc runs out without the other contact, and the input enters DISCREPANCY. -/
def execDiscrepancyTimeout (t : Nat) (input : Nat) (s : State) : Host.Outcome State Fault Refusal :=
  s.act (.discrepancyTimeout t input) t (Dev.whenPowered (Dev.discrepancyTimeout input))

/-- LINE_FAULT_CLEAR (R414): After 1 s of passed tests, LINE_FAULT may clear. -/
def execLineFaultClear (t : Nat) (input : Nat) (s : State) : Host.Outcome State Fault Refusal :=
  s.act (.lineFaultClear t input) t (Dev.whenPowered (Dev.lineFaultClear input))

/-- RESET_INPUT_HELD (R417): A reset press held over 2 s is ignored. -/
def execResetInputHeld (t : Nat) (s : State) : Host.Outcome State Fault Refusal :=
  s.act (.resetInputHeld t) t (Dev.whenPowered Dev.resetInputHeld)

/-- OUTPUT_OVERCURRENT (R418): An output above 0.75 A for 1 ms switches off into FAULT. -/
def execOutputOvercurrent (t : Nat) (output : Nat) (s : State) : Host.Outcome State Fault Refusal :=
  s.act (.outputOvercurrent t output) t (Dev.whenPowered (Dev.outputOvercurrent output))

/-- OUTPUT_READBACK_FAIL (R419): Read-back has disagreed for 1 ms, and the output or master disconnect acts. -/
def execOutputReadbackFail (t : Nat) (output : Nat) (failedOn : Bool) (s : State) : Host.Outcome State Fault Refusal :=
  s.act (.outputReadbackFail t output failedOn) t (Dev.whenPowered (Dev.outputReadback output failedOn))

/-- MASTER_DISCONNECT_TEST (R421): A master disconnect is opened for 1 ms and tested. -/
def execMasterDisconnectTest (t : Nat) (md : Nat) (nodeLow : Bool) (s : State) : Host.Outcome State Fault Refusal :=
  s.act (.masterDisconnectTest t md nodeLow) t (Dev.whenPowered (Dev.masterTest md nodeLow))

/-- ISLAND_WATCHDOG_EXPIRY (R408): The island watchdog, memory or clock monitor faults, and the island enters SAFE. -/
def execIslandWatchdogExpiry (t : Nat) (cause : Nat) (s : State) : Host.Outcome State Fault Refusal :=
  s.act (.islandWatchdogExpiry t cause) t (Dev.whenPowered (Dev.islandFault cause))

/-- BEZEL_READ (R425): The Bezel is read every 100 ms, and a new differing word raises SEAL_CHANGED. -/
def execBezelRead (t : Nat) (word : Word) (s : State) : Host.Outcome State Fault Refusal :=
  s.act (.bezelRead t word) t (Dev.whenPowered (Dev.bezelRead word))

end Sys2Proof.Machine
end

