-- ==== Sys2Proof/Machine/Dispatch.lean ====
section
/-! DEFINITION. Machine/Dispatch.lean: one arm per command, each one direct call of its meaning. -/

namespace Sys2Proof.Machine

open Sys2Proof

def exec (i : Instr) (s : State) : Host.Outcome State Fault Refusal :=
  match i with
  | .frameTick t m => Sys2Proof.Machine.execFrameTick t m s
  | .ppsPulseEnd t => Sys2Proof.Machine.execPpsPulseEnd t s
  | .stepWaitExpiry t => Sys2Proof.Machine.execStepWaitExpiry t s
  | .subTick t m => Sys2Proof.Machine.execSubTick t m s
  | .passOverrun t firstLoop => Sys2Proof.Machine.execPassOverrun t firstLoop s
  | .outputClampedLong t loop => Sys2Proof.Machine.execOutputClampedLong t loop s
  | .releaseHoldExpiry t island => Sys2Proof.Machine.execReleaseHoldExpiry t island s
  | .pmsFallback t island => Sys2Proof.Machine.execPmsFallback t island s
  | .feedInvalid t feed volts => Sys2Proof.Machine.execFeedInvalid t feed volts s
  | .feedValid t feed volts => Sys2Proof.Machine.execFeedValid t feed volts s
  | .fusionOutput t late => Sys2Proof.Machine.execFusionOutput t late s
  | .solveIterationComplete t => Sys2Proof.Machine.execSolveIterationComplete t s
  | .solveDeadline t => Sys2Proof.Machine.execSolveDeadline t s
  | .refinementWindowStart t => Sys2Proof.Machine.execRefinementWindowStart t s
  | .refinementWindowEnd t => Sys2Proof.Machine.execRefinementWindowEnd t s
  | .joystickTimeout t => Sys2Proof.Machine.execJoystickTimeout t s
  | .handoff t readable => Sys2Proof.Machine.execHandoff t readable s
  | .commandQueueCutoff t notQueued => Sys2Proof.Machine.execCommandQueueCutoff t notQueued s
  | .launch t served => Sys2Proof.Machine.execLaunch t served s
  | .tailSlotEnd t => Sys2Proof.Machine.execTailSlotEnd t s
  | .commitResultTimeout t => Sys2Proof.Machine.execCommitResultTimeout t s
  | .whatifComplete t => Sys2Proof.Machine.execWhatifComplete t s
  | .cycleOverdue t => Sys2Proof.Machine.execCycleOverdue t s
  | .resultStale t group => Sys2Proof.Machine.execResultStale t group s
  | .echo t r => Sys2Proof.Machine.execEcho t r s
  | .infoRead t r => Sys2Proof.Machine.execInfoRead t r s
  | .statusRead t r => Sys2Proof.Machine.execStatusRead t r s
  | .paramRead t r => Sys2Proof.Machine.execParamRead t r s
  | .paramStage t r => Sys2Proof.Machine.execParamStage t r s
  | .paramCommit t r => Sys2Proof.Machine.execParamCommit t r s
  | .paramDiscard t r => Sys2Proof.Machine.execParamDiscard t r s
  | .hallmarkRead t r => Sys2Proof.Machine.execHallmarkRead t r s
  | .signalRead t r => Sys2Proof.Machine.execSignalRead t r s
  | .signalWrite t r => Sys2Proof.Machine.execSignalWrite t r s
  | .signalNotify t r => Sys2Proof.Machine.execSignalNotify t r s
  | .signalNotifyCancel t r => Sys2Proof.Machine.execSignalNotifyCancel t r s
  | .flowOpen t r => Sys2Proof.Machine.execFlowOpen t r s
  | .flowClose t r => Sys2Proof.Machine.execFlowClose t r s
  | .flowStatus t r => Sys2Proof.Machine.execFlowStatus t r s
  | .modeSet t r => Sys2Proof.Machine.execModeSet t r s
  | .targetSet t r => Sys2Proof.Machine.execTargetSet t r s
  | .joystickSet t r => Sys2Proof.Machine.execJoystickSet t r s
  | .conseqRead t r => Sys2Proof.Machine.execConseqRead t r s
  | .gnssRawRead t r => Sys2Proof.Machine.execGnssRawRead t r s
  | .gnssCorrFeed t r => Sys2Proof.Machine.execGnssCorrFeed t r s
  | .stateRead t r => Sys2Proof.Machine.execStateRead t r s
  | .solverRead t r => Sys2Proof.Machine.execSolverRead t r s
  | .solutionRead t r => Sys2Proof.Machine.execSolutionRead t r s
  | .traceArm t r => Sys2Proof.Machine.execTraceArm t r s
  | .traceRead t r => Sys2Proof.Machine.execTraceRead t r s
  | .timeRead t r => Sys2Proof.Machine.execTimeRead t r s
  | .timeStep t r => Sys2Proof.Machine.execTimeStep t r s
  | .frameLaunch t r => Sys2Proof.Machine.execFrameLaunch t r s
  | .canSend t r => Sys2Proof.Machine.execCanSend t r s
  | .canFetch t r => Sys2Proof.Machine.execCanFetch t r s
  | .canRecover t r => Sys2Proof.Machine.execCanRecover t r s
  | .roleRead t r => Sys2Proof.Machine.execRoleRead t r s
  | .roleRelease t r => Sys2Proof.Machine.execRoleRelease t r s
  | .safetyRead t r => Sys2Proof.Machine.execSafetyRead t r s
  | .eventRead t r => Sys2Proof.Machine.execEventRead t r s
  | .eventMark t r => Sys2Proof.Machine.execEventMark t r s
  | .eventErase t r => Sys2Proof.Machine.execEventErase t r s
  | .thermalRead t r => Sys2Proof.Machine.execThermalRead t r s
  | .selftestRun t r => Sys2Proof.Machine.execSelftestRun t r s
  | .selftestResult t r => Sys2Proof.Machine.execSelftestResult t r s
  | .lifecycleRead t r => Sys2Proof.Machine.execLifecycleRead t r s
  | .lifecycleAdvance t r => Sys2Proof.Machine.execLifecycleAdvance t r s
  | .fwStage t r => Sys2Proof.Machine.execFwStage t r s
  | .fwActivate t r => Sys2Proof.Machine.execFwActivate t r s
  | .flashEraseDone t => Sys2Proof.Machine.execFlashEraseDone t s
  | .requestTimeout t tag => Sys2Proof.Machine.execRequestTimeout t tag s
  | .stagingAbandoned t => Sys2Proof.Machine.execStagingAbandoned t s
  | .spiWrite t bytes => Sys2Proof.Machine.execSpiWrite t bytes s
  | .spiRead t clocked => Sys2Proof.Machine.execSpiRead t clocked s
  | .spiStat t => Sys2Proof.Machine.execSpiStat t s
  | .udpDatagramReceived t ip port iface dstPort bytes => Sys2Proof.Machine.execUdpDatagramReceived t ip port iface dstPort bytes s
  | .keptReplyExpiry t => Sys2Proof.Machine.execKeptReplyExpiry t s
  | .cmdProducerWrite t value slots => Sys2Proof.Machine.execCmdProducerWrite t value slots s
  | .rplConsumerWrite t value => Sys2Proof.Machine.execRplConsumerWrite t value s
  | .ctrlEnable t enable => Sys2Proof.Machine.execCtrlEnable t enable s
  | .resetRings t => Sys2Proof.Machine.execResetRings t s
  | .irqStatusClear t mask => Sys2Proof.Machine.execIrqStatusClear t mask s
  | .registerWrite t offset value => Sys2Proof.Machine.execRegisterWrite t offset value s
  | .pciePerst t => Sys2Proof.Machine.execPciePerst t s
  | .replyQueuedOnSpace t => Sys2Proof.Machine.execReplyQueuedOnSpace t s
  | .queueIdle t queue => Sys2Proof.Machine.execQueueIdle t queue s
  | .ethFrameReceived t port f => Sys2Proof.Machine.execEthFrameReceived t port f s
  | .flowTimeout t ctx => Sys2Proof.Machine.execFlowTimeout t ctx s
  | .flowBadAfter t ctx => Sys2Proof.Machine.execFlowBadAfter t ctx s
  | .ackFrameReceived t port f => Sys2Proof.Machine.execAckFrameReceived t port f s
  | .ptpMessageReceived t port m => Sys2Proof.Machine.execPtpMessageReceived t port m s
  | .ptpMessageSend t port k => Sys2Proof.Machine.execPtpMessageSend t port k s
  | .announceTimeout t port => Sys2Proof.Machine.execAnnounceTimeout t port s
  | .ppsInEdge t rising => Sys2Proof.Machine.execPpsInEdge t rising s
  | .ref10Invalid t => Sys2Proof.Machine.execRef10Invalid t s
  | .launchQueueLaunch t queue => Sys2Proof.Machine.execLaunchQueueLaunch t queue s
  | .supervisionFrameSend t => Sys2Proof.Machine.execSupervisionFrameSend t s
  | .ringOpen t => Sys2Proof.Machine.execRingOpen t s
  | .nodeForget t => Sys2Proof.Machine.execNodeForget t s
  | .portLinkChange t port up => Sys2Proof.Machine.execPortLinkChange t port up s
  | .bypassMismatch t relay => Sys2Proof.Machine.execBypassMismatch t relay s
  | .samplePortFrame t port slots stalled => Sys2Proof.Machine.execSamplePortFrame t port slots stalled s
  | .resamplerNoCrossing t u => Sys2Proof.Machine.execResamplerNoCrossing t u s
  | .linkFrame t link f => Sys2Proof.Machine.execLinkFrame t link f s
  | .acquisitionPass t => Sys2Proof.Machine.execAcquisitionPass t s
  | .trackingLossOfLock t ant ch => Sys2Proof.Machine.execTrackingLossOfLock t ant ch s
  | .reacquisitionExpiry t ant ch => Sys2Proof.Machine.execReacquisitionExpiry t ant ch s
  | .gnssSolutionComplete t => Sys2Proof.Machine.execGnssSolutionComplete t s
  | .gnssSolutionDeadline t => Sys2Proof.Machine.execGnssSolutionDeadline t s
  | .correctionDatagram t iface dstPort bytes => Sys2Proof.Machine.execCorrectionDatagram t iface dstPort bytes s
  | .correctionsStale t stream => Sys2Proof.Machine.execCorrectionsStale t stream s
  | .gnssStoreWrite t => Sys2Proof.Machine.execGnssStoreWrite t s
  | .refMaxgapExpiry t slot => Sys2Proof.Machine.execRefMaxgapExpiry t slot s
  | .conflictExpired t cls => Sys2Proof.Machine.execConflictExpired t cls s
  | .conflictCleared t cls => Sys2Proof.Machine.execConflictCleared t cls s
  | .referenceReadmit t cls slot => Sys2Proof.Machine.execReferenceReadmit t cls slot s
  | .fusionSettled t => Sys2Proof.Machine.execFusionSettled t s
  | .canFrameReceived t ctrl f => Sys2Proof.Machine.execCanFrameReceived t ctrl f s
  | .rxmapTimeout t mapping => Sys2Proof.Machine.execRxmapTimeout t mapping s
  | .canBufferLock t ctrl buf => Sys2Proof.Machine.execCanBufferLock t ctrl buf s
  | .canBufferRelease t ctrl buf => Sys2Proof.Machine.execCanBufferRelease t ctrl buf s
  | .canLockTimeout t ctrl buf => Sys2Proof.Machine.execCanLockTimeout t ctrl buf s
  | .canAttemptEnd t ctrl buf r => Sys2Proof.Machine.execCanAttemptEnd t ctrl buf r s
  | .canRecoveryComplete t ctrl => Sys2Proof.Machine.execCanRecoveryComplete t ctrl s
  | .heartbeatReceived t lane bytes => Sys2Proof.Machine.execHeartbeatReceived t lane bytes s
  | .releaseReceived t lane bytes => Sys2Proof.Machine.execReleaseReceived t lane bytes s
  | .mirrorSegmentReceived t lane bytes => Sys2Proof.Machine.execMirrorSegmentReceived t lane bytes s
  | .commitReceived t lane bytes => Sys2Proof.Machine.execCommitReceived t lane bytes s
  | .commitResultReceived t lane bytes => Sys2Proof.Machine.execCommitResultReceived t lane bytes s
  | .configImageReceived t lane bytes => Sys2Proof.Machine.execConfigImageReceived t lane bytes s
  | .flowStateReceived t lane bytes => Sys2Proof.Machine.execFlowStateReceived t lane bytes s
  | .leaseExpiry t => Sys2Proof.Machine.execLeaseExpiry t s
  | .fenceAck t => Sys2Proof.Machine.execFenceAck t s
  | .fenceAckTimeout t => Sys2Proof.Machine.execFenceAckTimeout t s
  | .ownInEdge t => Sys2Proof.Machine.execOwnInEdge t s
  | .ownInTimeout t => Sys2Proof.Machine.execOwnInTimeout t s
  | .secondOwner t => Sys2Proof.Machine.execSecondOwner t s
  | .partnerLost t => Sys2Proof.Machine.execPartnerLost t s
  | .laneDown t lane => Sys2Proof.Machine.execLaneDown t lane s
  | .claimWaitExpiry t => Sys2Proof.Machine.execClaimWaitExpiry t s
  | .orphanSolo t => Sys2Proof.Machine.execOrphanSolo t s
  | .returnHoldoffExpiry t => Sys2Proof.Machine.execReturnHoldoffExpiry t s
  | .resyncRetry t => Sys2Proof.Machine.execResyncRetry t s
  | .ownershipMismatch t kind => Sys2Proof.Machine.execOwnershipMismatch t kind s
  | .islandTick t m => Sys2Proof.Machine.execIslandTick t m s
  | .discrepancyTimeout t input => Sys2Proof.Machine.execDiscrepancyTimeout t input s
  | .lineFaultClear t input => Sys2Proof.Machine.execLineFaultClear t input s
  | .resetInputHeld t => Sys2Proof.Machine.execResetInputHeld t s
  | .outputOvercurrent t output => Sys2Proof.Machine.execOutputOvercurrent t output s
  | .outputReadbackFail t output failedOn => Sys2Proof.Machine.execOutputReadbackFail t output failedOn s
  | .masterDisconnectTest t md nodeLow => Sys2Proof.Machine.execMasterDisconnectTest t md nodeLow s
  | .islandWatchdogExpiry t cause => Sys2Proof.Machine.execIslandWatchdogExpiry t cause s
  | .bezelRead t word => Sys2Proof.Machine.execBezelRead t word s
  | .diodeConversionComplete t reading => Sys2Proof.Machine.execDiodeConversionComplete t reading s
  | .diodeRecheck t => Sys2Proof.Machine.execDiodeRecheck t s
  | .thermalReset t => Sys2Proof.Machine.execThermalReset t s
  | .thermalOffDiodeRead t reading => Sys2Proof.Machine.execThermalOffDiodeRead t reading s
  | .rateAlertClear t => Sys2Proof.Machine.execRateAlertClear t s
  | .selftestComplete t r => Sys2Proof.Machine.execSelftestComplete t r s
  | .autoSelftestDue t => Sys2Proof.Machine.execAutoSelftestDue t s
  | .faultEntryHandled t => Sys2Proof.Machine.execFaultEntryHandled t s
  | .faultHoldExpiry t code source => Sys2Proof.Machine.execFaultHoldExpiry t code source s
  | .priorityLaneWrite t => Sys2Proof.Machine.execPriorityLaneWrite t s
  | .lostRecord t => Sys2Proof.Machine.execLostRecord t s
  | .locketScrub t bad => Sys2Proof.Machine.execLocketScrub t bad s
  | .opSecondsWrite t => Sys2Proof.Machine.execOpSecondsWrite t s
  | .powerUp t bezel1 bezel2 phyFaults holdup diode => Sys2Proof.Machine.execPowerUp t bezel1 bezel2 phyFaults holdup diode s
  | .rstNAssert t lowNs => Sys2Proof.Machine.execRstNAssert t lowNs s
  | .rstNRelease t bezel1 bezel2 diode => Sys2Proof.Machine.execRstNRelease t bezel1 bezel2 diode s
  | .resetStuck t bezel1 bezel2 diode => Sys2Proof.Machine.execResetStuck t bezel1 bezel2 diode s
  | .resetObeyed t => Sys2Proof.Machine.execResetObeyed t s
  | .supervisorWatchdog t => Sys2Proof.Machine.execSupervisorWatchdog t s
  | .unitReady t => Sys2Proof.Machine.execUnitReady t s
  | .holdupExhausted t => Sys2Proof.Machine.execHoldupExhausted t s
  | .vioOut t bank mv => Sys2Proof.Machine.execVioOut t bank mv s
  | .vioRestored t bank => Sys2Proof.Machine.execVioRestored t bank s
  | .oscWarm t secs => Sys2Proof.Machine.execOscWarm t secs s
  | .oscFault t kind ppb => Sys2Proof.Machine.execOscFault t kind ppb s
  | .dramEccError t addr uncorrectable => Sys2Proof.Machine.execDramEccError t addr uncorrectable s
  | .canReceiveError t ctrl e => Sys2Proof.Machine.execCanReceiveError t ctrl e s
  | .ref10Valid t => Sys2Proof.Machine.execRef10Valid t s
  | .refinedModelStoreWrite t => Sys2Proof.Machine.execRefinedModelStoreWrite t s
  | .debugPortAccess t a => Sys2Proof.Machine.execDebugPortAccess t a s

end Sys2Proof.Machine
end

