-- ==== Sys2Proof/Safety.lean ====
section
/-! DEFINITION. Safety.lean: what the claims speak of: which command is which request, when the module serves a request,
what a reply is, when the supervisor has nothing to do, and what a good state is. -/

namespace Sys2Proof

/-- The opcode (Table 2.8) and the request of a request command; none of any other command. -/
def Instr.request : Instr → Option (Byte × Req)
  | .frameTick _ _ => none
  | .ppsPulseEnd _ => none
  | .stepWaitExpiry _ => none
  | .subTick _ _ => none
  | .passOverrun _ _ => none
  | .outputClampedLong _ _ => none
  | .releaseHoldExpiry _ _ => none
  | .pmsFallback _ _ => none
  | .feedInvalid _ _ _ => none
  | .feedValid _ _ _ => none
  | .fusionOutput _ _ => none
  | .solveIterationComplete _ => none
  | .solveDeadline _ => none
  | .refinementWindowStart _ => none
  | .refinementWindowEnd _ => none
  | .joystickTimeout _ => none
  | .handoff _ _ => none
  | .commandQueueCutoff _ _ => none
  | .launch _ _ => none
  | .tailSlotEnd _ => none
  | .commitResultTimeout _ => none
  | .whatifComplete _ => none
  | .cycleOverdue _ => none
  | .resultStale _ _ => none
  | .echo _ r => some (0x00, r)
  | .infoRead _ r => some (0x01, r)
  | .statusRead _ r => some (0x02, r)
  | .paramRead _ r => some (0x10, r)
  | .paramStage _ r => some (0x11, r)
  | .paramCommit _ r => some (0x12, r)
  | .paramDiscard _ r => some (0x13, r)
  | .hallmarkRead _ r => some (0x14, r)
  | .signalRead _ r => some (0x20, r)
  | .signalWrite _ r => some (0x21, r)
  | .signalNotify _ r => some (0x22, r)
  | .signalNotifyCancel _ r => some (0x22, r)
  | .flowOpen _ r => some (0x28, r)
  | .flowClose _ r => some (0x29, r)
  | .flowStatus _ r => some (0x2A, r)
  | .modeSet _ r => some (0x30, r)
  | .targetSet _ r => some (0x31, r)
  | .joystickSet _ r => some (0x32, r)
  | .conseqRead _ r => some (0x38, r)
  | .gnssRawRead _ r => some (0x40, r)
  | .gnssCorrFeed _ r => some (0x41, r)
  | .stateRead _ r => some (0x48, r)
  | .solverRead _ r => some (0x50, r)
  | .solutionRead _ r => some (0x51, r)
  | .traceArm _ r => some (0x58, r)
  | .traceRead _ r => some (0x59, r)
  | .timeRead _ r => some (0x60, r)
  | .timeStep _ r => some (0x61, r)
  | .frameLaunch _ r => some (0x62, r)
  | .canSend _ r => some (0x68, r)
  | .canFetch _ r => some (0x69, r)
  | .canRecover _ r => some (0x6A, r)
  | .roleRead _ r => some (0x70, r)
  | .roleRelease _ r => some (0x71, r)
  | .safetyRead _ r => some (0x78, r)
  | .eventRead _ r => some (0x80, r)
  | .eventMark _ r => some (0x81, r)
  | .eventErase _ r => some (0x81, r)
  | .thermalRead _ r => some (0x88, r)
  | .selftestRun _ r => some (0x90, r)
  | .selftestResult _ r => some (0x91, r)
  | .lifecycleRead _ r => some (0xA0, r)
  | .lifecycleAdvance _ r => some (0xA1, r)
  | .fwStage _ r => some (0xF0, r)
  | .fwActivate _ r => some (0xF1, r)
  | .flashEraseDone _ => none
  | .requestTimeout _ _ => none
  | .stagingAbandoned _ => none
  | .spiWrite _ _ => none
  | .spiRead _ _ => none
  | .spiStat _ => none
  | .udpDatagramReceived _ _ _ _ _ _ => none
  | .keptReplyExpiry _ => none
  | .cmdProducerWrite _ _ _ => none
  | .rplConsumerWrite _ _ => none
  | .ctrlEnable _ _ => none
  | .resetRings _ => none
  | .irqStatusClear _ _ => none
  | .registerWrite _ _ _ => none
  | .pciePerst _ => none
  | .replyQueuedOnSpace _ => none
  | .queueIdle _ _ => none
  | .ethFrameReceived _ _ _ => none
  | .flowTimeout _ _ => none
  | .flowBadAfter _ _ => none
  | .ackFrameReceived _ _ _ => none
  | .ptpMessageReceived _ _ _ => none
  | .ptpMessageSend _ _ _ => none
  | .announceTimeout _ _ => none
  | .ppsInEdge _ _ => none
  | .ref10Invalid _ => none
  | .launchQueueLaunch _ _ => none
  | .supervisionFrameSend _ => none
  | .ringOpen _ => none
  | .nodeForget _ => none
  | .portLinkChange _ _ _ => none
  | .bypassMismatch _ _ => none
  | .samplePortFrame _ _ _ _ => none
  | .resamplerNoCrossing _ _ => none
  | .linkFrame _ _ _ => none
  | .acquisitionPass _ => none
  | .trackingLossOfLock _ _ _ => none
  | .reacquisitionExpiry _ _ _ => none
  | .gnssSolutionComplete _ => none
  | .gnssSolutionDeadline _ => none
  | .correctionDatagram _ _ _ _ => none
  | .correctionsStale _ _ => none
  | .gnssStoreWrite _ => none
  | .refMaxgapExpiry _ _ => none
  | .conflictExpired _ _ => none
  | .conflictCleared _ _ => none
  | .referenceReadmit _ _ _ => none
  | .fusionSettled _ => none
  | .canFrameReceived _ _ _ => none
  | .rxmapTimeout _ _ => none
  | .canBufferLock _ _ _ => none
  | .canBufferRelease _ _ _ => none
  | .canLockTimeout _ _ _ => none
  | .canAttemptEnd _ _ _ _ => none
  | .canRecoveryComplete _ _ => none
  | .heartbeatReceived _ _ _ => none
  | .releaseReceived _ _ _ => none
  | .mirrorSegmentReceived _ _ _ => none
  | .commitReceived _ _ _ => none
  | .commitResultReceived _ _ _ => none
  | .configImageReceived _ _ _ => none
  | .flowStateReceived _ _ _ => none
  | .leaseExpiry _ => none
  | .fenceAck _ => none
  | .fenceAckTimeout _ => none
  | .ownInEdge _ => none
  | .ownInTimeout _ => none
  | .secondOwner _ => none
  | .partnerLost _ => none
  | .laneDown _ _ => none
  | .claimWaitExpiry _ => none
  | .orphanSolo _ => none
  | .returnHoldoffExpiry _ => none
  | .resyncRetry _ => none
  | .ownershipMismatch _ _ => none
  | .islandTick _ _ => none
  | .discrepancyTimeout _ _ => none
  | .lineFaultClear _ _ => none
  | .resetInputHeld _ => none
  | .outputOvercurrent _ _ => none
  | .outputReadbackFail _ _ _ => none
  | .masterDisconnectTest _ _ _ => none
  | .islandWatchdogExpiry _ _ => none
  | .bezelRead _ _ => none
  | .diodeConversionComplete _ _ => none
  | .diodeRecheck _ => none
  | .thermalReset _ => none
  | .thermalOffDiodeRead _ _ => none
  | .rateAlertClear _ => none
  | .selftestComplete _ _ => none
  | .autoSelftestDue _ => none
  | .faultEntryHandled _ => none
  | .faultHoldExpiry _ _ _ => none
  | .priorityLaneWrite _ => none
  | .lostRecord _ => none
  | .locketScrub _ _ => none
  | .opSecondsWrite _ => none
  | .powerUp _ _ _ _ _ _ => none
  | .rstNAssert _ _ => none
  | .rstNRelease _ _ _ _ => none
  | .resetStuck _ _ _ _ => none
  | .resetObeyed _ => none
  | .supervisorWatchdog _ => none
  | .unitReady _ => none
  | .holdupExhausted _ => none
  | .vioOut _ _ _ => none
  | .vioRestored _ _ => none
  | .oscWarm _ _ => none
  | .oscFault _ _ _ => none
  | .dramEccError _ _ _ => none
  | .canReceiveError _ _ _ => none
  | .ref10Valid _ => none
  | .refinedModelStoreWrite _ => none
  | .debugPortAccess _ _ => none

/-- The instant of a command on the raw counter's time line (notes/assumptions/2.md). -/
def Instr.time : Instr → Nat
  | .frameTick t _ => t
  | .ppsPulseEnd t => t
  | .stepWaitExpiry t => t
  | .subTick t _ => t
  | .passOverrun t _ => t
  | .outputClampedLong t _ => t
  | .releaseHoldExpiry t _ => t
  | .pmsFallback t _ => t
  | .feedInvalid t _ _ => t
  | .feedValid t _ _ => t
  | .fusionOutput t _ => t
  | .solveIterationComplete t => t
  | .solveDeadline t => t
  | .refinementWindowStart t => t
  | .refinementWindowEnd t => t
  | .joystickTimeout t => t
  | .handoff t _ => t
  | .commandQueueCutoff t _ => t
  | .launch t _ => t
  | .tailSlotEnd t => t
  | .commitResultTimeout t => t
  | .whatifComplete t => t
  | .cycleOverdue t => t
  | .resultStale t _ => t
  | .echo t _ => t
  | .infoRead t _ => t
  | .statusRead t _ => t
  | .paramRead t _ => t
  | .paramStage t _ => t
  | .paramCommit t _ => t
  | .paramDiscard t _ => t
  | .hallmarkRead t _ => t
  | .signalRead t _ => t
  | .signalWrite t _ => t
  | .signalNotify t _ => t
  | .signalNotifyCancel t _ => t
  | .flowOpen t _ => t
  | .flowClose t _ => t
  | .flowStatus t _ => t
  | .modeSet t _ => t
  | .targetSet t _ => t
  | .joystickSet t _ => t
  | .conseqRead t _ => t
  | .gnssRawRead t _ => t
  | .gnssCorrFeed t _ => t
  | .stateRead t _ => t
  | .solverRead t _ => t
  | .solutionRead t _ => t
  | .traceArm t _ => t
  | .traceRead t _ => t
  | .timeRead t _ => t
  | .timeStep t _ => t
  | .frameLaunch t _ => t
  | .canSend t _ => t
  | .canFetch t _ => t
  | .canRecover t _ => t
  | .roleRead t _ => t
  | .roleRelease t _ => t
  | .safetyRead t _ => t
  | .eventRead t _ => t
  | .eventMark t _ => t
  | .eventErase t _ => t
  | .thermalRead t _ => t
  | .selftestRun t _ => t
  | .selftestResult t _ => t
  | .lifecycleRead t _ => t
  | .lifecycleAdvance t _ => t
  | .fwStage t _ => t
  | .fwActivate t _ => t
  | .flashEraseDone t => t
  | .requestTimeout t _ => t
  | .stagingAbandoned t => t
  | .spiWrite t _ => t
  | .spiRead t _ => t
  | .spiStat t => t
  | .udpDatagramReceived t _ _ _ _ _ => t
  | .keptReplyExpiry t => t
  | .cmdProducerWrite t _ _ => t
  | .rplConsumerWrite t _ => t
  | .ctrlEnable t _ => t
  | .resetRings t => t
  | .irqStatusClear t _ => t
  | .registerWrite t _ _ => t
  | .pciePerst t => t
  | .replyQueuedOnSpace t => t
  | .queueIdle t _ => t
  | .ethFrameReceived t _ _ => t
  | .flowTimeout t _ => t
  | .flowBadAfter t _ => t
  | .ackFrameReceived t _ _ => t
  | .ptpMessageReceived t _ _ => t
  | .ptpMessageSend t _ _ => t
  | .announceTimeout t _ => t
  | .ppsInEdge t _ => t
  | .ref10Invalid t => t
  | .launchQueueLaunch t _ => t
  | .supervisionFrameSend t => t
  | .ringOpen t => t
  | .nodeForget t => t
  | .portLinkChange t _ _ => t
  | .bypassMismatch t _ => t
  | .samplePortFrame t _ _ _ => t
  | .resamplerNoCrossing t _ => t
  | .linkFrame t _ _ => t
  | .acquisitionPass t => t
  | .trackingLossOfLock t _ _ => t
  | .reacquisitionExpiry t _ _ => t
  | .gnssSolutionComplete t => t
  | .gnssSolutionDeadline t => t
  | .correctionDatagram t _ _ _ => t
  | .correctionsStale t _ => t
  | .gnssStoreWrite t => t
  | .refMaxgapExpiry t _ => t
  | .conflictExpired t _ => t
  | .conflictCleared t _ => t
  | .referenceReadmit t _ _ => t
  | .fusionSettled t => t
  | .canFrameReceived t _ _ => t
  | .rxmapTimeout t _ => t
  | .canBufferLock t _ _ => t
  | .canBufferRelease t _ _ => t
  | .canLockTimeout t _ _ => t
  | .canAttemptEnd t _ _ _ => t
  | .canRecoveryComplete t _ => t
  | .heartbeatReceived t _ _ => t
  | .releaseReceived t _ _ => t
  | .mirrorSegmentReceived t _ _ => t
  | .commitReceived t _ _ => t
  | .commitResultReceived t _ _ => t
  | .configImageReceived t _ _ => t
  | .flowStateReceived t _ _ => t
  | .leaseExpiry t => t
  | .fenceAck t => t
  | .fenceAckTimeout t => t
  | .ownInEdge t => t
  | .ownInTimeout t => t
  | .secondOwner t => t
  | .partnerLost t => t
  | .laneDown t _ => t
  | .claimWaitExpiry t => t
  | .orphanSolo t => t
  | .returnHoldoffExpiry t => t
  | .resyncRetry t => t
  | .ownershipMismatch t _ => t
  | .islandTick t _ => t
  | .discrepancyTimeout t _ => t
  | .lineFaultClear t _ => t
  | .resetInputHeld t => t
  | .outputOvercurrent t _ => t
  | .outputReadbackFail t _ _ => t
  | .masterDisconnectTest t _ _ => t
  | .islandWatchdogExpiry t _ => t
  | .bezelRead t _ => t
  | .diodeConversionComplete t _ => t
  | .diodeRecheck t => t
  | .thermalReset t => t
  | .thermalOffDiodeRead t _ => t
  | .rateAlertClear t => t
  | .selftestComplete t _ => t
  | .autoSelftestDue t => t
  | .faultEntryHandled t => t
  | .faultHoldExpiry t _ _ => t
  | .priorityLaneWrite t => t
  | .lostRecord t => t
  | .locketScrub t _ => t
  | .opSecondsWrite t => t
  | .powerUp t _ _ _ _ _ => t
  | .rstNAssert t _ => t
  | .rstNRelease t _ _ _ => t
  | .resetStuck t _ _ _ => t
  | .resetObeyed t => t
  | .supervisorWatchdog t => t
  | .unitReady t => t
  | .holdupExhausted t => t
  | .vioOut t _ _ => t
  | .vioRestored t _ => t
  | .oscWarm t _ => t
  | .oscFault t _ _ => t
  | .dramEccError t _ _ => t
  | .canReceiveError t _ _ => t
  | .ref10Valid t => t
  | .refinedModelStoreWrite t => t
  | .debugPortAccess t _ => t


/-- Commands that a module without power, in reset or held off by its temperature takes part in: its feeds, its reset line,
the end of its hold-up and the reads of its diode in thermal-off (R402, R444, R494, R499, R501, R511). -/
def Instr.reachesReset : Instr → Bool
  | .feedInvalid _ _ _ => true
  | .feedValid _ _ _ => true
  | .powerUp _ _ _ _ _ _ => true
  | .rstNAssert _ _ => true
  | .rstNRelease _ _ _ _ => true
  | .resetStuck _ _ _ _ => true
  | .holdupExhausted _ => true
  | .thermalOffDiodeRead _ _ => true
  | .oscWarm _ _ => true
  | _ => false

end Sys2Proof

namespace Sys2Proof.Machine

open Sys2Proof

/-- The module runs, has reached unit ready, and runs a valid image (R493, R495). -/
def Dev.serving (d : Dev) : Bool := d.runs && d.life.ready && !d.life.noImage

/-- The module runs, ready or not, with a valid image (R493). -/
def Dev.up (d : Dev) : Bool := d.runs && !d.life.noImage

/-- The state that a command leaves whose own effect left the module as e: the supervisor's work has followed. -/
def State.left (s : State) (e : Dev) : State := { s with dev := e.after }

/-- The rings hold no more than their sizes (R52). -/
def Dev.ringSound (d : Dev) : Bool :=
  let p := d.cmd.trans.pcie
  !(ringOver p.cmdSlots p.cmdProducer p.cmdConsumer) && !(ringOver p.rplSlots p.rplProducer p.rplConsumer)

/-- No request is outstanding, no reply waits, no work of a request stands, and the two queues of the channel are empty
with agreeing pointers (R34). -/
def Dev.idle (d : Dev) : Bool :=
  d.cmd.tags.isEmpty && d.cmd.held.isEmpty && d.cmd.replyQ.isEmpty && d.cmd.trans.pcie.slots.isEmpty && d.ringSound &&
    d.solver.modeReq.isNone && d.cfg.commit.isNone && d.clasp.releasing == .no && d.life.activating.isNone &&
    (d.q 0).agree && (d.q 1).agree && (d.q 0).held == 0 && (d.q 1).held == 0

/-- The request's transport takes it and can carry its reply (R50 to R55). -/
def Dev.receives (op : Byte) (r : Req) (d : Dev) : Bool :=
  !(d.transportDown r.src.tr) && (match r.src.tr with
    | .pcie => d.ringServed
    | .spi => d.spiUp
    | .udp => d.hostListed r.src.ip && (d.keptFor r.src.ip op r.tag (r.hcrc op) r.pcrc).isNone)

/-- The packet of a request has been taken from its transport (R52, R54). -/
def Dev.touched (r : Req) (d : Dev) : Dev :=
  match r.src.tr with
  | .pcie => (d.modPcie (fun p => { p with cmdProducer := p.cmdProducer + 1 })).slotTaken
  | .spi => d.setAborted false
  | .udp => d

/-- The request, the only one outstanding, stands in the command queue (R33, R44); one for the staging set has been heard from
its owner (R64). -/
def Dev.taken (op : Byte) (r : Req) (d : Dev) : Dev :=
  let d := (((d.touched r).stageHeard op r).qPush 0).2.1
  { d with cmd := { d.cmd with tags := [{ op := op, req := r }] } }

/-- The module at the start of the request's operation: the supervisor has read it from the command queue, with the resources it
touches (R46). -/
def Dev.begun (op : Byte) (r : Req) (d : Dev) : Dev :=
  (((d.taken op r).qRead 0 1).1).modPend r.tag (fun x => { x with started := true, resources := d.resourcesOf op.toNat r })

/-- A reply to the request, with these flags, has been queued for SPI, sent by UDP, or queued for or written to the PCIe
reply ring (R41, R50). -/
def Dev.answered (op : Byte) (r : Req) (rflags : Byte) (f : Fin) (d : Dev) : Prop :=
  let b := replyBytes op r.tag rflags f.status f.rarg f.payload
  let waits : Prop := ∃ x ∈ d.cmd.replyQ, x.src = r.src ∧ x.bytes = b
  match r.src.tr with
  | .spi => waits
  | .udp => Out.udpReply r.src.ip r.src.port b ∈ d.out
  | .pcie => waits ∨ ∃ a, Out.pcieReply a b ∈ d.out

/-- Two states agree but for the command channel and what has left the module. -/
def Dev.alike (a b : Dev) : Prop := { a with cmd := b.cmd, out := b.out } = b

/-- The conditions under which a request is served at once at instant t: the module serves, the channel is idle, the
transport takes the request, and the checks of Table 2.4 pass. -/
def Dev.admits (op : Byte) (r : Req) (d : Dev) : Bool :=
  d.serving && d.idle && d.receives op r && (d.packetFault op r r.len none true).isNone && (d.gate op.toNat r).isNone

/-- The flags of a final reply (Table 2.3). -/
def finalFlags (f : Fin) : Byte := if f.late then rFinal ||| rLate else rFinal

/-- Command i is served at once: the module answers the request with the final reply f, no request stays outstanding, and
but for the channel and what has left the module is as e. -/
def Served (i : Instr) (s : State) (op : Byte) (r : Req) (f : Fin) (e : Dev) : Prop :=
  ∃ d, exec i s = .next { s with dev := d } ∧ d.answered op r (finalFlags (f.fitted r.src.tr)) (f.fitted r.src.tr) ∧
    d.cmd.tags = [] ∧ d.alike e

/-- Command i is accepted: the module answers ACCEPTED, the request p stays outstanding, and but for the channel and what
has left the module is as e (R45). -/
def Accepted (i : Instr) (s : State) (op : Byte) (r : Req) (p : Pend) (e : Dev) : Prop :=
  ∃ d, exec i s = .next { s with dev := d } ∧ d.answered op r 0 { status := stAccepted } ∧ d.cmd.tags = [p] ∧ d.alike e

/-- The life-cycle state of the valid copy with the higher sequence number (R483). -/
def Dev.storedLife (d : Dev) : Life :=
  if d.nvm.lifeB.valid && (!d.nvm.lifeA.valid || decide (d.nvm.lifeA.seq < d.nvm.lifeB.seq)) then d.nvm.lifeB.state
  else d.nvm.lifeA.state

/-- A module whose stored state is RETIRED runs in RETIRED, if it runs, and no transition of it stands. -/
def Dev.retiredHolds (d : Dev) : Prop :=
  d.storedLife = .retired → d.life.advance = none ∧ (d.life.state = .retired ∨ d.runs = false)

end Sys2Proof.Machine
end

