-- ==== Sys2Proof/Certificates/Slice0/Obligations.lean ====
section
/-! DEFINITION. Certificates/Slice0/Obligations.lean: the statements about the module. Each names the rules of spec/ it is about. In the
statements about a command at instant t, d is the module with its time moved to t (notes/assumptions/2.md), and State.left e is the state in which the
command's own effect left the module as e and the supervisor's work has followed (Machine/Act.lean). -/

open Sys2Proof Sys2Proof.Machine

/-! ### The block -/

/-- A step takes the command at the front of the queue and runs it on the state with the queue's rest; with no command waiting the
module idles, and its state stays (the model's choice, notes/assumptions/5.md). -/
def Obligations.StepRunsTheFrontCommand : Prop :=
  (∀ (s : State) (c : Instr) (rest : List Instr), s.pending = c :: rest → step s = exec c { s with pending := rest }) ∧
  (∀ s : State, s.pending = [] → step s = .next s)

/-- Every command in every state answers a next state, and none touches the queue of waiting commands. One whose operands are
outside their ranges has no effect of its own: time moves, and the supervisor's work follows (the model's choice,
notes/assumptions/3.md). -/
def Obligations.CommandsWithLegalOperandsComplete : Prop :=
  (∀ (i : Instr) (s : State), ∃ d : Dev, exec i s = .next { s with dev := d }) ∧
  (∀ (i : Instr) (s : State), i.wf = false → (∀ t m, i ≠ .passOverrun t m) → exec i s = .next (s.left (s.dev.reach i.time))) ∧
  (∀ (s : State) (t : Nat) (m : Nat), (Instr.passOverrun t m).wf = false →
    exec (.passOverrun t m) s = .next (s.left (s.dev.advance t)))

/-- R493, R495, R499: a module without power, in reset, or held off by its temperature takes no part in any command but those of its
feeds, its reset line, its oscillator, the end of its hold-up and its thermal-off diode: nothing but the time changes. -/
def Obligations.AStoppedModuleTakesNoPart : Prop :=
  ∀ (i : Instr) (s : State), i.wf = true → i.reachesReset = false → s.dev.runs = false →
    exec i s = .next { s with dev := s.dev.advance i.time }

/-- Every command of a running module has its own effect. For each command, exec of it at instant t answers the state in which the
operation that follows its rules has acted on the module with its time moved to t, and the supervisor's work has followed: the
commands of the blocks where the module is up, the messages of the partner where it is ready as well, those of the boot ROM and
the board where it runs, those of its power, reset line and oscillator in every state, a request where its packet comes in, and
PASS_OVERRUN in the pass that it ends. What each operation does is said by the statements about its family. -/
def Obligations.EveryCommandHasItsOwnEffect : Prop :=
  ∀ (s : State) (t : Nat) (d : Dev), d = s.dev.reach t →
    (d.up = true →
      (∀ (m : MemoryIn), (Instr.frameTick t m).wf = true → exec (.frameTick t m) s = .next (s.left (Dev.frameTick m d))) ∧
      (exec (.ppsPulseEnd t) s = .next (s.left (Dev.ppsEnd d))) ∧
      (exec (.stepWaitExpiry t) s = .next (s.left (Dev.stepWait d))) ∧
      (∀ (m : SubTickIn), (Instr.subTick t m).wf = true → exec (.subTick t m) s = .next (s.left (Dev.subTick m d))) ∧
      (∀ (loop : Nat), (Instr.outputClampedLong t loop).wf = true →
        exec (.outputClampedLong t loop) s = .next (s.left (Dev.clampedLong loop d))) ∧
      (∀ (island : Nat), (Instr.releaseHoldExpiry t island).wf = true →
        exec (.releaseHoldExpiry t island) s = .next (s.left (Dev.releaseHold island d))) ∧
      (∀ (island : Nat), (Instr.pmsFallback t island).wf = true →
        exec (.pmsFallback t island) s = .next (s.left (Dev.pmsFallback island d))) ∧
      (∀ (late : Bool), (Instr.fusionOutput t late).wf = true →
        exec (.fusionOutput t late) s = .next (s.left (Dev.fusionSlot late d))) ∧
      (exec (.solveIterationComplete t) s = .next (s.left (Dev.iterationSlot d))) ∧
      (exec (.solveDeadline t) s = .next (s.left (Dev.deadlineSlot d))) ∧
      (exec (.refinementWindowStart t) s = .next (s.left (Dev.refineFromSlot d))) ∧
      (exec (.refinementWindowEnd t) s = .next (s.left (Dev.refineToSlot d))) ∧
      (exec (.joystickTimeout t) s = .next (s.left (Dev.joyTimeout d))) ∧
      (∀ (readable : Bool), (Instr.handoff t readable).wf = true →
        exec (.handoff t readable) s = .next (s.left (Dev.handoffSlot readable d))) ∧
      (∀ (notQueued : BitVec 24), (Instr.commandQueueCutoff t notQueued).wf = true →
        exec (.commandQueueCutoff t notQueued) s = .next (s.left (Dev.cutoffSlot notQueued d))) ∧
      (∀ (served : Bool), (Instr.launch t served).wf = true →
        exec (.launch t served) s = .next (s.left (Dev.launchSlot served d))) ∧
      (exec (.tailSlotEnd t) s = .next (s.left (Dev.tailSlot d))) ∧
      (exec (.commitResultTimeout t) s = .next (s.left (Dev.commitResultTimeout d))) ∧
      (exec (.whatifComplete t) s = .next (s.left (Dev.whatifComplete d))) ∧
      (exec (.cycleOverdue t) s = .next (s.left (Dev.cycleOverdue d))) ∧
      (∀ (group : Nat), (Instr.resultStale t group).wf = true →
        exec (.resultStale t group) s = .next (s.left (Dev.resultStale group d))) ∧
      (exec (.stagingAbandoned t) s = .next (s.left (Dev.stageTimeout d))) ∧
      (∀ (ip : Nat) (port : Nat) (iface : Nat) (dstPort : Nat) (bytes : List Byte), (Instr.udpDatagramReceived t ip port iface dstPort bytes).wf = true →
        exec (.udpDatagramReceived t ip port iface dstPort bytes) s = .next (s.left (Dev.udpIn ip port iface dstPort bytes d))) ∧
      (exec (.keptReplyExpiry t) s = .next (s.left (Dev.keptExpiry d))) ∧
      (∀ (value : Word) (slots : List (List Byte)), (Instr.cmdProducerWrite t value slots).wf = true →
        exec (.cmdProducerWrite t value slots) s = .next (s.left (Dev.producerWrite value slots d))) ∧
      (∀ (value : Word), (Instr.rplConsumerWrite t value).wf = true →
        exec (.rplConsumerWrite t value) s = .next (s.left (Dev.consumerWrite value d))) ∧
      (∀ (enable : Bool), (Instr.ctrlEnable t enable).wf = true →
        exec (.ctrlEnable t enable) s = .next (s.left (Dev.ctrlEnable enable d))) ∧
      (exec (.resetRings t) s = .next (s.left (Dev.resetRings d))) ∧
      (∀ (mask : Word), (Instr.irqStatusClear t mask).wf = true →
        exec (.irqStatusClear t mask) s = .next (s.left (Dev.irqClear mask d))) ∧
      (∀ (offset : Nat) (value : Word), (Instr.registerWrite t offset value).wf = true →
        exec (.registerWrite t offset value) s = .next (s.left (Dev.bar0Write offset value d))) ∧
      (exec (.pciePerst t) s = .next (s.left (Dev.perst d))) ∧
      (exec (.replyQueuedOnSpace t) s = .next (s.left (Dev.replyOnSpace d))) ∧
      (∀ (queue : Nat), (Instr.queueIdle t queue).wf = true →
        exec (.queueIdle t queue) s = .next (s.left (Dev.queueIdle queue d))) ∧
      (∀ (port : Nat) (f : EthFrame), (Instr.ethFrameReceived t port f).wf = true →
        exec (.ethFrameReceived t port f) s = .next (s.left (Dev.ethReceived port f d))) ∧
      (∀ (ctx : Nat), (Instr.flowTimeout t ctx).wf = true →
        exec (.flowTimeout t ctx) s = .next (s.left (Dev.flowTimeout ctx d))) ∧
      (∀ (ctx : Nat), (Instr.flowBadAfter t ctx).wf = true →
        exec (.flowBadAfter t ctx) s = .next (s.left (Dev.flowBadAfter ctx d))) ∧
      (∀ (port : Nat) (f : EthFrame), (Instr.ackFrameReceived t port f).wf = true →
        exec (.ackFrameReceived t port f) s = .next (s.left (Dev.ackFrame port f d))) ∧
      (∀ (port : Nat) (m : PtpIn), (Instr.ptpMessageReceived t port m).wf = true →
        exec (.ptpMessageReceived t port m) s = .next (s.left (Dev.ptpReceive port m.domain m.msg d))) ∧
      (∀ (port : Nat) (k : PtpSend), (Instr.ptpMessageSend t port k).wf = true →
        exec (.ptpMessageSend t port k) s = .next (s.left (Dev.ptpSend port k d))) ∧
      (∀ (port : Nat), (Instr.announceTimeout t port).wf = true →
        exec (.announceTimeout t port) s = .next (s.left (Dev.announceLost port d))) ∧
      (∀ (rising : Bool), (Instr.ppsInEdge t rising).wf = true →
        exec (.ppsInEdge t rising) s = .next (s.left (Dev.ppsIn rising d))) ∧
      (exec (.ref10Invalid t) s = .next (s.left (Dev.ref10Bad d))) ∧
      (∀ (queue : Nat), (Instr.launchQueueLaunch t queue).wf = true →
        exec (.launchQueueLaunch t queue) s = .next (s.left (Dev.launchDue queue d))) ∧
      (exec (.supervisionFrameSend t) s = .next (s.left (Dev.supervise d))) ∧
      (exec (.ringOpen t) s = .next (s.left (Dev.ringOpens d))) ∧
      (exec (.nodeForget t) s = .next (s.left (Dev.forget d))) ∧
      (∀ (port : Nat) (up : Bool), (Instr.portLinkChange t port up).wf = true →
        exec (.portLinkChange t port up) s = .next (s.left (Dev.linkChange port up d))) ∧
      (∀ (relay : Nat), (Instr.bypassMismatch t relay).wf = true →
        exec (.bypassMismatch t relay) s = .next (s.left (Dev.bypassBad relay d))) ∧
      (exec (.ref10Valid t) s = .next (s.left (Dev.ref10Good d))) ∧
      (∀ (port : Nat) (slots : List Word) (stalled : Bool), (Instr.samplePortFrame t port slots stalled).wf = true →
        exec (.samplePortFrame t port slots stalled) s = .next (s.left (Dev.portFrame port slots stalled d))) ∧
      (∀ (u : Nat), (Instr.resamplerNoCrossing t u).wf = true →
        exec (.resamplerNoCrossing t u) s = .next (s.left (Dev.rsNoCross u d))) ∧
      (∀ (link : Nat) (f : LinkFrame), (Instr.linkFrame t link f).wf = true →
        exec (.linkFrame t link f) s = .next (s.left (Dev.linkFrame link f d))) ∧
      (exec (.acquisitionPass t) s = .next (s.left (Dev.acquisitionPass d))) ∧
      (∀ (ant : Nat) (ch : Nat), (Instr.trackingLossOfLock t ant ch).wf = true →
        exec (.trackingLossOfLock t ant ch) s = .next (s.left (Dev.lossOfLock ant ch d))) ∧
      (∀ (ant : Nat) (ch : Nat), (Instr.reacquisitionExpiry t ant ch).wf = true →
        exec (.reacquisitionExpiry t ant ch) s = .next (s.left (Dev.reacqExpiry ant ch d))) ∧
      (exec (.gnssSolutionComplete t) s = .next (s.left (Dev.solutionComplete d))) ∧
      (exec (.gnssSolutionDeadline t) s = .next (s.left (Dev.solutionDeadline d))) ∧
      (∀ (iface : Nat) (dstPort : Nat) (bytes : List Byte), (Instr.correctionDatagram t iface dstPort bytes).wf = true →
        exec (.correctionDatagram t iface dstPort bytes) s = .next (s.left (Dev.corrDatagram iface dstPort bytes d))) ∧
      (∀ (stream : Nat), (Instr.correctionsStale t stream).wf = true →
        exec (.correctionsStale t stream) s = .next (s.left (Dev.corrStale stream d))) ∧
      (exec (.gnssStoreWrite t) s = .next (s.left (Dev.gnssStoreWrite d))) ∧
      (∀ (slot : Nat), (Instr.refMaxgapExpiry t slot).wf = true →
        exec (.refMaxgapExpiry t slot) s = .next (s.left (Dev.maxgap slot d))) ∧
      (∀ (cls : Nat), (Instr.conflictExpired t cls).wf = true →
        exec (.conflictExpired t cls) s = .next (s.left (Dev.conflictExpired cls d))) ∧
      (∀ (cls : Nat), (Instr.conflictCleared t cls).wf = true →
        exec (.conflictCleared t cls) s = .next (s.left (Dev.conflictCleared cls d))) ∧
      (∀ (cls : Nat) (slot : Nat), (Instr.referenceReadmit t cls slot).wf = true →
        exec (.referenceReadmit t cls slot) s = .next (s.left (Dev.readmit cls slot d))) ∧
      (exec (.fusionSettled t) s = .next (s.left (Dev.fusionSettled d))) ∧
      (exec (.refinedModelStoreWrite t) s = .next (s.left (Dev.refineStore d))) ∧
      (exec (.leaseExpiry t) s = .next (s.left (Dev.leaseExpires d))) ∧
      (exec (.fenceAck t) s = .next (s.left (Dev.fenceAck d))) ∧
      (exec (.fenceAckTimeout t) s = .next (s.left (Dev.fenceAckTimeout d))) ∧
      (exec (.ownInEdge t) s = .next (s.left (Dev.ownEdge d))) ∧
      (exec (.ownInTimeout t) s = .next (s.left (Dev.ownQuiet d))) ∧
      (exec (.secondOwner t) s = .next (s.left (Dev.secondOwner d))) ∧
      (exec (.partnerLost t) s = .next (s.left (Dev.partnerLost d))) ∧
      (∀ (lane : Nat), (Instr.laneDown t lane).wf = true → exec (.laneDown t lane) s = .next (s.left (Dev.laneDown lane d))) ∧
      (exec (.claimWaitExpiry t) s = .next (s.left (Dev.claimWaitEnds d))) ∧
      (exec (.orphanSolo t) s = .next (s.left (Dev.orphanSolo d))) ∧
      (exec (.returnHoldoffExpiry t) s = .next (s.left (Dev.holdoffEnds d))) ∧
      (exec (.resyncRetry t) s = .next (s.left (Dev.resyncRetry d))) ∧
      (∀ (kind : Nat), (Instr.ownershipMismatch t kind).wf = true →
        exec (.ownershipMismatch t kind) s = .next (s.left (Dev.mismatch kind d))) ∧
      (∀ (reading : Option Int), (Instr.diodeConversionComplete t reading).wf = true →
        exec (.diodeConversionComplete t reading) s = .next (s.left (Dev.diodeComplete reading d))) ∧
      (exec (.diodeRecheck t) s = .next (s.left (Dev.diodeRecheck d))) ∧
      (exec (.rateAlertClear t) s = .next (s.left (Dev.alertClear d))) ∧
      (∀ (r : ScanResult), (Instr.selftestComplete t r).wf = true →
        exec (.selftestComplete t r) s = .next (s.left (Dev.selftestComplete r d))) ∧
      (exec (.autoSelftestDue t) s = .next (s.left (Dev.autoDue d))) ∧
      (exec (.faultEntryHandled t) s = .next (s.left (Dev.faultHandled d))) ∧
      (∀ (code : Nat) (source : Nat), (Instr.faultHoldExpiry t code source).wf = true →
        exec (.faultHoldExpiry t code source) s = .next (s.left (Dev.faultExpire code source d))) ∧
      (exec (.priorityLaneWrite t) s = .next (s.left (Dev.laneWrite d))) ∧
      (exec (.lostRecord t) s = .next (s.left (Dev.lostRecord d))) ∧
      (∀ (bad : List Nat), (Instr.locketScrub t bad).wf = true →
        exec (.locketScrub t bad) s = .next (s.left (Dev.locketScrub bad d))) ∧
      (exec (.opSecondsWrite t) s = .next (s.left (Dev.opWrite d))) ∧
      (exec (.unitReady t) s = .next (s.left (Dev.unitReady d))) ∧
      (∀ (ctrl : Nat) (f : CanFrame), (Instr.canFrameReceived t ctrl f).wf = true →
        exec (.canFrameReceived t ctrl f) s = .next (s.left (Dev.canReceive ctrl f d))) ∧
      (∀ (mapping : Nat), (Instr.rxmapTimeout t mapping).wf = true →
        exec (.rxmapTimeout t mapping) s = .next (s.left (Dev.mapTimeout mapping d))) ∧
      (∀ (ctrl : Nat) (buf : Nat), (Instr.canBufferLock t ctrl buf).wf = true →
        exec (.canBufferLock t ctrl buf) s = .next (s.left (Dev.canLock ctrl buf d))) ∧
      (∀ (ctrl : Nat) (buf : Nat), (Instr.canBufferRelease t ctrl buf).wf = true →
        exec (.canBufferRelease t ctrl buf) s = .next (s.left (Dev.canRelease ctrl buf d))) ∧
      (∀ (ctrl : Nat) (buf : Nat), (Instr.canLockTimeout t ctrl buf).wf = true →
        exec (.canLockTimeout t ctrl buf) s = .next (s.left (Dev.canLockTimeout ctrl buf d))) ∧
      (∀ (ctrl : Nat) (buf : Nat) (r : CanAttempt), (Instr.canAttemptEnd t ctrl buf r).wf = true →
        exec (.canAttemptEnd t ctrl buf r) s = .next (s.left (Dev.canAttempt ctrl buf r.result r.sinceSof d))) ∧
      (∀ (ctrl : Nat), (Instr.canRecoveryComplete t ctrl).wf = true →
        exec (.canRecoveryComplete t ctrl) s = .next (s.left (Dev.canRecovered ctrl d))) ∧
      (∀ (ctrl : Nat) (e : CanRxError), (Instr.canReceiveError t ctrl e).wf = true →
        exec (.canReceiveError t ctrl e) s = .next (s.left (Dev.canRxError ctrl e d)))) ∧
    (d.up = true → d.life.ready = true →
      (∀ (lane : Nat) (bytes : List Byte), (Instr.heartbeatReceived t lane bytes).wf = true →
        exec (.heartbeatReceived t lane bytes) s = .next (s.left (Dev.beatReceived lane bytes d))) ∧
      (∀ (lane : Nat) (bytes : List Byte), (Instr.releaseReceived t lane bytes).wf = true →
        exec (.releaseReceived t lane bytes) s = .next (s.left (Dev.releaseReceived bytes d))) ∧
      (∀ (lane : Nat) (bytes : List Byte), (Instr.mirrorSegmentReceived t lane bytes).wf = true →
        exec (.mirrorSegmentReceived t lane bytes) s = .next (s.left (Dev.mirrorReceived bytes d))) ∧
      (∀ (lane : Nat) (bytes : List Byte), (Instr.commitReceived t lane bytes).wf = true →
        exec (.commitReceived t lane bytes) s = .next (s.left (Dev.commitReceived bytes d))) ∧
      (∀ (lane : Nat) (bytes : List Byte), (Instr.commitResultReceived t lane bytes).wf = true →
        exec (.commitResultReceived t lane bytes) s = .next (s.left (Dev.commitResult bytes d))) ∧
      (∀ (lane : Nat) (bytes : List Byte), (Instr.configImageReceived t lane bytes).wf = true →
        exec (.configImageReceived t lane bytes) s = .next (s.left (Dev.imageReceived bytes d))) ∧
      (∀ (lane : Nat) (bytes : List Byte), (Instr.flowStateReceived t lane bytes).wf = true →
        exec (.flowStateReceived t lane bytes) s = .next (s.left (Dev.flowStateReceived bytes d)))) ∧
    (d.runs = true →
      (exec (.flashEraseDone t) s = .next (s.left (Dev.eraseDone d))) ∧
      (∀ (tag : BitVec 6), (Instr.requestTimeout t tag).wf = true →
        exec (.requestTimeout t tag) s = .next (s.left (Dev.requestTimeout tag d))) ∧
      (∀ (bytes : List Byte), (Instr.spiWrite t bytes).wf = true →
        exec (.spiWrite t bytes) s = .next (s.left (Dev.spiWrite bytes d))) ∧
      (∀ (clocked : Nat), (Instr.spiRead t clocked).wf = true →
        exec (.spiRead t clocked) s = .next (s.left (Dev.spiRead clocked d))) ∧
      (exec (.spiStat t) s = .next (s.left (Dev.spiStat d))) ∧
      (∀ (m : IslandIn), (Instr.islandTick t m).wf = true → exec (.islandTick t m) s = .next (s.left (Dev.islandTick m d))) ∧
      (∀ (input : Nat), (Instr.discrepancyTimeout t input).wf = true →
        exec (.discrepancyTimeout t input) s = .next (s.left (Dev.discrepancyTimeout input d))) ∧
      (∀ (input : Nat), (Instr.lineFaultClear t input).wf = true →
        exec (.lineFaultClear t input) s = .next (s.left (Dev.lineFaultClear input d))) ∧
      (exec (.resetInputHeld t) s = .next (s.left (Dev.resetInputHeld d))) ∧
      (∀ (output : Nat), (Instr.outputOvercurrent t output).wf = true →
        exec (.outputOvercurrent t output) s = .next (s.left (Dev.outputOvercurrent output d))) ∧
      (∀ (output : Nat) (failedOn : Bool), (Instr.outputReadbackFail t output failedOn).wf = true →
        exec (.outputReadbackFail t output failedOn) s = .next (s.left (Dev.outputReadback output failedOn d))) ∧
      (∀ (md : Nat) (nodeLow : Bool), (Instr.masterDisconnectTest t md nodeLow).wf = true →
        exec (.masterDisconnectTest t md nodeLow) s = .next (s.left (Dev.masterTest md nodeLow d))) ∧
      (∀ (cause : Nat), (Instr.islandWatchdogExpiry t cause).wf = true →
        exec (.islandWatchdogExpiry t cause) s = .next (s.left (Dev.islandFault cause d))) ∧
      (∀ (word : Word), (Instr.bezelRead t word).wf = true →
        exec (.bezelRead t word) s = .next (s.left (Dev.bezelRead word d))) ∧
      (exec (.thermalReset t) s = .next (s.left (Dev.thermalReset d))) ∧
      (exec (.resetObeyed t) s = .next (s.left (Dev.resetObeyed d))) ∧
      (exec (.supervisorWatchdog t) s = .next (s.left (Dev.restart 2 d))) ∧
      (∀ (bank : Nat) (mv : Nat), (Instr.vioOut t bank mv).wf = true →
        exec (.vioOut t bank mv) s = .next (s.left (Dev.vioIsOut bank mv d))) ∧
      (∀ (bank : Nat), (Instr.vioRestored t bank).wf = true →
        exec (.vioRestored t bank) s = .next (s.left (Dev.vioIsBack bank d))) ∧
      (∀ (kind : Nat) (ppb : Int), (Instr.oscFault t kind ppb).wf = true →
        exec (.oscFault t kind ppb) s = .next (s.left (Dev.oscFails kind ppb d))) ∧
      (∀ (addr : Word) (uncorrectable : Bool), (Instr.dramEccError t addr uncorrectable).wf = true →
        exec (.dramEccError t addr uncorrectable) s = .next (s.left (Dev.dramError addr uncorrectable d))) ∧
      (∀ (a : DebugAccess), (Instr.debugPortAccess t a).wf = true →
        exec (.debugPortAccess t a) s = .next (s.left (Dev.debugAccess a d)))) ∧
    ((∀ (feed : Nat) (volts : Nat), (Instr.feedInvalid t feed volts).wf = true →
        exec (.feedInvalid t feed volts) s = .next (s.left (Dev.feedFalls feed volts d))) ∧
      (∀ (feed : Nat) (volts : Nat), (Instr.feedValid t feed volts).wf = true →
        exec (.feedValid t feed volts) s = .next (s.left (Dev.feedRises feed volts d))) ∧
      (∀ (reading : Option Int), (Instr.thermalOffDiodeRead t reading).wf = true →
        exec (.thermalOffDiodeRead t reading) s = .next (s.left (Dev.thermalOffRead reading d))) ∧
      (∀ (bezel1 : Word) (bezel2 : Word) (phyFaults : BitVec 4) (holdup : Nat) (diode : Option Int), (Instr.powerUp t bezel1 bezel2 phyFaults holdup diode).wf = true →
        exec (.powerUp t bezel1 bezel2 phyFaults holdup diode) s = .next (s.left (Dev.powerUp bezel1 bezel2 phyFaults holdup diode d))) ∧
      (∀ (lowNs : Nat), (Instr.rstNAssert t lowNs).wf = true →
        exec (.rstNAssert t lowNs) s = .next (s.left (Dev.rstAssert lowNs d))) ∧
      (∀ (bezel1 : Word) (bezel2 : Word) (diode : Option Int), (Instr.rstNRelease t bezel1 bezel2 diode).wf = true →
        exec (.rstNRelease t bezel1 bezel2 diode) s = .next (s.left (Dev.rstRelease bezel1 bezel2 diode d))) ∧
      (∀ (bezel1 : Word) (bezel2 : Word) (diode : Option Int), (Instr.resetStuck t bezel1 bezel2 diode).wf = true →
        exec (.resetStuck t bezel1 bezel2 diode) s = .next (s.left (Dev.resetStuck bezel1 bezel2 diode d))) ∧
      (exec (.holdupExhausted t) s = .next (s.left (Dev.holdupExhausted d))) ∧
      (∀ (secs : Nat), (Instr.oscWarm t secs).wf = true → exec (.oscWarm t secs) s = .next (s.left (Dev.oscIsWarm secs d)))) ∧
    (∀ r : Req,
      ((Instr.echo t r).wf = true → exec (.echo t r) s = .next (s.left (Dev.requestIn 0x00 r d))) ∧
      ((Instr.infoRead t r).wf = true → exec (.infoRead t r) s = .next (s.left (Dev.requestIn 0x01 r d))) ∧
      ((Instr.statusRead t r).wf = true → exec (.statusRead t r) s = .next (s.left (Dev.requestIn 0x02 r d))) ∧
      ((Instr.paramRead t r).wf = true → exec (.paramRead t r) s = .next (s.left (Dev.requestIn 0x10 r d))) ∧
      ((Instr.paramStage t r).wf = true → exec (.paramStage t r) s = .next (s.left (Dev.requestIn 0x11 r d))) ∧
      ((Instr.paramCommit t r).wf = true → exec (.paramCommit t r) s = .next (s.left (Dev.requestIn 0x12 r d))) ∧
      ((Instr.paramDiscard t r).wf = true → exec (.paramDiscard t r) s = .next (s.left (Dev.requestIn 0x13 r d))) ∧
      ((Instr.hallmarkRead t r).wf = true → exec (.hallmarkRead t r) s = .next (s.left (Dev.requestIn 0x14 r d))) ∧
      ((Instr.signalRead t r).wf = true → exec (.signalRead t r) s = .next (s.left (Dev.requestIn 0x20 r d))) ∧
      ((Instr.signalWrite t r).wf = true → exec (.signalWrite t r) s = .next (s.left (Dev.requestIn 0x21 r d))) ∧
      ((Instr.signalNotify t r).wf = true → exec (.signalNotify t r) s = .next (s.left (Dev.requestIn 0x22 r d))) ∧
      ((Instr.signalNotifyCancel t r).wf = true → exec (.signalNotifyCancel t r) s = .next (s.left (Dev.requestIn 0x22 r d))) ∧
      ((Instr.flowOpen t r).wf = true → exec (.flowOpen t r) s = .next (s.left (Dev.requestIn 0x28 r d))) ∧
      ((Instr.flowClose t r).wf = true → exec (.flowClose t r) s = .next (s.left (Dev.requestIn 0x29 r d))) ∧
      ((Instr.flowStatus t r).wf = true → exec (.flowStatus t r) s = .next (s.left (Dev.requestIn 0x2A r d))) ∧
      ((Instr.modeSet t r).wf = true → exec (.modeSet t r) s = .next (s.left (Dev.requestIn 0x30 r d))) ∧
      ((Instr.targetSet t r).wf = true → exec (.targetSet t r) s = .next (s.left (Dev.requestIn 0x31 r d))) ∧
      ((Instr.joystickSet t r).wf = true → exec (.joystickSet t r) s = .next (s.left (Dev.requestIn 0x32 r d))) ∧
      ((Instr.conseqRead t r).wf = true → exec (.conseqRead t r) s = .next (s.left (Dev.requestIn 0x38 r d))) ∧
      ((Instr.gnssRawRead t r).wf = true → exec (.gnssRawRead t r) s = .next (s.left (Dev.requestIn 0x40 r d))) ∧
      ((Instr.gnssCorrFeed t r).wf = true → exec (.gnssCorrFeed t r) s = .next (s.left (Dev.requestIn 0x41 r d))) ∧
      ((Instr.stateRead t r).wf = true → exec (.stateRead t r) s = .next (s.left (Dev.requestIn 0x48 r d))) ∧
      ((Instr.solverRead t r).wf = true → exec (.solverRead t r) s = .next (s.left (Dev.requestIn 0x50 r d))) ∧
      ((Instr.solutionRead t r).wf = true → exec (.solutionRead t r) s = .next (s.left (Dev.requestIn 0x51 r d))) ∧
      ((Instr.traceArm t r).wf = true → exec (.traceArm t r) s = .next (s.left (Dev.requestIn 0x58 r d))) ∧
      ((Instr.traceRead t r).wf = true → exec (.traceRead t r) s = .next (s.left (Dev.requestIn 0x59 r d))) ∧
      ((Instr.timeRead t r).wf = true → exec (.timeRead t r) s = .next (s.left (Dev.requestIn 0x60 r d))) ∧
      ((Instr.timeStep t r).wf = true → exec (.timeStep t r) s = .next (s.left (Dev.requestIn 0x61 r d))) ∧
      ((Instr.frameLaunch t r).wf = true → exec (.frameLaunch t r) s = .next (s.left (Dev.requestIn 0x62 r d))) ∧
      ((Instr.canSend t r).wf = true → exec (.canSend t r) s = .next (s.left (Dev.requestIn 0x68 r d))) ∧
      ((Instr.canFetch t r).wf = true → exec (.canFetch t r) s = .next (s.left (Dev.requestIn 0x69 r d))) ∧
      ((Instr.canRecover t r).wf = true → exec (.canRecover t r) s = .next (s.left (Dev.requestIn 0x6A r d))) ∧
      ((Instr.roleRead t r).wf = true → exec (.roleRead t r) s = .next (s.left (Dev.requestIn 0x70 r d))) ∧
      ((Instr.roleRelease t r).wf = true → exec (.roleRelease t r) s = .next (s.left (Dev.requestIn 0x71 r d))) ∧
      ((Instr.safetyRead t r).wf = true → exec (.safetyRead t r) s = .next (s.left (Dev.requestIn 0x78 r d))) ∧
      ((Instr.eventRead t r).wf = true → exec (.eventRead t r) s = .next (s.left (Dev.requestIn 0x80 r d))) ∧
      ((Instr.eventMark t r).wf = true → exec (.eventMark t r) s = .next (s.left (Dev.requestIn 0x81 r d))) ∧
      ((Instr.eventErase t r).wf = true → exec (.eventErase t r) s = .next (s.left (Dev.requestIn 0x81 r d))) ∧
      ((Instr.thermalRead t r).wf = true → exec (.thermalRead t r) s = .next (s.left (Dev.requestIn 0x88 r d))) ∧
      ((Instr.selftestRun t r).wf = true → exec (.selftestRun t r) s = .next (s.left (Dev.requestIn 0x90 r d))) ∧
      ((Instr.selftestResult t r).wf = true → exec (.selftestResult t r) s = .next (s.left (Dev.requestIn 0x91 r d))) ∧
      ((Instr.lifecycleRead t r).wf = true → exec (.lifecycleRead t r) s = .next (s.left (Dev.requestIn 0xA0 r d))) ∧
      ((Instr.lifecycleAdvance t r).wf = true → exec (.lifecycleAdvance t r) s = .next (s.left (Dev.requestIn 0xA1 r d))) ∧
      ((Instr.fwStage t r).wf = true → exec (.fwStage t r) s = .next (s.left (Dev.requestIn 0xF0 r d))) ∧
      ((Instr.fwActivate t r).wf = true → exec (.fwActivate t r) s = .next (s.left (Dev.requestIn 0xF1 r d)))) ∧
    (∀ e : Dev, e = s.dev.advance t → e.up = true →
      (∀ (firstLoop : Nat), (Instr.passOverrun t firstLoop).wf = true →
        exec (.passOverrun t firstLoop) s = .next (s.left (Dev.overrunSlot firstLoop e))))

/-! ### Requests (02) -/

/-- R60, ECHO of Table 2.8: ECHO answers OK with its payload and TARGET bits [15:0], and changes nothing. The reads with TARGET 0
(Table 2.8): each answers OK with its record, taken at the start of the operation, and changes nothing but the channel. -/
def Obligations.ReadsAnswerTheirRecord : Prop :=
  (∀ (s : State) (t : Nat) (r : Req) (d : Dev), d = s.dev.reach t → r.wf = true → d.admits 0x00 r = true →
    Served (.echo t r) s 0x00 r { status := stOk, rarg := BitVec.ofNat 16 r.tgt, payload := r.payload } (d.begun 0x00 r)) ∧
  (∀ (s : State) (t : Nat) (r : Req) (d : Dev), d = s.dev.reach t → r.wf = true → r.target = 0 →
    (d.admits 0x01 r = true → Served (.infoRead t r) s 0x01 r { status := stOk, payload := (d.begun 0x01 r).infoBytes } (d.begun 0x01 r)) ∧
    (d.admits 0x48 r = true → Served (.stateRead t r) s 0x48 r { status := stOk, payload := (d.begun 0x48 r).stateBytes } (d.begun 0x48 r)) ∧
    (d.admits 0x60 r = true → Served (.timeRead t r) s 0x60 r { status := stOk, payload := (d.begun 0x60 r).timeRecord } (d.begun 0x60 r)) ∧
    (d.admits 0x70 r = true → Served (.roleRead t r) s 0x70 r { status := stOk, payload := (d.begun 0x70 r).roleRecord } (d.begun 0x70 r)) ∧
    (d.admits 0x78 r = true → Served (.safetyRead t r) s 0x78 r { status := stOk, payload := (d.begun 0x78 r).safetyBytes } (d.begun 0x78 r)) ∧
    (d.admits 0x88 r = true → Served (.thermalRead t r) s 0x88 r { status := stOk, payload := (d.begun 0x88 r).health.record } (d.begun 0x88 r)) ∧
    (d.admits 0xA0 r = true → Served (.lifecycleRead t r) s 0xA0 r { status := stOk, payload := (d.begun 0xA0 r).lifecycleBytes } (d.begun 0xA0 r)) ∧
    (∀ h, h = (if r.stagedView then hallmarkOf ((d.begun 0x14 r).view (d.begun 0x14 r).cfg.staged) else (d.begun 0x14 r).cfg.hallmark) →
      d.admits 0x14 r = true → Served (.hallmarkRead t r) s 0x14 r
        { status := stOk, payload := Bits.le 8 h.toNat ++ Bits.le 4 (d.begun 0x14 r).cfg.lastCommit } (d.begun 0x14 r)))

/-- R33, R60: STATUS_READ answers Table 2.11 as it stands, and clears every sticky overrun bit. -/
def Obligations.StatusReadClearsOverruns : Prop :=
  ∀ (s : State) (t : Nat) (r : Req) (d : Dev), d = s.dev.reach t → r.wf = true → r.target = 0 → d.admits 0x02 r = true →
    ∃ e, exec (.statusRead t r) s = .next { s with dev := e } ∧ e.alike (d.begun 0x02 r) ∧ e.cmd.tags = [] ∧
      e.answered 0x02 r rFinal { status := stOk, payload := (d.begun 0x02 r).statusBytes } ∧
      ∀ id, (e.q id).overrun = false

/-- The reads whose TARGET names what they read (Table 2.8): for a target in range each answers OK with the record it names. A
PARAM_READ of the staged view has been heard for the set as it came (R64, in the module's start of a request), and the records a
SIGNAL_READ reads are found out where they hold wrong bits (R104). CONSEQ_READ of a group, GNSS_RAW_READ, TRACE_READ and
EVENT_READ (Table 2.8): with their arguments in range they answer OK with what they name, and change nothing but the channel; an
EVENT_READ marks the records it finds uncorrectable (R475). -/
def Obligations.NamedReadsAnswerWhatTheyName : Prop :=
  (∀ (s : State) (t : Nat) (r : Req) (d : Dev), d = s.dev.reach t → r.wf = true →
    (d.admits 0x10 r = true → addrOk (fieldAddr r.target) = true →
      ∀ b p, b = d.begun 0x10 r →
      p = (addrKeys (fieldAddr r.target)).flatMap (fun k => Bits.le 4 (b.fieldRead (k / 65536) (k % 65536) r.stagedView).toNat) →
      Served (.paramRead t r) s 0x10 r { status := stOk, payload := p } b) ∧
    (d.admits 0x20 r = true → 16 * (r.tgt / 2 ^ 17 % 1024 + 1) ≤ maxPayload r.src.tr →
      r.tgt % 2 ^ 17 + (r.tgt / 2 ^ 17 % 1024 + 1) ≤ 131072 →
      ∀ b p, b = (d.begun 0x20 r).imageFind (fun i => decide (r.tgt % 2 ^ 17 ≤ i) && decide (i < r.tgt % 2 ^ 17 + (r.tgt / 2 ^ 17 % 1024 + 1))) →
      p = (Bits.upTo (r.tgt / 2 ^ 17 % 1024 + 1)).flatMap (fun k => (b.readPt (r.tgt % 2 ^ 17 + k)).bytes) →
      Served (.signalRead t r) s 0x20 r { status := stOk, payload := p } b) ∧
    (d.admits 0x2A r = true → r.tgt ≤ 255 →
      Served (.flowStatus t r) s 0x2A r { status := stOk, payload := (d.begun 0x2A r).flowStatusBytes r.tgt } (d.begun 0x2A r)) ∧
    (d.admits 0x50 r = true → r.tgt ≤ 63 →
      ∀ p, p = (if r.tgt = 0 then (d.begun 0x50 r).solver.sol else ((d.begun 0x50 r).group r.tgt).sol).status
        (if r.tgt = 0 then (d.begun 0x50 r).solver.shifted else 0) →
      Served (.solverRead t r) s 0x50 r { status := stOk, payload := p } (d.begun 0x50 r)) ∧
    (d.admits 0x51 r = true → r.tgt ≤ 63 →
      ∀ p, p = (if r.tgt = 0 then (d.begun 0x51 r).solver.sol else ((d.begun 0x51 r).group r.tgt).sol).bytes →
      Served (.solutionRead t r) s 0x51 r { status := stOk, payload := p } (d.begun 0x51 r)) ∧
    (d.admits 0x91 r = true → r.tgt ≤ 4 →
      Served (.selftestResult t r) s 0x91 r { status := stOk, payload := (d.begun 0x91 r).selftestRecord r.tgt } (d.begun 0x91 r))) ∧
  (∀ (s : State) (t : Nat) (r : Req) (d : Dev), d = s.dev.reach t → r.wf = true →
    (d.admits 0x38 r = true → 1 ≤ r.tgt → r.tgt ≤ 63 →
      Served (.conseqRead t r) s 0x38 r { status := stOk, payload := (d.begun 0x38 r).conseqHead ++ (d.begun 0x38 r).groupBytes r.tgt } (d.begun 0x38 r)) ∧
    (d.admits 0x38 r = true → r.tgt = 0 → 2032 ≤ maxPayload r.src.tr →
      ∀ p, p = (d.begun 0x38 r).conseqHead ++ ((Bits.upTo 63).map (fun g => (d.begun 0x38 r).groupBytes (g + 1))).flatten →
      Served (.conseqRead t r) s 0x38 r { status := stOk, payload := p } (d.begun 0x38 r)) ∧
    (∀ n, n = (if r.tgt / 65536 % 256 = 0 then 96 else r.tgt / 65536 % 256) →
      d.admits 0x40 r = true → (d.begun 0x40 r).antCount ≠ 4 → r.tgt % 256 < 2 → r.tgt < 2 ^ 24 → r.tgt / 256 % 256 + n ≤ 96 →
      16 + 32 * n ≤ maxPayload r.src.tr →
      Served (.gnssRawRead t r) s 0x40 r { status := stOk, payload := (d.begun 0x40 r).rawBytes (r.tgt % 256) (r.tgt / 256 % 256) n } (d.begun 0x40 r)) ∧
    (∀ n, n = Bits.at' r.payload 2 2 → d.admits 0x59 r = true → r.tgt ≤ 15 → n ≤ (if r.src.tr = .udp then 684 else 8176) →
      Served (.traceRead t r) s 0x59 r { status := stOk, payload := ((d.begun 0x59 r).probe r.tgt).bytes (Bits.at' r.payload 0 2) n } (d.begun 0x59 r)) ∧
    (∀ n fmt, n = Bits.at' r.payload 0 2 → fmt = Bits.byteAt r.payload 2 →
      d.admits 0x80 r = true → fmt ≤ 1 → Bits.byteAt r.payload 3 ≤ 4 → n ≤ maxEvents r.src.tr fmt →
      ∀ (b e : Dev) (k : Nat) (seen : List Stored), b = d.begun 0x80 r → k = (if n = 0 then maxEvents r.src.tr fmt else n) →
      seen = (b.nvm.store.window r.tgt).take (takeEvents (Bits.byteAt r.payload 3) (b.nvm.store.window r.tgt) k).2 →
      e = b.recordsBad (b.nvm.store.struck.filter (fun q => seen.any (fun x => x.seq == q))) →
      Served (.eventRead t r) s 0x80 r { status := stOk, payload := e.nvm.store.readout r.tgt k fmt (Bits.byteAt r.payload 3) } e))

/-- R62, R63, R65: PARAM_STAGE whose values all pass puts every value of a listed field into the set and makes its source the owner;
PARAM_DISCARD takes fields out of it, and an empty set has no owner. The committed values stand. What of this the spec leaves
open is the model's choice: notes/assumptions/22.md. R63, R66: a PARAM_COMMIT of a set is accepted and waits for its frame; one
of no set is answered OK. What of this the spec leaves open is the model's choice: notes/assumptions/23.md. -/
def Obligations.StagingAndCommitKeepTheirRules : Prop :=
  (∀ (s : State) (t : Nat) (r : Req) (d : Dev), d = s.dev.reach t → r.wf = true →
    (∀ b l, b = d.begun 0x11 r →
      l = ((addrKeys (fieldAddr r.target)).zip ((Bits.upTo (fieldAddr r.target).count).map (fun i => Bits.wordAt r.payload (4 * i)))).filter
        (fun x => (Params.fieldOf (x.1 / 65536) (x.1 % 65536)).isSome) →
      d.admits 0x11 r = true → b.stageConflict r.src = false → addrOk (fieldAddr r.target) = true →
      b.stageFail (fieldAddr r.target).table (fieldAddr r.target).first
        ((Bits.upTo (fieldAddr r.target).count).map (fun i => Bits.wordAt r.payload (4 * i))) 0 = none →
      Served (.paramStage t r) s 0x11 r { status := stOk, rarg := BitVec.ofNat 16 l.length }
        { b with
          cfg := { b.cfg with
            staged := l.foldl (fun m x => Bits.insert x.1 x.2 m) b.cfg.staged,
            marks := l.foldl (fun m x => Bits.putBy (fun y => y.key == x.1) { key := x.1, value := some x.2 } m) b.cfg.marks,
            owner := some (ownerOf r.src), lastUse := b.time.now } }) ∧
    (∀ b ks, b = d.begun 0x13 r → ks = (b.cfg.staged.map Prod.fst).filter (fun k => r.tgt == 0 || (addrKeys (fieldAddr r.target)).contains k) →
      d.admits 0x13 r = true → b.stageConflict r.src = false → (r.tgt = 0 ∨ addrOk (fieldAddr r.target) = true) →
      Served (.paramDiscard t r) s 0x13 r { status := stOk, rarg := BitVec.ofNat 16 ks.length } (b.unstage ks))) ∧
  (∀ (s : State) (t : Nat) (r : Req) (d b : Dev), d = s.dev.reach t → b = d.begun 0x12 r → r.wf = true →
    d.admits 0x12 r = true → b.stageConflict r.src = false → (r.nextTick = true ∨ Bits.diff32 r.tgt b.frame.number ≤ 3000) →
    (b.cfg.staged ≠ [] → Accepted (.paramCommit t r) s 0x12 r
      { op := 0x12, req := r, started := true, accepted := true, resources := d.resourcesOf 0x12 r }
      { b with
        cfg := { b.cfg with
          commit := some { tag := r.tag, frame := r.tgt, next := r.nextTick, expect := BitVec.ofNat 64 (Bits.at' r.payload 0 8) } } }) ∧
    (b.cfg.staged = [] → Served (.paramCommit t r) s 0x12 r { status := stOk } b))

/-- R85 to R89: a SIGNAL_WRITE of host-owned points that no publish flow sends writes every record whole and answers OK with their
number; a SIGNAL_NOTIFY in range is accepted and stands as a watch whose baseline is the record at acceptance. R91, R93: a
FLOW_OPEN that passes its checks is accepted and opens its context within 100 ms; a FLOW_CLOSE closes its context, and its
claimed points are reset; where the context waits to be opened, the close waits behind it. Both members' results make the answer
where the partner is there (R102). What of this the spec leaves open is the model's choice: notes/assumptions/38.md. -/
def Obligations.SignalAndFlowRequestsAct : Prop :=
  (∀ (s : State) (t : Nat) (r : Req) (d : Dev), d = s.dev.reach t → r.wf = true →
    (∀ b n recs, b = d.begun 0x21 r → n = r.len / 16 → recs = (Bits.upTo n).map (fun k => pointOf ((r.payload.drop (16 * k)).take 16)) →
      d.admits 0x21 r = true → b.partnerActive = false → b.publishers r.tgt n = [] →
      (Bits.upTo n).find? (fun k => !(b.hostRecordOk (r.tgt + k) (recs.getD k {}))) = none →
      Served (.signalWrite t r) s 0x21 r { status := stOk, rarg := BitVec.ofNat 16 n }
        ((Bits.upTo n).foldl (fun x k => x.setPt (r.tgt + k) (hostRecord r.src.tr (recs.getD k {}))) b)) ∧
    (∀ b, b = d.begun 0x22 r → d.admits 0x22 r = true → r.cancels = false → notifyOk r (b.readPt r.tgt) = true →
      b.image.watches.length < 16 →
      Accepted (.signalNotify t r) s 0x22 r
        { op := 0x22, req := r, started := true, accepted := true, resources := d.resourcesOf 0x22 r, standing := true }
        { b with
          image := { b.image with
            watches := b.image.watches ++ [{
              tag := r.tag, index := r.tgt, cond := Bits.byteAt r.payload 0,
              minInterval := Bits.at' r.payload 2 2, thr := Bits.wordAt r.payload 4, hyst := Bits.wordAt r.payload 8,
              seen := some (b.readPt r.tgt) }] } })) ∧
  (∀ (s : State) (t : Nat) (r : Req) (d : Dev), d = s.dev.reach t → r.wf = true → r.tgt ≤ 255 →
    (∀ b, b = d.begun 0x28 r → d.admits 0x28 r = true → (b.flow r.tgt).state = 0 →
      b.flows.opening.any (fun x => x.1 == r.tgt && !x.2.2.isEmpty) = false →
      b.flowCheck (b.flows.opening.map (fun x => x.2.2)) r.payload = none →
      Accepted (.flowOpen t r) s 0x28 r
        { op := 0x28, req := r, started := true, accepted := true, resources := d.resourcesOf 0x28 r, deadline := some (b.time.now + 100000000) }
        { b with flows := { b.flows with opening := b.flows.opening ++ [(r.tgt, r.tag, r.payload)] } }) ∧
    (∀ (x : Dev × List (Nat × Half)) (f : Fin) (e : Dev), x = (d.begun 0x29 r).flowPair r.tgt [] → d.admits 0x29 r = true →
      f = fanFin 0 x.2 0 [] →
      e = (if x.1.flows.opening.any (fun y => y.1 == r.tgt) then
          { x.1 with flows := { x.1.flows with opening := x.1.flows.opening ++ [(r.tgt, r.tag, [])] } }
        else x.1.flowCloseAt r.tgt) →
      Served (.flowClose t r) s 0x29 r f (if f.status = stPartial then e.partialEvent 0x29 0 x.2 else e)))

/-- R233 to R239: MODE_SET is accepted and stands as the one mode request; TARGET_SET stages what its flags name and keeps the rest;
JOYSTICK_SET gives the next demands and restarts the time-out. -/
def Obligations.ControlRequestsSetModeTargetAndStick : Prop :=
  ∀ (s : State) (t : Nat) (r : Req) (d : Dev), d = s.dev.reach t → r.wf = true →
    (∀ b m, b = d.begun 0x30 r → d.admits 0x30 r = true → modeOf r.tgt = some m →
      (m = .idle ∨ ((b.life.state = .commission ∨ b.life.state = .service) ∧ b.massesSet = true)) →
      (m.stick = true → b.sPar 0x14 ≠ 0 ∧ b.sPar 0x15 ≠ 0) → (m = .joystick → b.sPar 0x16 ≠ 0) →
      Accepted (.modeSet t r) s 0x30 r
        { op := 0x30, req := r, started := true, accepted := true, resources := d.resourcesOf 0x30 r, deadline := some (b.time.now + 10000000000) }
        { b with solver := { b.solver with modeReq := some { mode := m, tag := some r.tag, since := b.time.now } } }) ∧
    (∀ b o p fl, b = d.begun 0x31 r → o = b.solver.staged.getD b.solver.wanted → p = r.payload → fl = Bits.byteAt p 20 →
      d.admits 0x31 r = true → r.tgt = 0 →
      0 ≤ Bits.atI p 8 4 → Bits.atI p 8 4 < 360 * 4194304 → 0 ≤ Bits.atI p 12 4 → Bits.atI p 12 4 < 360 * 4194304 →
      0 ≤ Bits.atI p 16 4 → Bits.atI p 16 4 ≤ 3 * 16777216 → fl < 8 → (∀ k, k < 11 → Bits.byteAt p (21 + k) = 0) →
      ∀ g : Target, g = {
          north := if fl.testBit 0 then Bits.atI p 0 4 * 1048576 else o.north,
          east := if fl.testBit 0 then Bits.atI p 4 4 * 1048576 else o.east,
          heading := if fl.testBit 1 then Bits.atI p 8 4 * 1024 else o.heading, course := Bits.atI p 12 4, speed := Bits.atI p 16 4,
          posValid := fl.testBit 0 || o.posValid, hdgValid := fl.testBit 1 || o.hdgValid, track := fl.testBit 2 } →
      Served (.targetSet t r) s 0x31 r { status := stOk } { b with solver := { b.solver with staged := some g } }) ∧
    (∀ b p, b = d.begun 0x32 r → p = r.payload → d.admits 0x32 r = true → r.tgt = 0 → Bits.at' p 6 2 = 0 →
      ∀ k : Int × Int × Int, k = (Bits.atI p 0 2, Bits.atI p 2 2, Bits.atI p 4 2) →
      Served (.joystickSet t r) s 0x32 r { status := stOk }
        { b with solver := { b.solver with stickNext := some k, joyAt := b.time.now } })

/-- Requests that are accepted and finished at a tick or by a run: TRACE_ARM of a probe that is not live (R290), SELFTEST_RUN
(R446), ROLE_RELEASE to a partner that is SYNCED and ELIGIBLE (R386), TIME_STEP by a stated amount (R332), and a
LIFECYCLE_ADVANCE that passes (R485 to R488). Each leaves what it asks for standing in the state. -/
def Obligations.DeferredRequestsStand : Prop :=
  ∀ (s : State) (t : Nat) (r : Req) (d : Dev), d = s.dev.reach t → r.wf = true →
    (∀ b, b = d.begun 0x90 r → d.admits 0x90 r = true → r.tgt ≤ 4 → b.health.test = none → b.testRefusal b.nextNo false = none →
      Accepted (.selftestRun t r) s 0x90 r
        { op := 0x90, req := r, started := true, accepted := true, resources := d.resourcesOf 0x90 r, deadline := some (b.time.now + 200000000) }
        { b with
          health := { b.health with
            test := some { domain := r.tgt, frame := b.nextNo, tag := some r.tag } } }) ∧
    (∀ b f, b = d.begun 0x71 r → f = (if b.sinceT0 < 15800000 then b.frame.number else b.nextNo) →
      d.admits 0x71 r = true → r.tgt = 0 → b.beatFlag 1 = true → b.beatFlag 2 = true →
      Accepted (.roleRelease t r) s 0x71 r
        { op := 0x71, req := r, started := true, accepted := true, resources := d.resourcesOf 0x71 r, deadline := some (b.time.now + 200000000) }
        { b with clasp := { b.clasp with releasing := .due f (some r.tag) } }) ∧
    (∀ b v first behind, b = d.begun 0x61 r → first = (b.frame.nextTick / 20000000 + Bits.b2n b.tickClosed) % 2 ^ 32 →
      behind = decide (Bits.diff32 r.tgt first < 0) → d.admits 0x61 r = true →
      ((v = none ∧ Bits.at' r.payload 0 8 = 2 ^ 63 ∧ b.time.source ≠ 0) ∨
        (v = some (Bits.atI r.payload 0 8) ∧ Bits.at' r.payload 0 8 ≠ 2 ^ 63 ∧ 0 ≤ (b.dev : Int) + Bits.atI r.payload 0 8)) →
      ∀ q : StepReq, q = {
        tag := r.tag, step := v, frame := r.tgt, next := r.nextTick,
        closed := b.tickClosed, asap := behind, limit := ((if r.nextTick || behind then first else r.tgt) + 2) % 2 ^ 32 } →
      Accepted (.timeStep t r) s 0x61 r { op := 0x61, req := r, started := true, accepted := true, resources := d.resourcesOf 0x61 r }
        { b with time := { b.time with steps := b.time.steps ++ [q] } }) ∧
    (∀ b, b = d.begun 0x58 r → d.admits 0x58 r = true → traceArmOk r = true → (b.probe r.tgt).live = false → b.health.x = 0 →
      Accepted (.traceArm t r) s 0x58 r { op := 0x58, req := r, started := true, accepted := true, resources := d.resourcesOf 0x58 r } (b.modProbe r.tgt (fun _ => {
        payload := r.payload, state := if Bits.at' r.payload 14 2 = 0 then 2 else 1, tag := some r.tag,
        period := b.tracePeriod (Bits.byteAt r.payload 0) (Bits.at' r.payload 2 2) (Bits.at' r.payload 12 2) }))) ∧
    (∀ b next hall ser auth, b = d.begun 0xA1 r → d.admits 0xA1 r = true → lifeOf r.tgt = some next →
      transition b.life.state next = some (hall, ser, auth) → b.advanceRole = none →
      Bits.at' r.payload 24 8 = b.life.challenge.toNat →
      (if hall then Bits.at' r.payload 0 8 = b.cfg.hallmark.toNat else (r.payload.drop 0).take 8 = Bits.zeros 8) →
      (if ser then (r.payload.drop 8).take 16 = b.serial else (r.payload.drop 8).take 16 = Bits.zeros 16) →
      (if auth then Config.ecdsaOk (b.authDigest next) ((r.payload.drop 32).take 64) = true else (r.payload.drop 32).take 64 = Bits.zeros 64) →
      Accepted (.lifecycleAdvance t r) s 0xA1 r
        { op := 0xA1, req := r, started := true, accepted := true, resources := d.resourcesOf 0xA1 r, deadline := some (b.time.now + 1000000000) }
        { b with life := { b.life with advance := some (r.tag, next) } })

/-- R75, R343, R364, R370: CAN_SEND, FRAME_LAUNCH and CAN_RECOVER. A CAN_SEND or FRAME_LAUNCH that leaves a member open is accepted
with the members its controllers or queues gave; a CAN_RECOVER of a controller that is bus off starts its recovery. R75, R325,
R343, R370: what one member of a fan-out does. A controller that is in use, on, and whose identifier no thruster mapping of its
own uses queues the frame; a launch queue takes a frame due in 20 us to 2 s in the order of due times. -/
def Obligations.FanOutsAreAcceptedByTheirMembers : Prop :=
  (∀ (s : State) (t : Nat) (r : Req) (d : Dev), d = s.dev.reach t → r.wf = true →
    (∀ b l f, b = d.begun 0x68 r → l = Bits.byteAt r.payload 4 → f = (Bits.wordAt r.payload 0).getLsbD 30 → d.admits 0x68 r = true →
      canLenOk f l = true → (f = true ∨ (Bits.wordAt r.payload 0).getLsbD 31 = false) →
      ((Bits.wordAt r.payload 0).getLsbD 29 = true ∨ (Bits.wordAt r.payload 0).toNat % 2 ^ 29 < 2048) → Bits.byteAt r.payload 5 ≤ 15 →
      Bits.at' r.payload 6 2 = 0 → 0 < r.tgt → r.tgt ≤ 255 → r.len = 8 + (l + 3) / 4 * 4 →
      ∀ x : Dev × List (Nat × Option Half), x = (Bits.maskBits 8 r.tgt).foldl (Dev.canSendMember {
          idw := Bits.wordAt r.payload 0, data := (r.payload.drop 8).take l, retry := Bits.byteAt r.payload 5, tag := r.tag }) (b, []) →
      x.2.all (fun m => m.2.isSome) = false →
      Accepted (.canSend t r) s 0x68 r {
        op := 0x68, req := r, started := true, accepted := true, resources := d.resourcesOf 0x68 r, members := x.2, deadline := some (x.1.time.now + 1000000000) } x.1) ∧
    (∀ b dl l, b = d.begun 0x62 r → dl = Bits.shortDiff (Bits.wordAt r.payload 0) b.short → l = Bits.at' r.payload 4 2 →
      d.admits 0x62 r = true → 0 < r.tgt → r.tgt ≤ 255 → 60 ≤ l → l ≤ 1514 → Bits.at' r.payload 6 2 = 0 → r.len = 8 + (l + 3) / 4 * 4 →
      ∀ x : Dev × List (Nat × Option Half), x = (Bits.maskBits 8 r.tgt).foldl
        (Dev.launchMember ((r.payload.drop 8).take l) dl ((b.dev : Int) + dl).toNat r.tag) (b, []) →
      x.2.all (fun m => m.2.isSome) = false →
      Accepted (.frameLaunch t r) s 0x62 r {
        op := 0x62, req := r, started := true, accepted := true, resources := d.resourcesOf 0x62 r, members := x.2, deadline := some (x.1.time.now + (dl.toNat + 10000000)) } x.1) ∧
    (∀ b, b = d.begun 0x6A r → d.admits 0x6A r = true → r.tgt ≤ 7 →
      ((b.ctrl r.tgt).err = .busOff → Accepted (.canRecover t r) s 0x6A r {
        op := 0x6A, req := r, started := true, accepted := true, resources := d.resourcesOf 0x6A r,
        deadline := some (b.time.now + 5000000000) }
        (b.modCtrl r.tgt (fun k => { k with err := .recovering, recover := some r.tag }))) ∧
      ((b.ctrl r.tgt).err ≠ .busOff → (b.ctrl r.tgt).err ≠ .recovering → Served (.canRecover t r) s 0x6A r { status := stOk } b))) ∧
  ((∀ (x : Dev) (ms : List (Nat × Option Half)) (c : Nat) (e : CanTx),
    (∀ j, j < 24 → (x.thrCtrls j).contains c = true → (x.par 0x24 (0x401 + 4 * j) &&& 0x3FFFFFFF#32) ≠ (e.idw &&& 0x3FFFFFFF#32)) →
    (e.idw.getLsbD 30 = false ∨ x.canPar c 1 ≠ 0#32) → (x.ctrl c).off = false → x.canMode c ≠ 0 → (x.q (4 + c)).agree = true → (x.q (4 + c)).held < queueDepth (4 + c) →
    Dev.canSendMember e (x, ms) c =
      (((x.qPush (4 + c)).2.1.modCtrl c (fun k => { k with txq := k.txq ++ [e] })).canFill c, ms ++ [(c, none)])) ∧
  (∀ (x : Dev) (ms : List (Nat × Option Half)) (f : List Byte) (q due : Nat) (dl : Int) (tag : BitVec 6),
    20000 ≤ dl → dl ≤ 2000000000 → (x.q (0x14 + q)).agree = true → (x.q (0x14 + q)).held < queueDepth (0x14 + q) →
    Dev.launchMember f dl due tag (x, ms) q = ({ (x.qPush (0x14 + q)).2.1 with
      net := { x.net with
        launch := Bits.modAt x.net.launch q (launchInsert { frame := f, due := due, port := x.parN 0x20 (0x50 + q), tag := some tag }) } },
      ms ++ [(q, none)])) ∧
  (∀ (x : Dev) (ms : List (Nat × Option Half)) (f : List Byte) (q due : Nat) (dl : Int) (tag : BitVec 6),
    (2000000000 < dl → Dev.launchMember f dl due tag (x, ms) q = (x, ms ++ [(q, some stRange)])) ∧
    (dl < 20000 → Dev.launchMember f dl due tag (x, ms) q =
      ({ x with net := { x.net with missed := Bits.modAt x.net.missed q (fun n => n + 1) } }, ms ++ [(q, some stTimeout)]))))

/-- GNSS_CORR_FEED, CAN_FETCH (R371) and SIGNAL_NOTIFY with the cancel bit (R90): each ends at once with what it takes. -/
def Obligations.FeedFetchAndCancelEndAtOnce : Prop :=
  ∀ (s : State) (t : Nat) (r : Req) (d : Dev), d = s.dev.reach t → r.wf = true →
    (∀ x : Nat × Dev, x = (d.begun 0x41 r).corrBytes r.tgt ((r.payload.drop 4).take (Bits.at' r.payload 0 4)) →
      d.admits 0x41 r = true → r.tgt < 4 → (d.begun 0x41 r).gPar (0x10 + 4 * r.tgt) = 0 →
      Served (.gnssCorrFeed t r) s 0x41 r { status := stOk, rarg := BitVec.ofNat 16 x.1 } x.2) ∧
    (∀ b c n fs, b = d.begun 0x69 r → c = r.tgt % 8 → n = r.tgt / 256 % 256 → d.admits 0x69 r = true → (b.q (0x0C + c)).agree = true →
      fs = fetchFit (b.ctrl c).rxq (if n = 0 then (b.ctrl c).rxq.length else n) (if n = 0 then maxPayload r.src.tr - 16 else 1000000) →
      16 + (fs.flatMap CanRx.bytes).length ≤ maxPayload r.src.tr →
      Served (.canFetch t r) s 0x69 r {
        status := stOk,
        payload := Bits.le 1 c ++ Bits.le 1 (b.canState c) ++ Bits.le 1 (b.ctrl c).lec ++ Bits.le 1 (b.ctrl c).blocked ++
          Bits.le 2 (b.ctrl c).tec ++ Bits.le 2 (b.ctrl c).rxErr ++ Bits.le 2 fs.length ++ Bits.le 2 (Bits.sat 0xFFFF (b.ctrl c).dropped) ++
          Bits.le 3 (b.ctrl c).confirmedPrev.toNat ++ [0] ++ fs.flatMap CanRx.bytes }
        (b.modCtrl c (fun k => { k with rxq := k.rxq.drop fs.length, dropped := 0 }))) ∧
    (∀ (p : Pend) (w : Watch), ({ d with cmd := { d.cmd with tags := [] } } : Dev).admits 0x22 r = true → r.cancels = true → d.cmd.tags = [p] →
      p.op = 0x22 → p.started = true → p.standing = true → p.done = none → p.replied = false → p.req.src = r.src →
      p.req.tag = BitVec.ofNat 6 r.tgt → p.req.tag ≠ r.tag → d.image.watches.find? (fun x => x.tag == p.req.tag) = some w →
      ∃ e, exec (.signalNotifyCancel t r) s = .next { s with dev := e } ∧ e.cmd.tags = [] ∧
        e.alike { d with image := { d.image with watches := d.image.watches.filter (fun x => x.tag != p.req.tag) } } ∧
        e.answered 0x22 p.req rFinal { status := stOk } ∧ e.answered 0x22 r rFinal { status := stOk })

/-- R476, R477, R491: EVENT_MARK of a marker code, EVENT_ERASE with the Bezel's permit in MAINTAIN and the store's two numbers, and
FW_STAGE into the image that does not run: the erase that its first word starts is accepted, and the rest is programmed at once.
What of this the spec leaves open is the model's choice: notes/assumptions/31.md. R492: a FW_ACTIVATE of an image whose header,
hash, signature and level stand is accepted and answered OK, boots that image next, on trial, and the module restarts once the
reply has left. -/
def Obligations.EventAndFirmwareRequestsAct : Prop :=
  (∀ (s : State) (t : Nat) (r : Req) (d : Dev), d = s.dev.reach t → r.wf = true →
    (∀ b m e, b = d.begun 0x81 r → d.admits 0x81 r = true → r.erases = false → 0x1080 ≤ r.tgt → r.tgt ≤ 0x10FE →
      b.nvm.store.full = false → b.locket.markers < 16 →
      m = { b.laneWrite.record 2 r.tgt 0 (trCode r.src.tr) r.payload with lflags := (b.laneWrite.record 2 r.tgt 0 0 []).lflags ||| 0x10 } →
      e = b.laneWrite.storeWrite m → e.nvm.store.full = false →
      Served (.eventMark t r) s 0x81 r { status := stOk, rarg := BitVec.ofNat 16 (e.nvm.store.committed % 65536) }
        { e with locket := { e.locket with markers := e.locket.markers + 1 } }) ∧
    (∀ b x y, b = d.begun 0x81 r → x = b.nvm.store → d.admits 0x81 r = true → r.erases = true → b.life.state = .maintain →
      b.island.bezel.getLsbD 22 = true → Bits.at' r.payload 0 4 = x.firstHeld % 2 ^ 32 → Bits.at' r.payload 4 4 = x.committed % 2 ^ 32 →
      x.refused = 0 →
      y = ({ firstHeld := x.committed + 1, committed := x.committed } : LocketStore).append
        (b.record 0 0x1004 0 0 (Bits.le 4 x.firstHeld ++ Bits.le 4 x.committed)) →
      Served (.eventErase t r) s 0x81 r { status := stOk, rarg := BitVec.ofNat 16 (y.committed % 65536) } (b.setStore y)) ∧
    (∀ b i off, b = d.begun 0xF0 r → i = r.tgt / 2 ^ 31 → off = r.tgt % 2 ^ 25 → d.admits 0xF0 r = true → r.tgt / 2 ^ 25 % 64 = 0 →
      off % 4 = 0 → off / 65536 = (off + r.len - 1) / 65536 → off + r.len ≤ 33554432 → (i ≠ b.life.running ∨ b.life.noImage = true) →
      (off % 65536 = 0 → Accepted (.fwStage t r) s 0xF0 r {
        op := 0xF0, req := r, started := true, accepted := true, resources := d.resourcesOf 0xF0 r, deadline := some (b.time.now + 2000000000) }
        ((b.modImg i (flashErase off)).modLife (fun l => { l with
          erase := l.erase ++ [{ tag := some r.tag, image := i, offset := off, data := r.payload }] }))) ∧
      (off % 65536 ≠ 0 → Served (.fwStage t r) s 0xF0 r { status := stOk } (b.modImg i (flashWrite off r.payload))))) ∧
  (∀ (s : State) (t : Nat) (r : Req) (d b : Dev), d = s.dev.reach t → b = d.begun 0xF1 r → r.wf = true → d.admits 0xF1 r = true →
    r.tgt ≤ 1 → (b.clasp.lease = false ∨ b.solver.mode = .idle) → b.imageFault r.tgt = none →
    ∃ m : Dev, exec (.fwActivate t r) s = .next { s with dev := if m.activationReplied r.tag then m.restart 5 else m } ∧
      m.cmd.tags = [] ∧ m.answered 0xF1 r 0 { status := stAccepted } ∧ m.answered 0xF1 r rFinal { status := stOk } ∧
      ∀ x : Dev, x = b.modImg r.tgt (fun g => { g with state := if r.tgt = b.life.running then g.state else 2 }) →
      m.alike { x with
        nvm := { x.nvm with boot := r.tgt, trial := true, trials := 0 },
        life := { x.life with activating := some r.tag } })

/-! ### Frame, slots and timers (01, 06 to 10) -/

/-- R20: at a tick the module acts in this order: the time step, if one is pending, which opens the frame; the configuration commit
and what takes effect with it; the pair; health; the time base; the latch; then the points, the snapshot and what reads it.
Locket's rates of the tick before are refilled first (R464). A tick that device time has not reached does nothing, and one that
finds a firmware activation restarts (R492). What the environment does to the memories comes with the tick
(notes/assumptions/37.md). -/
def Obligations.FrameTickActsInOrder : Prop :=
  ∀ (s : State) (t : Nat) (m : MemoryIn) (d : Dev), d = s.dev.reach t → d.up = true → m.wf = true →
    (d.dev < d.frame.nextTick → exec (.frameTick t m) s = .next (s.left d)) ∧
    (d.frame.nextTick ≤ d.dev → d.life.activating.isSome = true → exec (.frameTick t m) s = .next (s.left (d.restart 5))) ∧
    (d.frame.nextTick ≤ d.dev → d.life.activating = none →
      ∀ h a b e : Dev, h = { d with hw := { d.hw with noStore := m.noStore } } → e = h.locketTick.locketStrike m.records →
      a = e.confirmTick.stepTick →
      b = { a with
        frame := { a.frame with sub := 0, subAt := a.frame.t0, slots := 0, rawT0 := a.time.now - a.sinceT0 },
        engine := { a.engine with cmdPass := none } } →
      exec (.frameTick t m) s = .next (s.left ((b.applyTick e).pairTick.healthTick.secondTick.gnssLatchTick.imageTick m)))

/-- R10, R28, R332: every frame that a tick opens, stepped or not, carries the number floor(T × 50) mod 2^32 of its t0 T. With no
step pending its t0 is the multiple of 20 ms; a TIME_STEP of n ns that is due, the only one, moves device time by n, opens a
step frame whose t0 is the new device time of the multiple and whose next tick is the first multiple at least 20 ms later, and
its request ends. -/
def Obligations.TickOpensItsFrame : Prop :=
  ∀ d : Dev, d.stepTick.frame.number = d.stepTick.frame.t0 * 50 / 1000000000 % 2 ^ 32 ∧
    ((d.time.state ≠ .unset ∨ d.firstSource = 0) →
    (∀ x, (∀ q ∈ d.time.steps, q.due (frameNo d.frame.nextTick) = false) → x = d.stepTick →
      x.frame = { d.frame with
        number := d.frame.nextTick * 50 / 1000000000 % 2 ^ 32, t0 := d.frame.nextTick, isStep := false,
        nextTick := d.frame.nextTick + 20000000 } ∧ x.time.off = d.time.off) ∧
    (∀ x (q : StepReq) (n : Int), d.time.steps = [q] → q.due (frameNo d.frame.nextTick) = true → q.step = some n →
      0 ≤ (d.frame.nextTick : Int) + n → x = d.stepTick →
      x.frame.t0 = ((d.frame.nextTick : Int) + n).toNat ∧ x.frame.number = ((d.frame.nextTick : Int) + n).toNat * 50 / 1000000000 % 2 ^ 32 ∧
      x.frame.isStep = true ∧ 20000000 ≤ x.frame.nextTick - x.frame.t0 ∧ x.frame.nextTick - x.frame.t0 < 40000000 ∧
      x.frame.nextTick % 20000000 = 0 ∧
      x.devAtI x.c = d.devAtI d.c + n ∧ x.time.steps = [] ∧
      ∀ p ∈ x.cmd.tags, p.req.tag = q.tag → p.done ≠ none))

/-- R11, R21, R28: sub-tick 0 begins with the frame; the next begins when device time reaches the next whole millisecond of the
frame, the first of a step frame at least 0.5 ms after its t0. At a boundary the work of s+0 and s to s+0.20 ms of Table 1.2
runs, and a boundary not yet reached changes nothing; the pass in progress ends, and the launch slot of s+0.5 ms acts, at its
own instant before whatever comes later (notes/assumptions/101.md). R15: each slot of Table 1.1 runs once, when device time has
reached its offset: refinement at t0+0.2 to t0+3.8 ms, the fused state and the main solve at t0+4 ms, the deadline at
SOLVE_DEADLINE, the handoff at t0+15 ms, the cutoff at t0+15.8 ms, the launch at t0+16 ms, and the tail's end 0.4 ms before the
next tick. An iteration of the solver acts as one of the solve in progress. Before its offset, and once it has run, a slot
changes nothing. R15, R382, R388: at t0+16 ms the records go out, the lease is renewed if the health check passes, the heartbeat
and a due release follow, then the mirror of the unit in control (or the flow states of the other), and the work of the tail
slot. -/
def Obligations.SlotsOfTheFrameRunOnce : Prop :=
  (∀ (s : State) (t : Nat) (m : SubTickIn) (d : Dev), d = s.dev.reach t → d.up = true → m.wf = true →
    (d.slotDue .sub0 0 = true → exec (.subTick t m) s = .next (s.left ((d.slotDone .sub0).subWork m))) ∧
    (d.slotDue .sub0 0 = false → d.frame.slots.getLsbD 0 = true → d.subNext < d.frame.nextTick → d.subNext ≤ d.dev →
      exec (.subTick t m) s = .next (s.left ({ d with
        frame := { d.frame with sub := d.frame.sub + 1, subAt := d.subNext } }.subWork m))) ∧
    (d.slotDue .sub0 0 = false → d.dev < d.subNext → exec (.subTick t m) s = .next (s.left d)) ∧
    (∀ b, b = (d.frame.subAt / 1000000 + 1) * 1000000 → d.subNext = if b - d.frame.subAt < 500000 then b + 1000000 else b) ∧
    (∀ (x : Dev) (w : PassWait), x.up = true → x.engine.pass = some w → x.engine.limits = none → x.frame.secondDue = none →
      (t ≤ w.due → x.reach t = x.advance t) ∧
      (w.due < t → ∀ y, y = (x.advance w.due).passEnd → (∀ l, y.engine.limits = some l → t ≤ l.1) → y.frame.secondDue = none →
        x.reach t = y.advance t)) ∧
    (∀ (x : Dev) (u : Nat) (js : List Nat), x.up = true → x.engine.pass = none → x.engine.limits = some (u, js) → u < t →
      ∀ y, y = (x.advance u).limitSlot → y.frame.secondDue = none → x.reach t = y.advance t)) ∧
  (∀ (s : State) (t : Nat) (d : Dev), d = s.dev.reach t → d.up = true →
    (d.slotDue .refineFrom 200000 = true →
      exec (.refinementWindowStart t) s = .next (s.left (d.slotDone .refineFrom).refineStart)) ∧
    (d.slotDue .refineTo 3800000 = true → exec (.refinementWindowEnd t) s = .next (s.left (d.slotDone .refineTo).refineEnd)) ∧
    (∀ late, d.slotDue .fusion 4000000 = true →
      exec (.fusionOutput t late) s = .next (s.left ((d.slotDone .fusion).fusionOutput late).solveSetup.afterSolve)) ∧
    exec (.solveIterationComplete t) s = .next (s.left d.solveIteration.afterSolve) ∧
    (d.slotDue .deadline (1000 * d.parN 2 1) = true →
      exec (.solveDeadline t) s = .next (s.left (d.slotDone .deadline).solveDeadline.afterSolve)) ∧
    (∀ r, d.slotDue .handoff 15000000 = true → exec (.handoff t r) s = .next (s.left ((d.slotDone .handoff).handoff r).conseqClose)) ∧
    (∀ m, d.slotDue .cutoff 15800000 = true → exec (.commandQueueCutoff t m) s = .next (s.left ((d.slotDone .cutoff).cutoff m))) ∧
    (d.frame.slots.getLsbD (slotBit .tail) = false → d.frame.nextTick ≤ d.dev + 400000 →
      exec (.tailSlotEnd t) s = .next (s.left (d.slotDone .tail).mirrorAbort.conseqTail.commitWindow)) ∧
    (d.slotDue .refineFrom 200000 = false → exec (.refinementWindowStart t) s = .next (s.left d)) ∧
    (d.slotDue .refineTo 3800000 = false → exec (.refinementWindowEnd t) s = .next (s.left d)) ∧
    (∀ late, d.slotDue .fusion 4000000 = false → exec (.fusionOutput t late) s = .next (s.left d)) ∧
    (d.slotDue .deadline (1000 * d.parN 2 1) = false → exec (.solveDeadline t) s = .next (s.left d)) ∧
    (∀ r, d.slotDue .handoff 15000000 = false → exec (.handoff t r) s = .next (s.left d)) ∧
    (∀ m, d.slotDue .cutoff 15800000 = false → exec (.commandQueueCutoff t m) s = .next (s.left d)) ∧
    (∀ v, d.slotDue .launch 16000000 = false → exec (.launch t v) s = .next (s.left d)) ∧
    (d.frame.slots.getLsbD (slotBit .tail) = true ∨ d.dev + 400000 < d.frame.nextTick → exec (.tailSlotEnd t) s = .next (s.left d)) ∧
    (∀ (k : Slot) (n : Nat), d.slotDue k n = true ↔ d.frame.slots.getLsbD (slotBit k) = false ∧ d.frame.t0 + n ≤ d.dev) ∧
    (∀ (k : Slot) (n : Nat), (d.slotDone k).slotDue k n = false)) ∧
  (∀ (s : State) (t : Nat) (served : Bool) (d a b : Dev), d = s.dev.reach t → d.up = true → d.slotDue .launch 16000000 = true →
    a = d.cutoffSlot 0 → b = ((a.slotDone .launch).launchThrusters.renewLease served).beatSend.releaseAtLaunch →
    (a.clasp.lease = true → a.clasp.role.inControl = true →
      exec (.launch t served) s = .next (s.left (((b.mirrorSend.imageSend.locketCommit 256).selftestTail.conseqOpen 0
        (b.mirrorSend.frame.nextTick - 400000)).commitReply))) ∧
    ((a.clasp.lease = false ∨ a.clasp.role.inControl = false) →
      exec (.launch t served) s = .next (s.left (((b.flowStateSend.imageSend.locketCommit 256).selftestTail.conseqOpen 0
        (b.flowStateSend.frame.nextTick - 400000)).commitReply))))

/-- R71, R239, R328, R334: the timers of the frame and of time. Each acts once its time has run: PPS_OUT falls after PPS_WIDTH;
STEP_WAIT ends; the stick demands become zero after JOY_TIMEOUT, with 070Ah; a partner's commit member that has not come by
t0+19.9 ms ends TIMEOUT. R261, R266: the timers of the consequence analysis, in seconds of the raw counter (R14): a cycle beyond
STRETCH_LIMIT raises 0805h once; a result older than AGE_LIMIT becomes STALE with 0806h. -/
def Obligations.FrameAndConsequenceTimersAct : Prop :=
  (∀ (s : State) (t : Nat) (d : Dev), d = s.dev.reach t → d.up = true →
    (d.pps.out = true → 1000000 * d.parN 0x20 0x0B ≤ d.time.now - d.pps.roseAt →
      exec (.ppsPulseEnd t) s = .next (s.left ({ d with pps := { d.pps with out := false } }.ppsPin false))) ∧
    (1000000000 * d.parN 0x20 3 ≤ d.c → exec (.stepWaitExpiry t) s = .next (s.left { d with
        time := { d.time with stepWaitOver := true } })) ∧
    (d.clasp.role.inControl = true → d.solveMode.stick = true → d.solver.stickOut = false →
      1000000 * d.sPar 0x17 ≤ d.time.now - Nat.max d.solver.joyAt d.time.epoch →
      exec (.joystickTimeout t) s = .next (s.left (Dev.raise 0x070A 1 (Bits.le 4 d.frame.number) { d with
        solver := { d.solver with stick := (0, 0, 0), stickNext := none, stickOut := true } }))) ∧
    (∀ c, d.cfg.commit = some c → c.validated = true → c.paired = true → c.partner = none → d.frame.nextTick ≤ d.dev + 100000 →
      exec (.commitResultTimeout t) s = .next (s.left { d with
        cfg := { d.cfg with commit := some { c with partner := some stTimeout } } }))) ∧
  (∀ (s : State) (t g n : Nat) (d : Dev), d = s.dev.reach t → d.up = true →
    (n = (Bits.diff32 d.frame.number d.conseq.firstFrame).toNat → d.conseq.active = true → d.conseq.overdue = false →
      1000000000 * d.cPar 7 < d.time.now - d.conseq.firstRaw →
      exec (.cycleOverdue t) s = .next (s.left (Dev.raise 0x0805 1 (Bits.le 4 n ++ Bits.le 1 d.conseq.queue.length) { d with
        conseq := { d.conseq with overdue := true } }))) ∧
    (1 ≤ g → g ≤ 63 → (d.group g).res.result ≠ 0 → (d.group g).stale = false →
      1000000000 * d.cPar 8 < d.rawT0 - (d.group g).res.startRaw →
      ∀ x, x = d.modGroup g (fun y => { y with stale := true }) →
      exec (.resultStale t g) s = .next (s.left
        ((x.raiseI 0x0806 1 g (Bits.le 1 g ++ Bits.le 4 (x.ageMs (d.group g).res))).groupPoints g))))

/-- R25, R284, R303, R312, Table 9.11: the timers of the engine and of the plant. A pass still in progress at s+0.25 ms puts back
the loops from the first unfinished one on, drops what they had ready to write, raise or send, raises 0106h, and 010Ah on the
third in a row, and ends; an output clamped for 1,000 passes raises 0904h once; an island whose release conditions have held for
RELEASE_HOLD releases with 0A03h; generator points not GOOD for PMS_HOLD put their island on the fallback with 0A06h. -/
def Obligations.EngineAndPlantTimersAct : Prop :=
  ∀ (s : State) (t i : Nat) (d : Dev), d = s.dev.reach t → d.up = true →
    (∀ (d a b c : Dev) (w : PassWait), d = s.dev.advance t → d.up = true → i < 256 → d.engine.pass = some w → w.due ≤ d.time.now →
      (∃ u ∈ d.engine.undo, i ≤ u.loop) →
      a = (d.engine.undo.filter (fun u => decide (i ≤ u.loop))).foldl (fun x u =>
        u.secs.foldl (fun y z => y.setSec z.1 z.2) (x.setLoop u.loop u.st)) d →
      b = { a with
        frame := { a.frame with overruns := d.frame.overruns + 1 },
        engine := { a.engine with
          overrun := true, undo := [], events := a.engine.events.filter (fun e => decide (e.loop < i)),
          pass := a.engine.pass.map (fun p => { p with loops := p.loops.filter (fun k => decide (k < i)) }) } } →
      c = b.raise 0x0106 3 (Bits.le 4 b.frame.number ++ Bits.le 1 b.frame.sub ++ Bits.le 2 i) →
      exec (.passOverrun t i) s = .next (s.left (if d.frame.overruns = 2 then c.raise 0x010A 4 (Bits.le 4 c.frame.number) else c).passEnd)) ∧
    (i < 256 → (d.loop i).enabled = true → 1000 ≤ (d.loop i).clampRun → (d.loop i).clampRaised = false →
      exec (.outputClampedLong t i) s = .next (s.left ((d.setLoop i { d.loop i with clampRaised := true }).raiseI 0x0904 0 i
        (Bits.le 2 i ++ Bits.le 1 (Bits.b2n (d.loop i).hiClamp))))) ∧
    (∀ h, i < 8 → (d.pisl i).hold = some h → d.plant.running = true → (d.pisl i).state = .phaseBack →
      1000000 * d.parN 0x1C 8 ≤ d.time.now - h →
      exec (.releaseHoldExpiry t i) s = .next (s.left ((d.modIsl i (fun y => { y with state := .releasing, hold := none })).raiseI
        0x0A03 0 i (Bits.le 1 i ++ Bits.le 4 ((d.time.now - (d.pisl i).since) / 1000000))))) ∧
    (∀ g h, i < 8 → d.plant.running = true → (d.pisl i).members ≠ 0 → (d.pisl i).fallback = false → g ∈ d.islGens i →
      some h ∈ (d.gen g).bad → 1000000 * d.parN 0x1C 0xD ≤ d.time.now - h →
      exec (.pmsFallback t i) s = .next (s.left ((d.modIsl i (fun y => { y with fallback := true })).raiseI 0x0A06 2 i (Bits.le 1 i))))

/-- R258, R263, R264, R267: a what-if in progress in an open window completes once the window has given it the cycles of its SETUP,
FACTOR, iterations and PROJECT: the result of its group, 4 where it saturated, is held for the tail slot, the group's last
output and duals are replaced by its own, and the analysis goes on with the next group. Before that, with no window open or none
in progress, nothing changes. What of this the spec leaves open is the model's choice: notes/assumptions/15.md. -/
def Obligations.WhatifEndsItsGroup : Prop :=
  ∀ (s : State) (t : Nat) (d : Dev), d = s.dev.reach t → d.up = true →
    (d.conseq.window = false ∨ d.conseq.current = none → exec (.whatifComplete t) s = .next (s.left d)) ∧
    (∀ (w : WhatIf) (f : List FactorStage) (a b : SatCount) (iter : Nat) (it : Iterate) (conv : Bool) (cost : Nat),
      d.conseq.window = true → d.conseq.current = some w → w.problem.factorise w.sat = (f, a) →
      w.problem.run f w.epsP w.epsD w.most 0 w.point a = (iter, it, b, conv) →
      cost = setupCycles w.base.length w.n w.m + factorCycles w.base.length w.n w.m + iter * iterCycles w.base.length w.n w.m →
      (w.progress + (d.windowCycles - d.conseq.spent) < cost + 2000 → exec (.whatifComplete t) s = .next (s.left d)) ∧
      (cost + 2000 ≤ w.progress + (d.windowCycles - d.conseq.spent) →
        ∃ (x : Dev) (r : ConseqRes) (y : SolRec) (p : Plan),
          exec (.whatifComplete t) s = .next (s.left (((x.modGroup w.group (fun g => { g with sol := y, prev := some p })).holdResult
            w.group r w.mainKey).conseqWork 64)) ∧
          x.conseq = { d.conseq with spent := d.conseq.spent + (cost + 2000 - w.progress) } ∧ x.cfg = d.cfg ∧ x.frame = d.frame ∧
          r.start = w.start ∧ r.startFrame = w.startFrame ∧ r.stage0 = w.stage0 ∧ r.startRaw = w.startRaw ∧ r.iter = iter ∧
          p.key = w.key ∧ p.thrusters = w.thrusters ∧ p.sections = w.sections ∧ p.z = it.z ∧ p.y = it.y ∧ p.stages = (d.modConseq (fun c => { c with spent := c.spent + (cost + 2000 - w.progress) })).whatOut w it.x ∧
          1 ≤ r.result ∧ r.result ≤ 4 ∧ (r.result = 4 ↔ b.n ≠ 0)))

/-- R402, R403: FEED_INVALID takes the feed from the valid ones and raises 0D10h, and the last one's fall starts the hold-up;
FEED_VALID gives it back, ends the hold-up and raises 0D11h. A feed that is so already stays as it is. In a module that does not
run, only the feeds change. The voltages are those that R402 gives the two events, in units of 10 mV. -/
def Obligations.FeedsFallAndRise : Prop :=
  ∀ (s : State) (t f v : Nat) (d : Dev), d = s.dev.reach t → f < 2 → v < 65536 →
    (v < 1700 ∨ 3700 < v →
      (∀ x, x = (d.setFeed f v false).raiseI 0x0D10 1 f (Bits.le 1 f ++ Bits.le 2 v) → d.runs = true → d.clasp.feeds.getLsbD f = true →
        exec (.feedInvalid t f v) s = .next (s.left (if x.clasp.feeds = 0 then x.bothFeedsFailed else x))) ∧
      (d.runs = true → d.clasp.feeds.getLsbD f = false → exec (.feedInvalid t f v) s = .next (s.left d)) ∧
      (d.runs = false → exec (.feedInvalid t f v) s = .next (s.left (d.setFeed f v false)))) ∧
    (1800 ≤ v → v ≤ 3600 →
      (∀ x, x = ((d.setFeed f v true).modClasp (fun c => { c with onHoldup := false })).relays → d.runs = true →
        d.clasp.feeds.getLsbD f = false → exec (.feedValid t f v) s = .next (s.left (x.raiseI 0x0D11 0 f (Bits.le 1 f)))) ∧
      (d.runs = true → d.clasp.feeds.getLsbD f = true → exec (.feedValid t f v) s = .next (s.left d)) ∧
      (d.runs = false → exec (.feedValid t f v) s = .next (s.left (d.setFeed f v true))))

/-! ### Transports, limits and queues (01, 02) -/

/-- R48, R64, R491: the limits of the channel. A sector erased is programmed and its FW_STAGE ends OK; a request beyond its limit
stops its work and ends TIMEOUT, a fan-out by its members; a staging set unused for STAGE_TIMEOUT is abandoned with 0207h. What
of this the spec leaves open is the model's choice: notes/assumptions/24.md. R35, Table 1.4: a queue not empty and not read for
its idle time raises 0109h once with its ID and what it holds, then acts: the reply, CAN receive and launch queues call vector
1, the fault record is brought forward, a CAN transmit queue fills its buffers, a sample FIFO is read out to its chains. Held
replies enter the reply queue as it gets space. What of this the spec leaves open is the model's choice:
notes/assumptions/25.md. -/
def Obligations.LimitsAndIdleTimesAct : Prop :=
  (∀ (s : State) (t : Nat) (d : Dev), d = s.dev.reach t → d.runs = true →
    (∀ e m x, d.life.erase = e :: m → x = (d.modLife (fun l => { l with erase := m })).modImg e.image (flashWrite e.offset e.data) →
      exec (.flashEraseDone t) s = .next (s.left (match e.tag with | some g => x.finish g { status := stOk } | none => x))) ∧
    (∀ tag p x, d.pend tag = some p → d.overdue p = true →
      x = ((((((d.flowOpenStop tag).modeStop tag).canSendStop tag).canRecoverStop tag).launchDiscard (fun e => e.tag == some tag)).orphanWork tag) →
      ∀ y : Dev, y = { x with time := { x.time with steps := x.time.steps.filter (fun q => q.tag != tag) } } →
      ∀ q, y.pend tag = some q → q.done = none →
      exec (.requestTimeout t tag) s = .next (s.left (if q.members.isEmpty then y.finish tag { status := stTimeout }
        else y.finishFan tag q.op (if q.op = 0x68 then 1 else 2) (q.members.map (fun m => (m.1, m.2.getD stTimeout)))))) ∧
    (∀ tag p, d.pend tag = some p → d.overdue p = false → exec (.requestTimeout t tag) s = .next (s.left d)) ∧
    (∀ o, d.life.noImage = false → d.cfg.owner = some o → d.commitPending = false → 1000000000 * d.parN 1 0x2A ≤ d.time.now - d.cfg.lastUse →
      ∀ x ks, ks = d.cfg.staged.map Prod.fst → x = d.unstage ks →
      exec (.stagingAbandoned t) s = .next (s.left (Dev.raise 0x0207 0
        (Bits.le 1 (trCode o.tr) ++ Bits.le 2 ks.length ++ Bits.le 1 1) { x with cfg := { x.cfg with owner := none } })))) ∧
  (∀ (s : State) (t q : Nat) (d : Dev), d = s.dev.reach t → d.up = true → q < 60 →
    (∀ x, d.idleDue q = true →
      x = (d.setQ q { d.q q with noticed := true }).raiseI 0x0109 0 q (Bits.le 1 q ++ Bits.le 2 (d.q q).held) →
      ((q = 1 ∨ (0x0C ≤ q ∧ q ≤ 0x1B)) → exec (.queueIdle t q) s = .next (s.left (x.irq 1))) ∧
      (q = 2 → exec (.queueIdle t q) s = .next (s.left { x with locket := { x.locket with broughtForward := true } })) ∧
      ((4 ≤ q ∧ q ≤ 0x0B) → exec (.queueIdle t q) s = .next (s.left (x.canFill (q - 4)))) ∧
      (0x1C ≤ q → exec (.queueIdle t q) s =
        .next (s.left ((Bits.upTo 16).foldl (fun y k => y.chainRun y.dev (16 * (q - 0x1C) + k)) (x.fifoRead (q - 0x1C))))) ∧
      ((q = 0 ∨ q = 3) → exec (.queueIdle t q) s = .next (s.left x))) ∧
    (d.idleDue q = false → exec (.queueIdle t q) s = .next (s.left d)) ∧
    exec (.replyQueuedOnSpace t) s = .next (s.left (Dev.unhold 64 d.deliver).deliver))

/-- R53, R54: the SPI link. A WRITE of a whole packet puts it through the checks of Table 2.4, a short one, or one that comes before
the module serves requests, only sets the aborted bit; a READ with no reply waiting answers FFh, one clocked out in full takes
the oldest reply, and one cut short leaves it for the next READ; STAT shows the counts. Every transaction answers the status
byte first. -/
def Obligations.SpiServesPacketsAndReplies : Prop :=
  ∀ (s : State) (t n : Nat) (bs : List Byte) (d : Dev), d = s.dev.reach t → d.spiUp = true → 1 ≤ n → bs ≠ [] →
    (d.spiServed = true → 16 ≤ bs.length → (packetOf bs).size ≤ bs.length →
      exec (.spiWrite t bs) s = .next (s.left (((d.emit (.spi [d.spiStatusByte])).setAborted false).packetIn { tr := .spi } none (packetOf bs)))) ∧
    ((bs.length < 16 ∨ bs.length < (packetOf bs).size) →
      exec (.spiWrite t bs) s = .next (s.left ((d.emit (.spi [d.spiStatusByte])).setAborted true))) ∧
    (d.spiServed = false → exec (.spiWrite t bs) s = .next (s.left ((d.emit (.spi [d.spiStatusByte])).setAborted true))) ∧
    (d.spiReplies = [] → exec (.spiRead t n) s = .next (s.left ((d.setAborted false).emit (.spi [d.spiStatusByte, 0xFF])))) ∧
    (∀ r rs, d.spiReplies = r :: rs → n < r.bytes.length → (d.q 1).agree = true →
      ∀ x, x = (d.setAborted false).emit (.spi (d.spiStatusByte :: r.bytes.take n)) →
      exec (.spiRead t n) s = .next (s.left x) ∧ x.spiReplies = r :: rs) ∧
    (∀ r rs x, d.spiReplies = r :: rs → r.bytes.length ≤ n → (d.q 1).agree = true →
      x = (((d.setAborted false).emit (.spi (d.spiStatusByte :: r.bytes))).qRead 1 1).1 →
      exec (.spiRead t n) s = .next (s.left { x with cmd := { x.cmd with replyQ := x.cmd.replyQ.erase r } })) ∧
    exec (.spiStat t) s = .next (s.left ((d.setAborted false).emit (.spi (d.spiStatusByte :: (Bits.le 1 d.spiReplies.length ++
      Bits.le 1 (64 - (d.q 0).held) ++ Bits.le 2 (match d.spiReplies with | r :: _ => Bits.at' r.bytes 4 4 | [] => 0))))))

/-- R55: UDP. A datagram to the module's port on an interface in use, from a listed host, is one packet: an exact repeat of a
request whose reply is kept is answered with that reply, any other passes through the checks; one from another host, or too
short, counts in 0205h; kept replies leave at their expiry. What of this the spec leaves open is the model's choice:
notes/assumptions/25.md. -/
def Obligations.UdpAnswersListedHostsOnce : Prop :=
  ∀ (s : State) (t ip port i : Nat) (bs : List Byte) (d : Dev), d = s.dev.reach t → d.up = true → ip < 2 ^ 32 → port < 65536 → i < 2 →
    bs.length ≤ 65507 →
    (∀ p, p = packetOf bs → d.life.ready = true → d.parB 1 0x22 = true → (d.par 1 0x24).getLsbD i = true →
      (d.net.ports.getD (2 + i) {}).enabled = true → (d.net.ports.getD (2 + i) {}).link = true → d.parN 1 0x23 < 65536 →
      (bs.length < 16 → exec (.udpDatagramReceived t ip port i (d.parN 1 0x23) bs) s = .next (s.left (d.transportError .udp 4 1))) ∧
      (16 ≤ bs.length → d.hostListed ip = false →
        exec (.udpDatagramReceived t ip port i (d.parN 1 0x23) bs) s = .next (s.left (d.transportError .udp 3 1))) ∧
      (∀ k, 16 ≤ bs.length → d.hostListed ip = true → p.crcOk = true →
        d.keptFor ip p.op (BitVec.ofNat 6 p.tagWord) p.hcrc p.pcrc = some k →
        exec (.udpDatagramReceived t ip port i (d.parN 1 0x23) bs) s = .next (s.left (d.emit (.udpReply ip port k.reply.bytes)))) ∧
      (16 ≤ bs.length → d.hostListed ip = true →
        d.keptFor ip p.op (BitVec.ofNat 6 p.tagWord) p.hcrc p.pcrc = none →
        exec (.udpDatagramReceived t ip port i (d.parN 1 0x23) bs) s =
          .next (s.left (d.packetIn { tr := .udp, ip := ip, port := port } (if bs.length = p.size then none else some p.size) p)))) ∧
    (∀ dst, dst < 65536 → dst ≠ d.parN 1 0x23 → exec (.udpDatagramReceived t ip port i dst bs) s = .next (s.left d)) ∧
    exec (.keptReplyExpiry t) s = .next (s.left { d with
      cmd := { d.cmd with
        trans := { d.cmd.trans with kept := d.cmd.trans.kept.filter (fun k => decide (d.time.now < k.expires)) } } })

/-- R51, R52, R64, R519: the registers of BAR0. The producer and consumer pointers move, and each ring whose producer has run ahead
of its size fails; CTRL enables the interface or resets the rings; IRQ_STATUS clears by ones; the six registers of the ring
geometry are written only while the interface is off, the mask always; any other offset ignores the write. PERST drops the
replies that wait for PCIe, and the staging set of a PCIe owner. -/
def Obligations.PcieRegistersAct : Prop :=
  ∀ (s : State) (t off : Nat) (v : Word) (p : Pcie) (d : Dev), d = s.dev.reach t → d.up = true → p = d.cmd.trans.pcie →
    (∀ slots, slots.length ≤ 64 → slots.all (fun x => decide (x.length ≤ 16416)) = true →
      (v - p.cmdProducer).toNat ≤ 64 - p.slots.length →
      exec (.cmdProducerWrite t v slots) s = .next (s.left (Dev.ringCheck (d.modPcie (fun x => { x with
        cmdProducer := v,
        slots := x.slots ++ (slots.take (v - p.cmdProducer).toNat ++ List.replicate ((v - p.cmdProducer).toNat - slots.length) []) }))))) ∧
    exec (.rplConsumerWrite t v) s = .next (s.left (Dev.ringCheck (d.modPcie (fun x => { x with rplConsumer := v })))) ∧
    exec (.ctrlEnable t true) s = .next (s.left (Dev.ringCheck (d.modPcie (fun x => { x with enable := true })))) ∧
    exec (.ctrlEnable t false) s = .next (s.left (Dev.stagePcieReset (d.modPcie (fun x => { x with enable := false })))) ∧
    exec (.resetRings t) s = .next (s.left (Dev.stagePcieReset (d.modPcie (fun x => { x with
      cmdProducer := 0, cmdConsumer := 0, rplProducer := 0, rplConsumer := 0, cmdError := false, rplError := false, slots := [] })))) ∧
    exec (.irqStatusClear t v) s = .next (s.left (d.modPcie (fun x => { x with irqStatus := x.irqStatus &&& ~~~(v.truncate 3) }))) ∧
    exec (.registerWrite t 0x004 v) s = .next (s.left (Dev.ctrlEnable (v.getLsbD 0) (if v.getLsbD 1 then d.resetRings else d))) ∧
    exec (.registerWrite t 0x01C v) s = .next (s.left (Dev.producerWrite v [] d)) ∧
    exec (.registerWrite t 0x040 v) s = .next (s.left (Dev.consumerWrite v d)) ∧
    exec (.registerWrite t 0x050 v) s = .next (s.left (d.modPcie (fun x => { x with irqStatus := x.irqStatus &&& ~~~(v.truncate 3) }))) ∧
    exec (.registerWrite t 0x054 v) s = .next (s.left (d.modPcie (fun x => { x with irqMask := v }))) ∧
    (p.enable = false →
      exec (.registerWrite t 0x010 v) s = .next (s.left (d.modPcie (fun x => { x with cmdBaseLo := v }))) ∧
      exec (.registerWrite t 0x014 v) s = .next (s.left (d.modPcie (fun x => { x with cmdBaseHi := v }))) ∧
      exec (.registerWrite t 0x018 v) s = .next (s.left (d.modPcie (fun x => { x with cmdSlots := v }))) ∧
      exec (.registerWrite t 0x030 v) s = .next (s.left (d.modPcie (fun x => { x with rplBaseLo := v }))) ∧
      exec (.registerWrite t 0x034 v) s = .next (s.left (d.modPcie (fun x => { x with rplBaseHi := v }))) ∧
      exec (.registerWrite t 0x038 v) s = .next (s.left (d.modPcie (fun x => { x with rplSlots := v })))) ∧
    (p.enable = true → off ∈ [0x010, 0x014, 0x018, 0x030, 0x034, 0x038] → exec (.registerWrite t off v) s = .next (s.left d)) ∧
    (off ∉ [0x004, 0x010, 0x014, 0x018, 0x01C, 0x030, 0x034, 0x038, 0x040, 0x050, 0x054] →
      exec (.registerWrite t off v) s = .next (s.left d)) ∧
    (∀ (m : Dev) (e : Bool), m.cmd.trans.pcie.enable = e →
      (e = false → m.ringCheck = m) ∧
      (e = true → ringOver m.cmd.trans.pcie.cmdSlots m.cmd.trans.pcie.cmdProducer m.cmd.trans.pcie.cmdConsumer = true →
        m.ringCheck.cmd.trans.pcie.cmdError = true) ∧
      (e = true → ringOver m.cmd.trans.pcie.rplSlots m.cmd.trans.pcie.rplProducer m.cmd.trans.pcie.rplConsumer = true →
        m.ringCheck.cmd.trans.pcie.rplError = true)) ∧
    exec (.pciePerst t) s = .next (s.left (d.dropReplies .pcie).stagePcieReset)

/-! ### Flows, time and Ethernet (03, 11) -/

/-- R96: a subscribe context without an accepted frame for TIMEOUT, at the last sub-tick boundary, enters STALE, treats its points
as ON_TIMEOUT says and raises 0301h with state 3; one without a frame for BAD_AFTER makes them BAD, enters DOWN and raises 0301h
with state 4. A frame that no port in use takes changes nothing, one with a wrong FCS is counted; an untagged frame goes to the
module's own functions, and every frame that STORM_LIMIT does not count is offered to the flows (notes/assumptions/102.md).
R347, R348: a tagged frame is taken once. On a ring port the second copy is counted and goes no further, the first is forwarded
and goes to the module's own functions, and an own frame that comes back is removed; on an interface of a PRP pair the second
copy is counted and discarded. R346: a frame of EtherType 88B5h to the module, taken as any other frame is, whose marks and CRC
stand confirms by each of its entries; one whose marks or CRC do not stand confirms nothing. -/
def Obligations.FramesOfTheRingAreJudged : Prop :=
  (∀ (s : State) (t c : Nat) (d : Dev), d = s.dev.reach t → d.up = true → c < 256 →
    (∀ x y, x = d.flow c → Bits.byteAt x.payload 0 = 0 → (x.state = 1 ∨ x.state = 2) →
      1000000 * Bits.at' x.payload 24 2 ≤ d.boundaryAge x.from' →
      y = (ctxPoints x.payload).foldl (fun z i => z.flowDegrade (Bits.byteAt x.payload 28) i) d →
      exec (.flowTimeout t c) s = .next (s.left ((y.setFlow c { x with
        state := 3, staleAt := y.time.now, outages := x.outages + 1 }).raiseI 0x0301 1 c (Bits.le 1 c ++ [3])))) ∧
    (∀ x y, x = d.flow c → x.state = 3 → 1000000 * Bits.at' x.payload 26 2 ≤ d.boundaryAge x.from' →
      y = (ctxPoints x.payload).foldl (fun z i => z.degrade i 3) d →
      exec (.flowBadAfter t c) s = .next (s.left ((y.setFlow c { x with state := 4 }).raiseI 0x0301 1 c (Bits.le 1 c ++ [4])))) ∧
    (∀ p f, p < 4 → f.wf = true → d.portUp p = false → exec (.ethFrameReceived t p f) s = .next (s.left d)) ∧
    (∀ p f, p < 4 → f.wf = true → d.portUp p = true → f.fcsBad = true →
      exec (.ethFrameReceived t p f) s = .next (s.left (d.modPort p (fun x => { x with errs := x.errs + 1 })))) ∧
    (∀ p f, p < 4 → f.wf = true → d.portUp p = true → f.fcsBad = false → f.red = none →
      exec (.ethFrameReceived t p f) s = .next (s.left ((d.modPort p (fun x => { x with rx := x.rx + 1 })).ownStack p f))) ∧
    (∀ p f (a : Dev), (a.parN 0x20 (0x22 + 8 * p) = 0 ∨ f.dst.testBit 40 = false) → a.ownStack p f = a.flowOffer p f)) ∧
  (∀ (s : State) (t p : Nat) (f : EthFrame) (r : RedTag) (d : Dev), d = s.dev.reach t → d.up = true → p < 4 → f.wf = true →
    d.portUp p = true → f.fcsBad = false → f.red = some r →
    (∀ a u e, 2 ≤ p → d.parB 0x20 0x40 = true → a = d.modPort p (fun x => { x with rx := x.rx + 1 }) →
      u = dupTake a.time.now a.ddtForget f.src r.seq a.net.prp →
      e = Dev.tableFull u.2.2 1 { a with net := { a.net with prp := u.2.1 } } →
      (u.1 = true → exec (.ethFrameReceived t p f) s = .next (s.left { e with net := { e.net with dups := e.net.dups + 1 } })) ∧
      (u.1 = false → f.ethType ≠ 0x88FB → exec (.ethFrameReceived t p f) s = .next (s.left (e.ownStack p f)))) ∧
    ∀ a, p < 2 → a = d.modPort p (fun x => { x with rx := x.rx + 1 }) →
    (f.src = a.mac → f.ethType ≠ 0x88FB → exec (.ethFrameReceived t p f) s = .next (s.left a)) ∧
    (∀ b u e, f.src ≠ a.mac → b = (a.seeNode f.src).hsrForward p f r.seq → u = dupTake b.time.now b.ddtForget f.src r.seq b.net.hsr →
      e = Dev.tableFull u.2.2 0 { b with net := { b.net with hsr := u.2.1 } } →
      (u.1 = true → exec (.ethFrameReceived t p f) s = .next (s.left { e with net := { e.net with dups := e.net.dups + 1 } })) ∧
      (u.1 = false → f.ethType ≠ 0x88FB → exec (.ethFrameReceived t p f) s = .next (s.left (e.ownStack p f))) ∧
      (u.1 = false → f.ethType = 0x88FB → exec (.ethFrameReceived t p f) s = .next (s.left e)))) ∧
  (∀ (s : State) (t p : Nat) (f : EthFrame) (d a : Dev) (bs : List Byte), d = s.dev.reach t → d.up = true → p < 4 → f.wf = true →
    d.ethIntake p f = (true, a) → f.ethType = 0x88B5 → f.dst = a.mac → bs = f.payload →
    (∀ n, n = Bits.byteAt bs 3 → Bits.at' bs 0 2 = 0x5D1C → Bits.byteAt bs 2 = 1 → Bits.crc32c (Bits.fit 12 bs) = Bits.wordAt bs 12 →
      1 ≤ n → n ≤ 24 → 16 + 8 * n ≤ bs.length →
      exec (.ackFrameReceived t p f) s = .next (s.left
        ((Bits.upTo n).foldl (fun x i => x.ackEntry (Bits.at' bs 4 4) ((bs.drop (16 + 8 * i)).take 8)) a))) ∧
    (Bits.crc32c (Bits.fit 12 bs) ≠ Bits.wordAt bs 12 → exec (.ackFrameReceived t p f) s = .next (s.left a)))

/-- R336 to R338: PTP messages on a port. One of the module's domain on a port that takes part acts: a one-step Sync steers by its
own stamp; a two-step one waits for its Follow_Up; a Pdelay_Req is answered and a Pdelay_Resp gives the port's delay. Whatever
its domain, a message of another kind is first forwarded as the module forwards PTP; one on a dead port does nothing. Sync and
Announce leave a MASTER port only; a grandmaster not heard for the announce time-out is forgotten. What of this the spec leaves
open is the model's choice: notes/assumptions/39.md. R330, R335: the time inputs. An edge of PPS_IN of the chosen sense is
stamped less its cable delay, and is good within 10 us of 1 s; the third bad interval in a row makes the input invalid with
0B10h. REF10_IN leaves its band with 0B11h, and is valid again where it is in use. -/
def Obligations.TimeInputsAndPtpAct : Prop :=
  (∀ (s : State) (t p n : Nat) (d : Dev), d = s.dev.reach t → d.up = true → p < 4 → n < 256 → n = d.parN 0x20 0x11 → d.ptpOn p = true →
    (∀ o c (a : Dev), a = d.ptpForward p (.sync false o c) →
      exec (.ptpMessageReceived t p ⟨n, .sync false o c⟩) s = .next (s.left (a.ptpSync p a.c o c))) ∧
    (∀ o c (a : Dev), a = d.ptpForward p (.sync true o c) →
      exec (.ptpMessageReceived t p ⟨n, .sync true o c⟩) s = .next (s.left { a with
        net := { a.net with ports := Bits.modAt a.net.ports p (fun x => { x with pending := some (c, a.c) }) } })) ∧
    (∀ o c c0 arr (a b : Dev), a = d.ptpForward p (.followUp o c) →
      (a.net.ports.getD p {}).pending = some (c0, arr) → b = { a with
        net := { a.net with ports := Bits.modAt a.net.ports p (fun x => { x with pending := none }) } } →
      exec (.ptpMessageReceived t p ⟨n, .followUp o c⟩) s = .next (s.left (b.ptpSync p arr o (c0 + c)))) ∧
    exec (.ptpMessageReceived t p ⟨n, .pdelayReq⟩) s = .next (s.left (d.emit (.ptpAnswer p))) ∧
    (∀ k, k < 2 ^ 32 → exec (.ptpMessageReceived t p ⟨n, .pdelayResp k⟩) s = .next (s.left { d with
      net := { d.net with ports := Bits.modAt d.net.ports p (fun x => { x with delay := some k }) } })) ∧
    (∀ q m, q < 4 → m.wf = true → d.portLive q = false → exec (.ptpMessageReceived t q ⟨n, m⟩) s = .next (s.left d)) ∧
    (∀ k, k < 256 → k ≠ n → exec (.ptpMessageReceived t p ⟨k, .pdelayReq⟩) s = .next (s.left d)) ∧
    ((d.net.ports.getD p {}).ptp = 6 → exec (.ptpMessageSend t p .sync) s = .next (s.left (d.emit (.ptp p (.sync false d.dev 0)))) ∧
      exec (.ptpMessageSend t p .announce) s = .next (s.left (d.emit (.ptp p d.ptpAnnounced)))) ∧
    ((d.net.ports.getD p {}).ptp ≠ 6 → exec (.ptpMessageSend t p .sync) s = .next (s.left d) ∧
      exec (.ptpMessageSend t p .announce) s = .next (s.left d)) ∧
    exec (.ptpMessageSend t p .pdelayReq) s = .next (s.left (d.emit (.ptp p .pdelayReq))) ∧
    (1000000000 * 2 ^ (d.parI 0x20 0x16).toNat * d.parN 0x20 0x17 ≤ d.time.now - (d.net.ports.getD p {}).annAt →
      exec (.announceTimeout t p) s = .next (s.left (Dev.bmca { d with
        net := { d.net with ports := Bits.modAt d.net.ports p (fun y => { y with gm := none }) } })))) ∧
  (∀ (s : State) (t : Nat) (d : Dev), d = s.dev.reach t → d.up = true →
    (∀ (e : Bool) (l a : Int), d.parB 0x20 0x0C = true → e = (d.par 0x20 0x0D == 0#32) → d.hw.vioOut.getLsbD 2 = false →
      a = (d.time.now : Int) - d.parI 0x20 0x0E →
      (d.pps.inLast = none → exec (.ppsInEdge t e) s = .next (s.left { d with pps := { d.pps with inLast := some a.toNat } })) ∧
      (∀ k, d.pps.inLast = some k → l = (a.toNat : Int) - (k : Int) → Bits.absI (l - 1000000000) ≤ 10000 → d.timeValid = true →
        exec (.ppsInEdge t e) s = .next (s.left { d with
          pps := { d.pps with inLast := some a.toNat, inBad := 0, inLen := a.toNat - k, inValid := true } })) ∧
      (∀ k, d.pps.inLast = some k → l = (a.toNat : Int) - (k : Int) → 10000 < Bits.absI (l - 1000000000) → d.pps.inBad = 2 →
        exec (.ppsInEdge t e) s = .next (s.left (Dev.raise 0x0B10 1 [] { d with
          pps := { d.pps with inLast := some a.toNat, inBad := 3, inValid := false } })))) ∧
    (d.pps.ref10Valid = true → exec (.ref10Invalid t) s = .next (s.left (Dev.raise 0x0B11 1 [] { d with
      pps := { d.pps with ref10Valid := false } }))) ∧
    (d.pps.ref10Valid = false → exec (.ref10Invalid t) s = .next (s.left d)) ∧
    (d.parB 0x20 0x0F = true → exec (.ref10Valid t) s = .next (s.left { d with pps := { d.pps with ref10Valid := true } })))

/-- R341, R347, R349: the launch queues and the ring. The head of a queue whose time has come leaves, behind the frames due at its
instant on a port of its own that go before it (thruster frames, then the lower queue, R344); a port's link change sets its
state and raises 0B0Ah or 0B09h; a supervision frame leaves on the ring, and on the PRP pair where there is one; a ring whose
supervision frame has not come back either way is open, with 0B0Bh; nodes and duplicates are forgotten at their age; a relay
that does not follow raises 0B13h. -/
def Obligations.PortsAndRingFollowTheirEvents : Prop :=
  ∀ (s : State) (t : Nat) (d : Dev), d = s.dev.reach t → d.up = true →
    (∀ q e l, q < 8 → d.net.launch.getD q [] = e :: l → e.due ≤ d.dev →
      exec (.launchQueueLaunch t q) s = .next (s.left
        (((d.launchOrder e).takeWhile (fun x => x != (q, e)) ++ [(q, e)]).foldl (fun x y => x.launchOne y.1 y.2) d))) ∧
    (∀ q e l, q < 8 → d.net.launch.getD q [] = e :: l → d.dev < e.due → exec (.launchQueueLaunch t q) s = .next (s.left d)) ∧
    (∀ b, b = [0x01, 0x15, 0x4E, 0x00, 0x01] ++ Bits.le 1 (d.parN 0x20 0x44) ++ Bits.be 6 d.mac ++ [0x88, 0xFB] →
      ∀ x, x = (if d.codeUp 0 then d.sendEth 0 b else d) →
      exec (.supervisionFrameSend t) s = .next (s.left (if x.parB 0x20 0x40 && x.codeUp 1 then x.sendEth 1 b else x))) ∧
    (d.net.ringOpen = false → (d.net.supA = none ∨ d.net.supB = none) →
      exec (.ringOpen t) s = .next (s.left (Dev.raise 0x0B0B 1 [] { d with
        net := { d.net with ringOpen := true, openSince := d.time.now } }))) ∧
    (∀ keep : Dup → Bool, keep = (fun e => decide (d.time.now - e.at0 < d.ddtForget)) →
      exec (.nodeForget t) s = .next (s.left { d with
        net := { d.net with
          nodes := d.net.nodes.filter (fun n => decide (d.time.now - n.2 < 1000000000 * d.parN 0x20 0x42)),
          hsr := d.net.hsr.filter keep, hsrFwd := d.net.hsrFwd.filter keep, prp := d.net.prp.filter keep } })) ∧
    (∀ p, p < 4 → (d.port p).link = false → exec (.portLinkChange t p true) s = .next (s.left
      ((d.modPort p (fun x => { x with link := true, gm := x.gm })).raiseI 0x0B0A 0 p (Bits.le 1 p)).bmca)) ∧
    (∀ p, p < 4 → (d.port p).link = true → exec (.portLinkChange t p false) s = .next (s.left
      ((d.modPort p (fun x => { x with link := false, gm := none })).raiseI 0x0B09 1 p (Bits.le 1 p)).bmca)) ∧
    (∀ r, r < 2 → exec (.bypassMismatch t r) s = .next (s.left (Dev.raiseI 0x0B13 3 r (Bits.le 1 r) { d with
      net := { d.net with relayBad := d.net.relayBad ||| BitVec.ofNat 2 (2 ^ r) } })))

/-! ### Acquisition, ranging, fusion and refinement (04 to 07) -/

/-- R108, R109, R112, R113, R131, R514: a port frame on a running port puts the sample of each slot in use into the port's FIFO, in
order, and what the FIFO gives runs its chains; where the FIFO is stalled nothing is read from it. With bank VIO2 out every bit
reads zero. A port that does not run, or that waits for a synchronising reset and has no frame left to finish, takes none. R126:
a locked resampler whose last crossing lies 50 ms back unlocks with 0407h, reason 2. What of this the spec leaves open is the
model's choice: notes/assumptions/44.md. R140, R141: a link frame is judged by its causes in order. A good one gives its
samples, its status and its point of the antenna's fit, and counts towards 64, which bring a link that is down up with 0502h; a
bad one gives zeros for its samples and counts towards 8, which bring it down; each bad one raises 0503h with its cause. An
unused link takes nothing. What of this the spec leaves open is the model's choice: notes/assumptions/93.md. -/
def Obligations.PortAndLinkFramesAreJudged : Prop :=
  (∀ (s : State) (t p : Nat) (slots : List Word) (stalled : Bool) (d : Dev), d = s.dev.reach t → d.up = true → p < 32 → slots.length ≤ 16 →
    (∀ (g : PortGeo) (m : Int) (used : List Nat) (a b : Dev) (dat : Nat → Word), g = d.portGeo p →
      m = ((d.dev : Int) - ((g.bits * 1000000000 / g.clk : Nat) : Int) - (d.frame.subAt : Int)) * (g.rate : Int) / 1000000000 + (g.lead : Int) →
      used = (d.usedChains p).filter (fun c => decide (c % 16 < g.slots)) →
      (∀ c, dat c = if d.hw.vioOut.getLsbD 1 then 0 else slots.getD (c % 16) 0) →
      a = { d with acq := { d.acq with finishing := d.acq.finishing &&& ~~~BitVec.ofNat 32 (2 ^ p) } } →
      b = used.foldl (fun x c => if stalled then x.fifoSlot g c d.frame.subAt m (dat c)
        else (x.fifoSlot g c d.frame.subAt m (dat c)).fifoRead p) a →
      d.acq.ports.getLsbD p = true → d.testing 2 = false → (d.frame.syncDue = false ∨ d.acq.finishing.getLsbD p = true) →
      exec (.samplePortFrame t p slots stalled) s = .next (s.left (used.foldl (fun x c => x.chainRun x.dev c) b))) ∧
    ((d.acq.ports.getLsbD p = false ∨ (d.frame.syncDue = true ∧ d.acq.finishing.getLsbD p = false)) →
      exec (.samplePortFrame t p slots stalled) s = .next (s.left d)) ∧
    (∀ u c, u < 16 → (d.rs u).cross = some c → (d.rs u).lock = .locked → 1600 * 4294967296 ≤ posOf d.dev - c →
      exec (.resamplerNoCrossing t u) s = .next (s.left ((d.setRs u { d.rs u with
        lock := .unlocked, periods := [], settleTo := none }).raiseI 0x0407 1 u (Bits.le 1 u ++ [2]))))) ∧
  (∀ (s : State) (t n : Nat) (f : LinkFrame) (d e : Dev) (x good : Link), d = s.dev.reach t → d.up = true → n < 12 → f.wf = true →
    x = d.glink n → e = d.fitFrame n (Bits.at' f.bytes 2 4) →
    good = { x with
      last := some (Bits.at' f.bytes 2 4), samples := (f.bytes.drop 14).take 1024, status := f.bytes.getD 1 0, agc := Bits.at' f.bytes 6 2, bad := 0 } →
    ((d.gnss.running = false ∨ d.linkUsed n = false) → exec (.linkFrame t n f) s = .next (s.left d)) ∧
    (∀ g, g = (if x.good < 64 then x.good + 1 else 64) → d.gnss.running = true → d.linkUsed n = true → d.linkCause n f = 0 →
      (x.up = true ∨ g ≠ 64) →
      exec (.linkFrame t n f) s = .next (s.left (e.modGnss (fun z => { z with links := Bits.setAt z.links n { good with good := g } })))) ∧
    (∀ y : Dev, y = e.modGnss (fun z => { z with
        antLost := z.antLost &&& ~~~BitVec.ofNat 4 (2 ^ (n / 3)), links := Bits.setAt z.links n { good with up := true, good := 64 } }) →
      d.gnss.running = true → d.linkUsed n = true → d.linkCause n f = 0 → x.up = false → 63 ≤ x.good →
      exec (.linkFrame t n f) s = .next (s.left (y.raiseI 0x0502 0 n (Bits.le 1 n ++ Bits.le 4 ((y.time.now - x.downAt) / 1000000))))) ∧
    (∀ k c : Nat, k = (if x.bad < 8 then x.bad + 1 else 8) → c = d.linkCause n f → d.gnss.running = true → d.linkUsed n = true → c ≠ 0 →
      ∀ y : Dev, y = d.modGnss (fun z => { z with
          links := Bits.setAt z.links n { x with
            samples := Bits.zeros 1024, up := x.up && !(x.up && k == 8), bad := k, good := 0, badTotal := x.badTotal + 1,
            last := if 4 ≤ c then some (Bits.at' f.bytes 2 4) else x.last.map (fun z => (z + 1024) % 2 ^ 32),
            downAt := if x.up && k == 8 then d.time.now else x.downAt } }) →
      exec (.linkFrame t n f) s = .next (s.left (if x.up && k == 8 then
        (y.raiseI 0x0503 0 n (Bits.le 1 n ++ Bits.le 1 c)).linkFalls n else y.raiseI 0x0503 0 n (Bits.le 1 n ++ Bits.le 1 c)))))

/-- R144 to R148, R166: a search pass runs while ranging runs below full throttle and the pass before it has ended; it packs what is
due into the bank's 16,384 cells, takes the time of its longest dwell, longer under a throttle, and each search that it
completes ends. A channel that loses its signal is searched for again, and is idle 10 s later. What of this the spec leaves open
is the model's choice: notes/assumptions/13.md and notes/assumptions/93.md. -/
def Obligations.TrackingChannelsFollowTheirSignal : Prop :=
  ∀ (s : State) (t a c : Nat) (d : Dev), d = s.dev.reach t → d.up = true → a < 4 → c < 96 →
    ((d.gnss.running = false ∨ 100 ≤ d.health.x ∨ d.testedThisFrame 1 = true ∨ d.time.now < d.gnss.passDue) →
      exec (.acquisitionPass t) s = .next (s.left d)) ∧
    (∀ (all done rest : List SearchJob) (dwell : Nat) (e : Dev), d.gnss.running = true → d.health.x < 100 → d.testedThisFrame 1 = false →
      d.gnss.passDue ≤ d.time.now → all = (if d.gnss.bank.isEmpty then (Bits.upTo d.antCount).flatMap d.searchesDue else d.gnss.bank) →
      packPass 16384 all = (done, rest) →
      dwell = (done ++ rest.take 1).foldl (fun m j => Nat.max m (searchDwell j.kind j.signal)) 0 →
      e = d.modGnss (fun g => { g with bank := rest, passDue := d.time.now + dwell * 100 / (100 - d.health.x) }) →
      exec (.acquisitionPass t) s = .next (s.left (done.foldl Dev.searchEnds e))) ∧
    ((d.chan a c).now.system ≠ 0xFF → (d.chan a c).lostAt = none →
      exec (.trackingLossOfLock t a c) s = .next (s.left (d.setChan (96 * a + c) ((d.chan a c).lose d.time.now))) ∧
      ((d.chan a c).lose d.time.now).lostAt = some d.time.now) ∧
    (∀ z, (d.chan a c).lostAt = some z → 10000000000 ≤ d.time.now - z →
      exec (.reacquisitionExpiry t a c) s = .next (s.left (d.setChan (96 * a + c) {})))

/-- R153, R156, Table 5.9: a solution that completes within 2.0 ms of t0 stands for its frame with one of the modes 0 to 4. At
t0+2.0 ms its points are written; one not finished by then leaves every point STALE, gives the time base no offset and raises
050Ah; the points of the channels are written in either case. What of this the spec leaves open is the model's choice:
notes/assumptions/13.md and notes/assumptions/93.md. R162, R164, R167, Table 7.13: corrections reach the streams that name their
port and interface; a stream whose newest epoch is older than CORR_MAX_AGE is stale, with 0506h once; the ranging store is
written every 10 min, as is the refined model. What of this the spec leaves open is the model's choice: notes/assumptions/13.md
and notes/assumptions/57.md. -/
def Obligations.GnssSolutionAndCorrectionsAct : Prop :=
  (∀ (s : State) (t : Nat) (d : Dev), d = s.dev.reach t → d.up = true →
    ((d.gnss.running = false ∨ d.gnss.solving = false) →
      exec (.gnssSolutionComplete t) s = .next (s.left d) ∧ exec (.gnssSolutionDeadline t) s = .next (s.left d)) ∧
    (d.gnss.running = true → d.gnss.solving = true → d.gnss.solved = false → d.sinceT0 < 2000000 →
      ∃ e : Dev, exec (.gnssSolutionComplete t) s = .next (s.left e) ∧ e.gnss.solved = true ∧ e.gnss.mode ≤ 4 ∧
      e.gnss.attitude ≤ 2 ∧ e.frame = d.frame ∧ e.cfg = d.cfg ∧ e.engine = d.engine ∧ e.island = d.island ∧ e.image = d.image) ∧
    (∀ x : Dev, d.gnss.running = true → d.gnss.solving = true → 2000000 ≤ d.sinceT0 →
      x = d.modGnss (fun g => { g with solving := false, solved := false }) →
      (d.gnss.solved = true → exec (.gnssSolutionDeadline t) s =
        .next (s.left (x.gnssPoints.channelPoints (BitVec.ofNat 32 x.gnssPoints.frame.t0)))) ∧
      (d.gnss.solved = false → ∀ y z : Dev, y = (List.range' 1024 104).foldl (fun u i =>
          if Bits.get (fun _ => ({} : Point)) u.image.live i = {} then u else u.degrade i 1) (x.gnssLatch none) →
        z = y.raise 0x050A 1 (Bits.le 4 y.frame.number) →
        exec (.gnssSolutionDeadline t) s = .next (s.left (z.channelPoints (BitVec.ofNat 32 z.frame.t0)))))) ∧
  (∀ (s : State) (t : Nat) (d : Dev), d = s.dev.reach t → d.up = true →
    (∀ i p bs, i < 2 → p < 65536 → bs.length ≤ 65507 → d.portUp (2 + i) = true →
      exec (.correctionDatagram t i p bs) s = .next (s.left ((Bits.upTo 4).foldl (fun x k =>
        if x.gPar (0x10 + 4 * k) == 1 && x.gPar (0x11 + 4 * k) == p && (x.gPar (0x12 + 4 * k)).testBit i then
          (x.corrBytes k bs).2 else x) d))) ∧
    (∀ i p bs, i < 2 → p < 65536 → bs.length ≤ 65507 → d.portUp (2 + i) = false →
      exec (.correctionDatagram t i p bs) s = .next (s.left d)) ∧
    (∀ k a c, k < 4 → c = d.gnss.streams.getD k {} → c.age d.time.now = some a → c.stale = false → 1000000000 * d.gPar 0xC < a →
      exec (.correctionsStale t k) s = .next (s.left (Dev.raiseI 0x0506 1 k (Bits.le 1 k ++ Bits.le 4 (a / 1000000)) { d with
        gnss := { d.gnss with streams := Bits.setAt d.gnss.streams k { c with stale := true } } }))) ∧
    (d.gnss.running = true → 600000000000 ≤ d.time.now - d.gnss.storeAt →
      exec (.gnssStoreWrite t) s = .next (s.left { d with
        gnss := { d.gnss with storeAt := d.time.now },
        nvm := { d.nvm with gnss := some { sats := d.gnss.sats, position := d.gnss.position } } })) ∧
    (d.parB 0x10 9 = true → 600000000000 ≤ d.time.now - d.solver.refine.storeAt →
      exec (.refinedModelStoreWrite t) s = .next (s.left { d with
        solver := { d.solver with refine := { d.solver.refine with storeAt := d.time.now } },
        nvm := { d.nvm with refined := some d.solver.refine.values } })))

/-- R177 to R190: the timers of fusion. A reference not taken for MAXGAP becomes UNAVAILABLE; a conflict that has stood for its
limit is expired with 0605h, and one whose references have agreed for the readmission time ends with 0604h and both admitted; a
reference that has passed for that time is readmitted with 0602h; a state settled within its limits raises 060Fh once. What of
this the spec leaves open is the model's choice: notes/assumptions/56.md. -/
def Obligations.FusionTimersAct : Prop :=
  ∀ (s : State) (t c r : Nat) (d : Dev), d = s.dev.reach t → d.up = true → c < 4 →
    (r < 16 → d.fusion.running = true → (d.ref r).state ≠ .off → (d.ref r).state ≠ .unavailable →
      1000000 * d.slotPar r 0xB ≤ d.time.now - (d.ref r).takenAt →
      exec (.refMaxgapExpiry t r) s = .next (s.left (d.modRef r (fun x => { x with
        state := .unavailable, goneAt := d.time.now, fresh := false })))) ∧
    (∀ k, (d.cls c).conflict = some k → k.expired = false → 1000000000 * d.fPar 0xA ≤ d.time.now - k.since →
      exec (.conflictExpired t c) s = .next (s.left ((d.modCls c (fun y => { y with conflict := some { k with expired := true } })).raiseI
        0x0605 2 c (Bits.le 1 c ++ Bits.le 1 (match k.used with | some u => refShown u | none => 0xFF))))) ∧
    (∀ k z x, (d.cls c).conflict = some k → k.agreeSince = some z → 1000000000 * d.fPar 0xB ≤ d.time.now - z →
      x = (((d.modCls c (fun y => { y with conflict := none })).modRef k.a (fun y => { y with state := .admitted })).modRef k.b
        (fun y => { y with state := .admitted })).modCls c (fun y => { y with active := [k.a, k.b] }) →
      exec (.conflictCleared t c) s = .next (s.left (x.raiseI 0x0604 0 c
        (Bits.le 1 c ++ Bits.le 4 ((x.rawT0 - k.since) / 1000000))))) ∧
    (∀ z, r < 18 → (d.ref r).passSince = some z → r ∈ d.members c → ((d.ref r).state = .rejected ∨ (d.ref r).state = .probation) →
      1000000000 * d.fPar 0xB ≤ d.time.now - z →
      exec (.referenceReadmit t c r) s = .next (s.left ((d.modRef r (fun y => { y with state := .admitted, passSince := none })).raiseI
        0x0602 0 (256 * c + refShown r) (Bits.le 1 c ++ Bits.le 1 (refShown r))))) ∧
    (d.fusion.running = true → d.fusion.initialised = true → d.fusion.settled = false → 250 ≤ d.fusion.frames →
      (∀ i, i = 8 ∨ i = 9 → (d.fusion.record.getD i 0).toInt * 1000 < (d.fPar 0xF : Int) * 65536) →
      (d.fusion.record.getD 10 0).toInt * 1000 < (d.fPar 0x10 : Int) * 4194304 →
      exec (.fusionSettled t) s = .next (s.left (Dev.raise 0x060F 0 (Bits.le 4 d.frame.number) { d with
        fusion := { d.fusion with settled := true } })))

/-! ### CAN (12) -/

/-- R357, R358: a data frame with a filter that matches goes to the lowest such receive buffer: moved on at once where the buffer is
not locked, held in the one-frame slot where it is, the frame that stood there being dropped with 0C06h; a frame no filter takes
is counted, and so is a remote frame; a controller that is out of use or off takes nothing, nor does one that gets an FD frame
with FD_EN 0, or any controller while its interface bank is out. The stamp is that of the start of frame. In normal mode a good
frame lowers the receive error count. What of this the spec leaves open is the model's choice: notes/assumptions/19.md and
notes/assumptions/85.md. R357: the read of word 0 locks a receive buffer, where it is not locked already, and that of word 18
releases it, each answering the word; a lock held for more than 20 us is released with 0C09h. R369: a mapping without a frame
for its time-out, judged at a sub-tick boundary, makes its point STALE with 0C0Bh once, and BAD at four times that. -/
def Obligations.CanFramesReachTheirBuffer : Prop :=
  (∀ (s : State) (t c : Nat) (f : CanFrame) (d a : Dev), d = s.dev.reach t → d.up = true → c < 8 → f.wf = true →
    a = (if d.canMode c = 1 then (d.modCtrl c (fun k => { k with
      rxErr := if 127 < k.rxErr then 119 + Config.canRec % 9 else k.rxErr - 1 })).canErrState c else d) →
    ((d.canMode c = 0 ∨ (d.ctrl c).off = true ∨ (f.fdf = true ∧ d.canPar c 1 = 0) ∨ d.hw.vioOut.getLsbD 0 = true) →
      exec (.canFrameReceived t c f) s = .next (s.left d)) ∧
    (d.canMode c ≠ 0 → (d.ctrl c).off = false → (f.fdf = false ∨ d.canPar c 1 ≠ 0) → d.hw.vioOut.getLsbD 0 = false →
      (f.remote = true → exec (.canFrameReceived t c f) s = .next (s.left (a.modCtrl c (fun k => { k with remotes := k.remotes + 1 })))) ∧
      (f.remote = false → a.canMatch c f = none →
        exec (.canFrameReceived t c f) s = .next (s.left (a.modCtrl c (fun k => { k with unmatched := k.unmatched + 1 })))) ∧
      (∀ b, f.remote = false → a.canMatch c f = some b → ((a.ctrl c).buf b).lock = none →
        exec (.canFrameReceived t c f) s = .next (s.left (a.canMove c b f false (a.shortAt (a.time.now - f.sinceSof))))) ∧
      (∀ b z e, f.remote = false → a.canMatch c f = some b → ((a.ctrl c).buf b).lock = some z →
        e = a.modCtrl c (fun k => { k with
          slot := some { idw := canIdw f, esi := f.esi, held := true, buf := b, stamp := a.shortAt (a.time.now - f.sinceSof), data := f.data },
          dropped := if k.slot.isSome then k.dropped + 1 else k.dropped }) →
        exec (.canFrameReceived t c f) s = .next (s.left (match (a.ctrl c).slot with
          | some o => e.raiseI 0x0C06 0 (256 * c + o.buf) (Bits.le 1 c ++ Bits.le 1 o.buf)
          | none => e))))) ∧
  (∀ (s : State) (t c b : Nat) (d : Dev), d = s.dev.reach t → d.up = true → c < 8 → 32 ≤ b → b < 64 →
    exec (.canBufferLock t c b) s = .next (s.left ((d.modCtrl c (fun k => k.setBuf b { k.buf b with lock := some (((d.ctrl c).buf b).lock.getD d.time.now) })).emit
      (.word ((d.ctrl c).buf b).idw))) ∧
    exec (.canBufferRelease t c b) s = .next (s.left ((d.canUnlock c b).emit (.word (((d.ctrl c).buf b).word 18)))) ∧
    (∀ z, ((d.ctrl c).buf b).lock = some z → 20000 < d.time.now - z →
      exec (.canLockTimeout t c b) s = .next (s.left ((d.canUnlock c b).raiseI 0x0C09 3 (256 * c + b) (Bits.le 1 c ++ Bits.le 1 b)))) ∧
    (∀ z, ((d.ctrl c).buf b).lock = some z → d.time.now - z ≤ 20000 → exec (.canLockTimeout t c b) s = .next (s.left d)) ∧
    (∀ e lim i x, e < 256 → lim = 1000000 * d.parN 0x24 (0x803 + 4 * e) → i = d.parN 0x24 (0x802 + 4 * e) →
      (d.par 0x24 (0x800 + 4 * e)).getLsbD 15 = true → (d.rxMap e).alive = true → 0 < lim →
      lim ≤ d.boundaryAge (d.rxMap e).last →
      x = (if (d.rxMap e).stale then d
        else ((d.degrade i 1).setRxMap e { d.rxMap e with stale := true }).raiseI 0x0C0B 1 e (Bits.le 2 e ++ Bits.le 4 i)) →
      exec (.rxmapTimeout t e) s = .next (s.left (if 4 * lim ≤ d.boundaryAge (d.rxMap e).last && !(d.rxMap e).bad then
        (x.degrade i 3).setRxMap e { d.rxMap e with stale := true, bad := true } else x))))

/-- R359, R360: an attempt that ends well lowers the transmit error count, frees its buffer, which keeps the stamp of the start of
frame, puts the frame on the bus, ends its member of a CAN_SEND OK and fills the buffers; one without an acknowledgement counts
unless the controller is passive and saw no dominant bit; any other error ends the attempt with its error code. A buffer that is
not pending, or before which another message stood at the start of frame, or a controller not in normal mode, makes no attempt.
What of this the spec leaves open is the model's choice: notes/assumptions/85.md. R360, R363, R364: a receive error counts 1, a
severe one 8, in normal mode, where the controller is in use and not off the bus; the recovery that CAN_RECOVER started
completes active with both counts 0, its blocked buffers pending again from this instant, 0C04h and its request OK; a controller
not in recovery does nothing. What of this the spec leaves open is the model's choice: notes/assumptions/85.md. -/
def Obligations.CanAttemptsAndErrorsCount : Prop :=
  (∀ (s : State) (t c b u : Nat) (d : Dev) (x : CanBuf), d = s.dev.reach t → d.up = true → c < 8 → b < 32 → x = (d.ctrl c).buf b →
    (d.canMode c = 1 → x.state = .pending → (d.ctrl c).before b (d.time.now - u) = false →
      (∀ e, e = ((d.modCtrl c (fun k => ({ k with tec := k.tec - 1 }).setBuf b { stamp := d.shortAt (d.time.now - u) })).emit
          (.can c b x.idw (x.idw.getLsbD 30 && (d.ctrl c).err == .passive) x.data)) →
        exec (.canAttemptEnd t c b ⟨.ok, u⟩) s = .next (s.left ((match x.tag with
          | some g => e.member g 1 c stOk | none => e).canErrState c |>.canFill c))) ∧
      (∀ dom, exec (.canAttemptEnd t c b ⟨.ackError dom, u⟩) s =
        .next (s.left (d.canFail c b 3 true (dom || (d.ctrl c).err != .passive)))) ∧
      (∀ lec counted, (CanEnd.error lec counted).wf = true →
        exec (.canAttemptEnd t c b ⟨.error lec counted, u⟩) s = .next (s.left (d.canFail c b lec false counted)))) ∧
    (∀ r, r.wf = true → (d.canMode c ≠ 1 ∨ x.state ≠ .pending ∨ (d.ctrl c).before b (d.time.now - u) = true) →
      exec (.canAttemptEnd t c b ⟨r, u⟩) s = .next (s.left d))) ∧
  (∀ (s : State) (t c : Nat) (d : Dev), d = s.dev.reach t → d.up = true → c < 8 →
    (∀ lec, 1 ≤ lec → lec < 7 → d.canMode c ≠ 0 → (d.ctrl c).off = false →
      exec (.canReceiveError t c (.plain lec)) s = .next (s.left ((d.modCtrl c (fun k => { k with
        lec := lec, rxErr := if d.canMode c = 1 then k.rxErr + 1 else k.rxErr })).canErrState c)) ∧
      exec (.canReceiveError t c (.severe lec)) s = .next (s.left ((d.modCtrl c (fun k => { k with
        lec := lec, rxErr := if d.canMode c = 1 then k.rxErr + 8 else k.rxErr })).canErrState c))) ∧
    (∀ e, (d.ctrl c).err = .recovering →
      e = Dev.raiseI 0x0C04 0 c (Bits.le 1 c ++ Bits.le 4 ((d.time.now - (d.ctrl c).offAt) / 1000000)) (d.modCtrl c (fun k => { k with
        err := .active, tec := 0, rxErr := 0, recover := none,
        bufs := k.bufs.map (fun p => (p.1, if p.2.state = .blocked then { p.2 with
          state := .pending, attempts := 0, ackOnly := true, from' := d.time.now } else p.2)) })) →
      exec (.canRecoveryComplete t c) s = .next (s.left ((match (d.ctrl c).recover with
        | some g => e.finish g { status := stOk } | none => e).canFill c))) ∧
    ((d.ctrl c).err ≠ .recovering → exec (.canRecoveryComplete t c) s = .next (s.left d)))

/-! ### The pair (13) -/

/-- R377, R381: a heartbeat is taken from either lane: its first valid copy for a frame gives the partner's state, the second only
counts for its lane; a message whose CRC or format does not stand is not taken, and one with a bad CRC counts as a lane error.
R103: FLOW_STATE, taken once a frame, says which of the partner's contexts are up. R386: RELEASE, taken once a frame, is noted
with its cause, and ends the suspension of a return that followed the partner's own release. Before unit ready the lanes carry
no message (Table 17.6), and none is taken. R381, R385, Table 13.3: the first valid heartbeat of a frame: the partner is present
with what it shows, a LEASE beat ends the wait and a release given to it, a frame number other than this unit's, whether the
Hallmarks are equal and a shared unit identity are noted. What of this the spec leaves open is the model's choice:
notes/assumptions/61.md. -/
def Obligations.LaneMessagesAreTakenOnce : Prop :=
  (∀ (s : State) (t l : Nat) (bs : List Byte) (d : Dev), d = s.dev.reach t → d.up = true → l < 2 → bs.length ≤ 4096 →
    (d.life.ready = false → ∀ i ∈ [Instr.heartbeatReceived t l bs, .releaseReceived t l bs, .mirrorSegmentReceived t l bs,
      .commitReceived t l bs, .commitResultReceived t l bs, .configImageReceived t l bs, .flowStateReceived t l bs],
      exec i s = .next (s.left d)) ∧
    (d.life.ready = true →
    (beatOf bs = none → exec (.heartbeatReceived t l bs) s = .next (s.left (d.laneError bs))) ∧
    (∀ b, beatOf bs = some b → (d.laneGood l).clasp.lastBeatFrame = some b.frame →
      exec (.heartbeatReceived t l bs) s = .next (s.left (d.laneGood l))) ∧
    (laneOf bs = none →
      exec (.releaseReceived t l bs) s = .next (s.left (d.laneError bs)) ∧ exec (.mirrorSegmentReceived t l bs) s = .next (s.left (d.laneError bs)) ∧
      exec (.commitReceived t l bs) s = .next (s.left (d.laneError bs)) ∧ exec (.commitResultReceived t l bs) s = .next (s.left (d.laneError bs)) ∧
      exec (.configImageReceived t l bs) s = .next (s.left (d.laneError bs)) ∧ exec (.flowStateReceived t l bs) s = .next (s.left (d.laneError bs))) ∧
    (∀ f g p n p' e, laneOf bs = some (2, f, g, p, n, p') → (d.takeOnce 2 f).1 = true → e = (d.takeOnce 2 f).2 →
      exec (.releaseReceived t l bs) s = .next (s.left { e with
        clasp := { e.clasp with
          releaseSeen := true, releaseCause := Bits.byteAt p' 0,
          returnSuspended := e.clasp.returnSuspended && !e.clasp.suspSeen, suspSeen := false } })) ∧
    (∀ f g p n p', laneOf bs = some (2, f, g, p, n, p') → (d.takeOnce 2 f).1 = false →
      exec (.releaseReceived t l bs) s = .next (s.left d)) ∧
    (∀ f g p n p' e, laneOf bs = some (7, f, g, p, n, p') → (d.takeOnce 7 f).1 = true → e = (d.takeOnce 7 f).2 →
      exec (.flowStateReceived t l bs) s = .next (s.left { e with
        flows := { e.flows with partnerUp := BitVec.ofNat 256 (Bits.fromLe (p'.take 32)), partnerAge := 0 } })) ∧
    (∀ f g p n p', laneOf bs = some (7, f, g, p, n, p') → (d.takeOnce 7 f).1 = false →
      exec (.flowStateReceived t l bs) s = .next (s.left d)))) ∧
  (∀ (s : State) (t l : Nat) (bs : List Byte) (d a : Dev) (b : Beat), d = s.dev.reach t → d.up = true → d.life.ready = true → l < 2 → bs.length ≤ 4096 →
    beatOf bs = some b → a = d.laneGood l → a.clasp.lastBeatFrame ≠ some b.frame →
    ∃ e : Dev, exec (.heartbeatReceived t l bs) s = .next (s.left e) ∧ e.clasp.partner = some b ∧ e.clasp.beatAt = a.time.now ∧
      e.clasp.lastBeatFrame = some b.frame ∧ e.clasp.partnerHere = true ∧ e.clasp.absent = false ∧
      e.clasp.frameDiffers = (b.frame != a.frame.number) ∧ e.clasp.markSame = (b.hallmark == a.cfg.hallmark) ∧
      e.clasp.clash = (b.unit.getLsbD 0 == a.unitByte.getLsbD 0) ∧
      e.clasp.role = a.clasp.role ∧ e.clasp.lease = a.clasp.lease ∧
      (b.hflags.getLsbD 0 = true → e.clasp.leaseBeat = true ∧ e.clasp.leaseBeatAt = a.time.now ∧ e.clasp.waiting = false ∧
        e.clasp.released = false ∧ e.clasp.takeBack = none))

/-- R388, R389, R392: a mirror segment or part of an image that completes nothing is only kept; the unit in control takes neither;
the mirror that becomes whole, all its nine segments of this unit's own frame under the END CRC, closes, and is noted as
matching where its head carries this unit's Hallmark; an image whose third body has come is ready to be applied. What of this
the spec leaves open is the model's choice: notes/assumptions/62.md and notes/assumptions/63.md. -/
def Obligations.MirrorAndImageAreBuiltFromParts : Prop :=
  ∀ (s : State) (t l : Nat) (bs p' : List Byte) (f g p n : Nat) (d : Dev), d = s.dev.reach t → d.up = true → d.life.ready = true → l < 2 → bs.length ≤ 4096 →
    (d.clasp.role.inControl = true →
      (laneOf bs = some (3, f, g, p, n, p') → exec (.mirrorSegmentReceived t l bs) s = .next (s.left d)) ∧
      (laneOf bs = some (6, f, g, p, n, p') → exec (.configImageReceived t l bs) s = .next (s.left d))) ∧
    (∀ x, laneOf bs = some (3, f, g, p, n, p') → d.clasp.role.inControl = false → d.clasp.mirrorOpen = true → g ≤ 8 →
      (∀ b ∈ d.clasp.bodies, b.typ = 3 → b.frame = f) → x = takePart 3 f g p n p' d.clasp.bodies →
      (x.2 = none → exec (.mirrorSegmentReceived t l bs) s = .next (s.left { d with clasp := { d.clasp with bodies := x.1 } })) ∧
      (∀ b e, x.2 = some b → e = { d with clasp := { d.clasp with bodies := x.1, segs := d.clasp.segs ++ [(g, b)] } } →
        (e.mirrorWhole = false → exec (.mirrorSegmentReceived t l bs) s = .next (s.left e)) ∧
        (e.mirrorWhole = true → exec (.mirrorSegmentReceived t l bs) s = .next (s.left { e with
          clasp := { e.clasp with
            mirror := some e.clasp.segs, mirrorDone := true, mirrorOpen := false,
            mirrorMatch := Bits.at' (e.seg 0) 4 8 == e.cfg.hallmark.toNat } })))) ∧
    (∀ x, laneOf bs = some (6, f, g, p, n, p') → d.clasp.role.inControl = false → g ≤ 2 →
      (∀ b ∈ d.clasp.bodies, b.typ = 6 → b.frame = f) → x = takePart 6 f g p n p' d.clasp.bodies →
      (x.2 = none → exec (.configImageReceived t l bs) s = .next (s.left { d with clasp := { d.clasp with bodies := x.1 } })) ∧
      (∀ b, x.2 = some b → (Bits.insert g b d.clasp.image).length ≠ 3 →
        exec (.configImageReceived t l bs) s = .next (s.left { d with
          clasp := { d.clasp with bodies := x.1, image := Bits.insert g b d.clasp.image } })) ∧
      (∀ b, x.2 = some b → (Bits.insert g b d.clasp.image).length = 3 →
        ∃ e : Dev, exec (.configImageReceived t l bs) s = .next (s.left e) ∧ e.clasp.resync = 1 ∧
          e.clasp.image = Bits.insert g b d.clasp.image ∧ e.cfg = d.cfg ∧ e.flows = d.flows))

/-- R71: a COMMIT taken once by a unit not in control is validated against the staged copy it holds, and its answer goes back with
the Hallmark the copy would give; one that validates is noted for its frame. A COMMIT_RESULT for the next frame fills the
partner's member: OK only with the same Hallmark. -/
def Obligations.PartnersValidateCommits : Prop :=
  ∀ (s : State) (t l : Nat) (bs p' : List Byte) (f g p n : Nat) (d e : Dev), d = s.dev.reach t → d.up = true → d.life.ready = true → l < 2 → bs.length ≤ 4096 →
    (laneOf bs = some (4, f, g, p, n, p') → (d.takeOnce 4 f).1 = true → e = (d.takeOnce 4 f).2 → e.clasp.role.inControl = false →
      (∀ w, e.validate e.cfg.mirrored none (BitVec.ofNat 64 (Bits.at' p' 4 8)) = .good w →
        exec (.commitReceived t l bs) s = .next (s.left (Dev.emit (.lane (laneMessage 5 e.frame.number 0 0 1
          (Bits.le 4 (Bits.at' p' 0 4) ++ Bits.le 8 (hallmarkOf (e.view e.cfg.mirrored)).toNat ++ Bits.le 2 stOk.toNat ++ Bits.le 2 0)))
          { e with cfg := { e.cfg with partnerCommit := some (Bits.at' p' 0 4) } }))) ∧
      (∀ st k w y, e.validate e.cfg.mirrored none (BitVec.ofNat 64 (Bits.at' p' 4 8)) = .bad st k w → y = e.commitFailed (Bits.at' p' 0 4) →
        exec (.commitReceived t l bs) s = .next (s.left (y.emit (.lane (laneMessage 5 y.frame.number 0 0 1
          (Bits.le 4 (Bits.at' p' 0 4) ++ Bits.le 8 (hallmarkOf (e.view e.cfg.mirrored)).toNat ++ Bits.le 2 st.toNat ++ Bits.le 2 k))))))) ∧
    (∀ c st, laneOf bs = some (5, f, g, p, n, p') → (d.takeOnce 5 f).1 = true → e = (d.takeOnce 5 f).2 → e.cfg.commit = some c →
      c.validated = true → c.paired = true → c.partner = none → Bits.at' p' 0 4 = e.nextNo →
      st = BitVec.ofNat 16 (Bits.at' p' 12 2) →
      exec (.commitResultReceived t l bs) s = .next (s.left { e with
        cfg := { e.cfg with
          commit := some { c with partner := some (if st = stOk ∧ Bits.at' p' 4 8 ≠ c.newMark.toNat then stRange else st) } } })) ∧
    (laneOf bs = some (5, f, g, p, n, p') → (d.takeOnce 5 f).1 = false → exec (.commitResultReceived t l bs) s = .next (s.left d))

/-- R384: after an expiry fence, the Clasp hardware waits for the supervisor to acknowledge; an acknowledgement makes the unit send
RELEASE with cause 1 (the lane message of TYPE 2 the model sends); without one for 20 ms of raw counter time the Clasp hardware
resets the unit. R383: a lease that runs out fences with cause 1. -/
def Obligations.ExpiryFencesAndWaitsForTheSupervisor : Prop :=
  ∀ (s : State) (t : Nat) (d : Dev), d = s.dev.reach t → d.up = true →
    (∀ w, d.clasp.lease = true → d.clasp.leaseAt ≤ d.time.now → w = d.fenceWith 1 →
      w.1.clasp.lease = false ∧ w.1.clasp.ackSince = some d.time.now ∧
      exec (.leaseExpiry t) s = .next (s.left (w.2.foldl (fun x e => x.raiseI e.1 e.2.1 e.2.2.1 e.2.2.2) w.1))) ∧
    (d.clasp.lease = true → d.time.now < d.clasp.leaseAt → exec (.leaseExpiry t) s = .next (s.left d)) ∧
    (∀ z, d.clasp.ackSince = some z → exec (.fenceAck t) s = .next (s.left (Dev.raise 0x0D03 0 (Bits.le 1 1) (Dev.sendRelease { d with
      clasp := { d.clasp with ackSince := none, released := true, releaseUntil := some (d.time.now + 40000000) } })))) ∧
    (∀ z, d.clasp.ackSince = some z → 20000000 ≤ d.time.now - z → exec (.fenceAckTimeout t) s = .next (s.left (d.restart 3))) ∧
    (d.clasp.ackSince = none → exec (.fenceAck t) s = .next (s.left d) ∧ exec (.fenceAckTimeout t) s = .next (s.left d))

/-- R376, R387, R401: OWN_IN reads asserted after its third edge within the square wave's bounds, and deasserted when none comes; a
holder of the lease that reads it asserted for 1 ms raises 0D0Eh, and fences with cause 6 where it is the one that must. R401:
OWN_IN asserted without a heartbeat for 1 s, or, at a unit not in control, LEASE heard without OWN_IN for 100 ms, raises 0D0Dh
once. What of this the spec leaves open is the model's choice: notes/assumptions/64.md. R381, R385, R393, R394, R397, R392: the
timers of the pair. No heartbeat for 80 ms loses the partner with 0D09h; three bad frames bring a lane down with 0D07h; the
claim-wait ends in a claim that is due or not; an orphan takes SOLO at the next tick; the hold-off asks for the return; an image
that failed is asked for again after 10 s. -/
def Obligations.OwnershipAndPairTimersAct : Prop :=
  (∀ (s : State) (t : Nat) (d : Dev), d = s.dev.reach t → d.up = true →
    (∀ n, n = (if d.clasp.ownEdges ≠ 0 ∧ 300000 < d.time.now - d.clasp.ownEdgeAt then 1 else d.clasp.ownEdges + 1) →
      exec (.ownInEdge t) s = .next (s.left { d with
        clasp := { d.clasp with
          ownEdges := n, ownEdgeAt := d.time.now, ownIn := d.clasp.ownIn || decide (3 ≤ n),
          ownSince := if d.clasp.ownIn = false ∧ 3 ≤ n then d.time.now else d.clasp.ownSince } })) ∧
    (300000 ≤ d.time.now - d.clasp.ownEdgeAt → exec (.ownInTimeout t) s = .next (s.left { d with
      clasp := { d.clasp with
        ownEdges := 0, ownIn := false, twoOwners := false, ownSince := if d.clasp.ownIn then d.time.now else d.clasp.ownSince } })) ∧
    (∀ x, d.clasp.lease = true → d.clasp.ownIn = true → d.clasp.twoOwners = false → 1000000 ≤ d.time.now - d.clasp.ownSince →
      x = Dev.raise 0x0D0E 3 (Bits.le 1 (if d.fencesAsSecond then d.unitId else 1 - d.unitId)) { d with
        clasp := { d.clasp with secondSeen := true, twoOwners := true } } →
      exec (.secondOwner t) s = .next (s.left (if d.fencesAsSecond then x.fence 6 else x))) ∧
    (∀ k, 1 ≤ k → k < 3 → (k = 1 → d.clasp.ownIn = true ∧ 1000000000 ≤ d.time.now - d.clasp.beatAt) →
      (k = 2 → d.clasp.role.inControl = false ∧ d.beatFlag 0 = true ∧ d.clasp.ownIn = false ∧ 100000000 ≤ d.time.now - d.clasp.ownSince) →
      d.life.ready = true → d.clasp.mismatch.getLsbD (k - 1) = false →
      exec (.ownershipMismatch t k) s = .next (s.left (Dev.raise 0x0D0D 3 (Bits.le 1 k) { d with
        clasp := { d.clasp with mismatch := d.clasp.mismatch ||| BitVec.ofNat 2 k } })))) ∧
  (∀ (s : State) (t : Nat) (d : Dev), d = s.dev.reach t → d.up = true →
    (d.life.ready = true → d.clasp.absent = false → 80000000 ≤ d.time.now - d.clasp.beatAt →
      exec (.partnerLost t) s = .next (s.left (Dev.raise 0x0D09 (if d.parB 0x28 4 then 1 else 0) [] { d with
        clasp := { d.clasp with partnerHere := false, absent := true, lastBeatFrame := none } }))) ∧
    (∀ l x, l < 2 → x = d.clasp.lanes.getD l {} → x.up = true → 3 ≤ x.bad →
      exec (.laneDown t l) s = .next (s.left (Dev.raiseI 0x0D07 1 l (Bits.le 1 l) { d with
        clasp := { d.clasp with lanes := Bits.setAt d.clasp.lanes l { x with up := false, good := 0 } } }))) ∧
    (∀ z, d.clasp.claimWaitAt = some z → d.clasp.waiting = true → z ≤ d.time.now →
      exec (.claimWaitExpiry t) s = .next (s.left { d with
        clasp := { d.clasp with
          waiting := false, claimWaitAt := none,
          claimDue := !d.clasp.ownIn && !d.beatFlag 0 && !d.criticalStands && d.life.state.mayControl && !d.life.stuck } })) ∧
    (d.clasp.role.inControl = false → d.orphanTime = true → d.clasp.waiting = false → d.clasp.ownIn = false →
      d.clasp.causes.getLsbD 8 = false → d.clasp.causes.getLsbD 2 = false → d.criticalStands = false → d.life.ready = true →
      exec (.orphanSolo t) s = .next (s.left { d with clasp := { d.clasp with orphanDue := true } })) ∧
    (∀ z, d.clasp.holdoffFrom = some z → d.preferred = true → d.parB 0x28 5 = true → d.clasp.role = .standby → d.clasp.synced = true →
      d.clasp.returnSuspended = false → d.holdoffNs ≤ d.time.now - z →
      exec (.returnHoldoffExpiry t) s = .next (s.left { d with clasp := { d.clasp with returnReq := true } })) ∧
    (10000000000 ≤ d.time.now - d.clasp.resyncAt → d.clasp.role.inControl = false → d.clasp.resync = 3 →
      exec (.resyncRetry t) s = .next (s.left { d with clasp := { d.clasp with resync := 1 } })))

/-! ### The safety island (14) -/

/-- R408, R424: an island tick first follows the island's own state: a restart that is due starts it again, and at tick 60 of
STARTING it runs where its Bezel is valid, and is SAFE with cause 4 where it is not. Then the inputs, outputs, tests and points
of the tick follow, the tick count rises by one, and nothing of control, of the pair or of configuration changes. What of this
the spec leaves open is the model's choice: notes/assumptions/71.md. -/
def Obligations.IslandTickCountsAndStaysItsOwn : Prop :=
  ∀ (s : State) (t : Nat) (m : IslandIn) (d : Dev), d = s.dev.reach t → d.runs = true →
    (∃ e : Dev, exec (.islandTick t m) s = .next (s.left e) ∧ e.island.tick = d.islandStage.island.tick + 1 ∧
      e.island.state = d.islandStage.island.state ∧ e.island.bezel = d.island.bezel ∧ e.cfg = d.cfg ∧ e.solver = d.solver ∧
      e.engine = d.engine ∧ e.can = d.can ∧ e.net = d.net ∧ e.clasp = d.clasp ∧ e.life = d.life) ∧
    (d.island.state = .starting → 60 ≤ d.island.tick → d.island.bezelValid = true →
      d.islandStage = { d with island := { d.island with state := .run } }) ∧
    (d.island.state = .starting → 60 ≤ d.island.tick → d.island.bezelValid = false →
      d.islandStage = (d.raise 0x0E09 3 (Bits.le 4 d.island.bezel.toNat)).islandSafe 4 false) ∧
    (d.island.state = .starting → d.island.tick < 60 → d.islandStage = d) ∧
    (d.island.state = .safe → d.island.restartDue = true → d.islandStage = d.islandStarting)

/-- R413, R414, R417: the input timers of the island. An input in DEMAND whose contacts still differ after t_disc is in DISCREPANCY
with 0E03h, naming the contact that lags; a line fault whose test has passed for 1 s may clear; a reset pressed for more than 2
s raises 0E0Ch once. R418 to R421: the output faults of the island. Over-current of an output that is on, and a read-back that
has failed for four ticks, put it in FAULT, off, with its cause; a master disconnect is tested when due with its outputs off,
and one that fails keeps its group off with 0E07h. An output that is off suffers no over-current. -/
def Obligations.SafetyInputsAndOutputsAct : Prop :=
  (∀ (s : State) (t i : Nat) (d : Dev), d = s.dev.reach t → d.runs = true → i < 16 →
    (∀ j, (d.safeIn i).judge = some j → (d.safeIn i).state = .demand → j + d.discTicks ≤ d.island.tick →
      exec (.discrepancyTimeout t i) s = .next (s.left (((d.modIn i (fun y => { y with
        state := .discrepancy, cause := 5, judge := none, cycled := false })).noteFail i 5).raiseI 0x0E03 2 i
          (Bits.le 1 i ++ Bits.le 1 (if (d.safeIn i).ledB then 0 else 1))))) ∧
    (∀ j, (d.safeIn i).judge = some j → d.island.tick < j + d.discTicks → exec (.discrepancyTimeout t i) s = .next (s.left d)) ∧
    (∀ z, (d.safeIn i).passSince = some z → (d.safeIn i).state = .lineFault → z + 4000 ≤ d.island.tick →
      exec (.lineFaultClear t i) s = .next (s.left (d.modIn i (fun y => { y with lineOk := true })))) ∧
    (∀ p, d.island.pressAt = some p → 8000 < d.island.tick - p → d.island.pressHeld = false →
      exec (.resetInputHeld t) s = .next (s.left (Dev.raise 0x0E0C 1 (Bits.le 4 ((d.island.tick - p) / 4)) { d with
        island := { d.island with pressHeld := true } })))) ∧
  (∀ (s : State) (t n : Nat) (d : Dev), d = s.dev.reach t → d.runs = true →
    (n < 16 → (d.safeOut n).state = .on → exec (.outputOvercurrent t n) s = .next (s.left (d.outputFault n 8))) ∧
    (n < 16 → (d.safeOut n).state ≠ .on → exec (.outputOvercurrent t n) s = .next (s.left d)) ∧
    (n < 16 → 4 ≤ (d.safeOut n).highRun → (d.safeOut n).state ≠ .on → (d.safeOut n).state ≠ .fault →
      exec (.outputReadbackFail t n true) s = .next (s.left (d.outputFault n 6))) ∧
    (n < 16 → 4 ≤ (d.safeOut n).lowRun → (d.safeOut n).state = .on →
      exec (.outputReadbackFail t n false) s = .next (s.left (d.outputFault n 7))) ∧
    (∀ bit : BitVec 2, n < 2 → bit = BitVec.ofNat 2 (2 ^ n) → d.island.state ≠ .safe →
      (d.island.mdTested.getD n none = none ∨
        ∃ z, d.island.mdTested.getD n none = some z ∧ 40000 ≤ d.island.tick - z ∧ 40 ≤ d.island.groupOff.getD n 0) →
      (∀ k, k < 8 → (d.safeOut (8 * n + k)).state ≠ .on) →
      exec (.masterDisconnectTest t n true) s = .next (s.left { d with
        island := { d.island with
          mdTested := Bits.setAt d.island.mdTested n (some d.island.tick), mdFailed := d.island.mdFailed &&& ~~~bit } }) ∧
      exec (.masterDisconnectTest t n false) s = .next (s.left (Dev.raiseI 0x0E07 3 n (Bits.le 1 n) { d with
        island := { d.island with
          mdTested := Bits.setAt d.island.mdTested n (some d.island.tick), mdFailed := d.island.mdFailed ||| bit } }))))

/-- R408, R425: a watchdog, memory or clock fault of the island makes it SAFE, every output off and its permit withdrawn, to restart
once in 60 s; two Bezel readings that agree on a new word raise 0E08h with it once, and neither changes the latched word. What
of this the spec leaves open is the model's choice: notes/assumptions/72.md. -/
def Obligations.IslandFaultsAndBezelReadings : Prop :=
  ∀ (s : State) (t : Nat) (d : Dev), d = s.dev.reach t → d.runs = true →
    (∀ c again, 1 ≤ c → c < 4 → d.island.state ≠ .safe →
      (again = true ↔ ∃ z, d.island.safeAt = some z ∧ d.time.now - z < 60000000000) →
      exec (.islandWatchdogExpiry t c) s = .next (s.left (Dev.raise 0x0E0A 3 (Bits.le 1 c ++ Bits.le 1 (Bits.b2n !again)) { d with
        island := { d.island with
          safeAt := some d.time.now, state := .safe, restartDue := !again,
          outputs := d.island.outputs.map (fun o => { o.toOff d.island.tick with permit := false }) } }))) ∧
    (∀ c, 1 ≤ c → c < 4 → d.island.state = .safe → exec (.islandWatchdogExpiry t c) s = .next (s.left d)) ∧
    (∀ w, d.island.bezelLive = w → w ≠ d.island.bezel → some w ≠ d.island.reported →
      exec (.bezelRead t w) s = .next (s.left (Dev.raise 0x0E08 3 (Bits.le 4 d.island.bezel.toNat ++ Bits.le 4 w.toNat) { d with
        island := { d.island with bezelPrev := w, bezelLive := w, reported := some w, sealChanged := true } }))) ∧
    (∀ w, (d.island.bezelLive ≠ w ∨ w = d.island.bezel ∨ some w = d.island.reported) →
      exec (.bezelRead t w) s = .next (s.left { d with
        island := { d.island with bezelPrev := d.island.bezelLive, bezelLive := w } }))

/-! ### Temperature, self-test, faults and Locket (15, 16) -/

/-- R436, R437, R442: a diode conversion ends. A plausible reading becomes the diode's and every site is judged by it; where a hot
site waited for it, that site decides the shutdown where it had not failed and its hot reading agrees with the diode's, and
fails where it does not; else a reading of 125 °C or above decides it. Any other reading fails the diode with 0F07h. The next
conversion that a hot site waits for then runs; a conversion that ends while a self-test runs stands in its record. With no
conversion in progress nothing ends. What of this the spec leaves open is the model's choice: notes/assumptions/46.md and
notes/assumptions/81.md. R443, R444: the module is held in reset with cause 4 when 5 ms have passed since a shutdown was
decided; in thermal-off each reading at or below 100 °C counts, any other starts the count again, and at 30 the module starts
with cause 4 where the restart is permitted and fewer than three shutdowns were decided in 60 minutes. -/
def Obligations.DiodeAndShutdownAct : Prop :=
  (∀ (s : State) (t : Nat) (d : Dev), d = s.dev.reach t → d.up = true →
    (d.health.diodeUse = .none → ∀ x, exec (.diodeConversionComplete t x) s = .next (s.left d)) ∧
    (∀ (x : Option Int) (nxt : DiodeUse) (w : Dev → Dev), d.health.diodeUse ≠ .none →
      nxt = (match d.health.arbNext with | some (k, r) => if (d.site k).failed.isNone then .arbiter k r else .none | none => .none) →
      w = (fun g => match g.health.test with
        | some y => if y.running && !y.done then { g with health := { g.health with
            tests := Bits.modAt g.health.tests y.domain (fun r => { r with
              diode := match x with | some z => BitVec.ofInt 16 z | none => 0x8000 }) } } else g
        | none => g) →
      ((∀ z, x = some z → z < -800 ∨ 2400 < z) →
        exec (.diodeConversionComplete t x) s = .next (s.left (w (Dev.raise 0x0F07 3 (temp16 x) { d with
          health := { d.health with
            diodeUse := nxt, arbNext := none, recheckAt := d.time.now, diodeFailed := true, diode := x, diodeAt := d.time.now } })))) ∧
      (∀ (z : Int) (e g : Dev), x = some z → -800 ≤ z → z ≤ 2400 → d.health.diodeFailed = false →
        e = { d with health := { d.health with
          diodeUse := nxt, arbNext := none, recheckAt := d.time.now, diode := some z, diodeAt := d.time.now, diodeFailed := false } } →
        g = (Bits.upTo 24).foldl (fun x k => x.checkSite z k) e →
        exec (.diodeConversionComplete t x) s = .next (s.left (w (match d.health.diodeUse with
          | .arbiter k r =>
            if (d.site k).failed.isNone && decide (Bits.absI (r - (z + d.parI 0x30 (0x12 + 4 * k))) ≤ 128) then g.shutdown k (some r)
            else if (d.site k).failed.isNone then (if 2000 ≤ z then (g.failSite k 2).shutdown 0xFF none else g.failSite k 2)
            else if 2000 ≤ z then g.shutdown 0xFF none else g
          | _ => if 2000 ≤ z then g.shutdown 0xFF none else g)))))) ∧
  (∀ (s : State) (t : Nat) (d : Dev), d = s.dev.reach t →
    (∀ z, d.runs = true → d.health.decided = some z → 5000000 ≤ d.time.now - z →
      exec (.thermalReset t) s = .next (s.left ((d.holdReset 4).modLife (fun l => { l with
        thermalOff := true, restartOk := d.health.restartOk, offSince := d.time.now, coolCount := 0 })))) ∧
    (d.runs = true → d.health.decided = none → exec (.thermalReset t) s = .next (s.left d)) ∧
    (d.life.powered = true → d.life.thermalOff = true →
      (∀ x : Int, x ≤ 1600 → ¬(30 ≤ d.life.coolCount + 1 ∧ d.life.restartOk = true ∧ d.shutdowns60 < 3) →
        exec (.thermalOffDiodeRead t (some x)) s = .next (s.left (d.modLife (fun l => { l with coolCount := d.life.coolCount + 1 })))) ∧
      (∀ x : Int, x ≤ 1600 → 30 ≤ d.life.coolCount + 1 → d.life.restartOk = true → d.shutdowns60 < 3 →
        exec (.thermalOffDiodeRead t (some x)) s = .next (s.left
          ((d.modLife (fun l => { l with coolCount := d.life.coolCount + 1 })).startUp 4 none none))) ∧
      (∀ x : Int, 1600 < x → exec (.thermalOffDiodeRead t (some x)) s = .next (s.left (d.modLife (fun l => { l with coolCount := 0 }))))) ∧
    (d.life.thermalOff = false → ∀ x, exec (.thermalOffDiodeRead t x) s = .next (s.left d)))

/-- R436, R440, R450, R454: four timers of the health unit. A diode check starts each RECHECK_PERIOD while 1 to 12 sites are failed
and each second while more are; the alert clears when r_max has been at or below 1.0 °C/s for 10 s; AUTO_TEST_PERIOD makes a
test due in SERVICE; a fault with no stated end leaves the table after FAULT_HOLD. -/
def Obligations.HealthTimersAct : Prop :=
  ∀ (s : State) (t : Nat) (d : Dev), d = s.dev.reach t → d.up = true →
    (∀ period, period = (if 12 < d.failedSites.length then 1000000000 else 1000000000 * d.parN 0x30 2) →
      exec (.diodeRecheck t) s = .next (s.left (
        if 0 < d.failedSites.length ∧ period ≤ d.time.now - d.health.recheckAt ∧ d.health.diodeUse = .none
        then { d with health := { d.health with diodeUse := .check } } else d))) ∧
    (∀ z, d.health.calmSince = some z → d.health.alert = true → 10000000000 ≤ d.time.now - z →
      exec (.rateAlertClear t) s = .next (s.left (Dev.raise 0x0F02 0 (Bits.le 4 ((d.time.now - d.health.alertAt) / 1000000)) { d with
        health := { d.health with alert := false } }))) ∧
    (d.health.calmSince = none ∨ d.health.alert = false ∨ (∃ z, d.health.calmSince = some z ∧ d.time.now - z < 10000000000) →
      exec (.rateAlertClear t) s = .next (s.left d)) ∧
    exec (.autoSelftestDue t) s = .next (s.left (
      if d.life.state = .service ∧ d.parN 0x30 4 ≠ 0 ∧ 60000000000 * d.parN 0x30 4 ≤ d.time.now - d.health.autoFrom
      then { d with health := { d.health with autoDue := true } } else d)) ∧
    (∀ code source, (Instr.faultHoldExpiry t code source).wf = true → exec (.faultHoldExpiry t code source) s = .next (s.left { d with
      faults := { d.faults with
        active := d.faults.active.filter (fun x => !(x.code == code && x.source == source && !(hasStatedEnd code) &&
          decide (1000000000 * d.parN 0x30 3 ≤ d.time.now - x.last))),
        lostSev := d.faults.lostSev.filter (fun x => decide (d.time.now < x.2)) } }))

/-- R447, R448: the scan and the restore of a running test end. The domain passes with 0F0Ah where its signature and its restore
agree, and leaves the failed domains; else it fails with 0F0Bh and its first bad chain (FFFEh: the restore), and joins them with
its record. The signature the factory programmed is a free constant (notes/assumptions/17.md). -/
def Obligations.SelfTestsPassOrFail : Prop :=
  ∀ (s : State) (t : Nat) (x : TestRun) (r : ScanResult) (d : Dev), d = s.dev.reach t → d.up = true →
    d.health.test = some x → x.running = true → x.done = false → (Instr.selftestComplete t r).wf = true →
    (r.restoreOk = true → r.sigGot = Config.signature x.domain →
      exec (.selftestComplete t r) s = .next (s.left (Dev.raiseI 0x0F0A 0 x.domain (Bits.le 1 x.domain ++ Bits.le 4 r.micros) { d with
        health := { d.health with
          test := some { x with done := true },
          tests := Bits.modAt d.health.tests x.domain (fun y => { y with
            result := 1, duration := r.micros, sigGot := r.sigGot, failChain := 0xFFFF, passes := Bits.sat 0xFFFF (y.passes + 1),
            fails := Bits.sat 0xFFFF y.fails }) },
        nvm := { d.nvm with failed := Bits.erase x.domain d.nvm.failed } }))) ∧
    (∀ (chain : Half) (l : List TestRec), (r.restoreOk = false ∧ chain = 0xFFFE ∨
        r.restoreOk = true ∧ r.sigGot ≠ Config.signature x.domain ∧ chain = r.failChain) →
      l = Bits.modAt d.health.tests x.domain (fun y => { y with
        result := 2, duration := r.micros, sigGot := r.sigGot, failChain := chain, passes := Bits.sat 0xFFFF y.passes,
        fails := Bits.sat 0xFFFF (y.fails + 1) }) →
      exec (.selftestComplete t r) s = .next (s.left (Dev.raiseI 0x0F0B 4 x.domain
        (Bits.le 1 x.domain ++ Bits.le 2 chain.toNat ++ Bits.le 4 r.sigGot.toNat) { d with
          health := { d.health with test := some { x with done := true }, tests := l },
          nvm := { d.nvm with failed := Bits.insert x.domain (l.getD x.domain {}) d.nvm.failed } })))

/-- R453, R455: the fault manager handles the queued entry of the highest severity, the oldest of those, in its steps. It leaves the
queue; it enters the active table unless its severity is 0, and the loss latch, where it counts, is raised as 0F0Eh and cleared;
the faults that its code ends leave the table; the points of the table follow. Where a step brings in an entry of higher
severity, the rest waits for the next tick, and an entry no higher than one that waits so is not handled. With an empty queue
nothing changes. What of this the spec leaves open is the model's choice: notes/assumptions/104.md. R463, R464, R468, R472:
Locket's own work. The priority lane is written to the store, the oldest first, and is empty; the loss latch enters the front
queue, where that has room, as one 1001h record and is cleared; a scrub of the whole store marks the records that have gone bad
and raises 1005h for each that was not marked yet; OP_SECONDS goes to MRAM. -/
def Obligations.FaultsAndLocketKeepTheirOrder : Prop :=
  (∀ (s : State) (t : Nat) (d : Dev), d = s.dev.reach t → d.up = true →
    (d.faults.queue = [] → exec (.faultEntryHandled t) s = .next (s.left d)) ∧
    (∀ a b x, d.faults.queue = a ++ x :: b → (∀ y ∈ a, y.sev < x.sev) → (∀ y ∈ b, y.sev ≤ x.sev) →
      (d.faults.held.any (fun h => decide (x.sev ≤ h.1.sev)) = true → exec (.faultEntryHandled t) s = .next (s.left d)) ∧
      (∀ q e f g, d.faults.held.any (fun h => decide (x.sev ≤ h.1.sev)) = false → q = d.qRead 3 1 → q.2 = [] →
        e = (if x.sev = 0 then { q.1 with faults := { q.1.faults with queue := a ++ b } }
          else Dev.enterFault x { q.1 with faults := { q.1.faults with queue := a ++ b } }) →
        f = (if e.faults.latch = 0 then e
          else Dev.raise 0x0F0E 3 (Bits.le 4 e.faults.latch) { e with faults := { e.faults with latch := 0 } }) →
        g = (if (endsOf x.code).isEmpty then f else { f with faults := { f.faults with
          active := f.faults.active.filter (fun y => !(endsFault x.code (x.source % 4096) y)) } }) →
        exec (.faultEntryHandled t) s = .next (s.left (
          if f.faults.queue.any (fun y => decide (x.sev < y.sev)) then
            { f with faults := { f.faults with held := f.faults.held ++ [(x, 2)] } }
          else if g.faults.queue.any (fun y => decide (x.sev < y.sev)) then
            { g with faults := { g.faults with held := g.faults.held ++ [(x, 3)] } }
          else g.faultPoints))))) ∧
  (∀ (s : State) (t : Nat) (d : Dev), d = s.dev.reach t → d.up = true →
    (∀ l, d.locket.lane = l → exec (.priorityLaneWrite t) s = .next (s.left (l.foldl (fun x r => x.storeWrite r) { d with
      locket := { d.locket with lane := [] } }))) ∧
    (∀ f e, d.locket.lostFirst = some f → 0 < d.locket.lostCount → d.locket.front.length < 256 →
      e = Dev.frontPush { f with
        code := 0x1001, source := 0, sev := 1, lflags := f.lflags &&& 0x07, data := Bits.le 4 d.locket.lostCount ++ [1, 0, 0, 0] } { d with
          locket := { d.locket with lostCount := 0, lostFirst := none } } →
      exec (.lostRecord t) s = .next (s.left (
        let g := (e.1.raiseQ e.2).faultTake 0x1001 0 1
        g.1.raiseQ g.2))) ∧
    (d.locket.lostFirst = none → exec (.lostRecord t) s = .next (s.left d)) ∧
    (∀ bad l, (Instr.locketScrub t bad).wf = true → l = bad ++ d.nvm.store.struck → exec (.locketScrub t bad) s = .next (s.left (
      ((d.nvm.store.records.filter (fun x => l.contains x.seq && !x.corrupt)).map Stored.seq).foldl
        (fun x n => x.raise 0x1005 3 (Bits.le 4 n)) { d with
          nvm := { d.nvm with
            store := { d.nvm.store with
              struck := d.nvm.store.struck.filter (fun x => !l.contains x),
              records := d.nvm.store.records.map (fun x => if l.contains x.seq then { x with corrupt := true } else x) } } }))) ∧
    exec (.opSecondsWrite t) s = .next (s.left { d with nvm := { d.nvm with opWritten := d.opSeconds } }))

/-! ### Power, reset and the board (17, 18) -/

/-- R494, R499, R501: power and the reset line. A feed that rises powers the module and starts it, or leaves it in reset while RST_N
is low; RST_N low for 10 µs or more holds it in reset, low for less than 2 µs does nothing, and its release starts it; a line
that stays low for 5 s is forced, and is obeyed again when high for 100 ms. What of this the spec leaves open is the model's
choice: notes/assumptions/20.md and notes/assumptions/65.md. -/
def Obligations.PowerAndResetLineStartTheModule : Prop :=
  ∀ (s : State) (t : Nat) (a b : Word) (x : Option Int) (d : Dev), d = s.dev.reach t →
    (∀ (phy : BitVec 4) (hu : Nat) (e : Dev), d.life.powered = false → (Instr.powerUp t a b phy hu x).wf = true →
      e = { d with
        island := {},
        hw := { d.hw with oscWarm := false, holdup := hu, phyFault := phy },
        life := { d.life with
          powered := true, poweredAt := d.time.now, opBase := d.nvm.opWritten, fromPower := true, inReset := true, cause := 0,
          stuck := false, thermalOff := false, coolCount := 0, rstLow := d.life.rstLow.map (fun _ => d.time.now) } } →
      (d.life.rstLow ≠ none → exec (.powerUp t a b phy hu x) s = .next (s.left e)) ∧
      (d.life.rstLow = none → exec (.powerUp t a b phy hu x) s = .next (s.left (e.startUp 0 (some (a, b)) x)))) ∧
    (d.runs = true → d.life.stuck = false → d.hw.vioOut.getLsbD 2 = false → ∀ low, 10000 ≤ low →
      exec (.rstNAssert t low) s = .next (s.left (Dev.holdReset 1 (d.modLife (fun l => { l with
        rstLow := some (d.time.now - low), rstHigh := none }))))) ∧
    (d.runs = true → d.life.stuck = false → ∀ low, low < 2000 → exec (.rstNAssert t low) s = .next (s.left d)) ∧
    (d.life.powered = true → d.life.inReset = true → d.life.thermalOff = false →
      exec (.rstNRelease t a b x) s = .next (s.left (Dev.startUp (if d.life.fromPower then 0 else 1) (some (a, b)) x
        (d.modLife (fun l => { l with rstLow := none, rstHigh := some d.time.now }))))) ∧
    (d.runs = true → exec (.rstNRelease t a b x) s = .next (s.left (d.modLife (fun l => { l with
      rstLow := none, rstHigh := some d.time.now })))) ∧
    (∀ z, d.life.powered = true → d.life.inReset = true → d.life.thermalOff = false → d.life.rstLow = some z →
      4950000000 ≤ d.time.now - z →
      exec (.resetStuck t a b x) s = .next (s.left (Dev.startUp 6 (some (a, b)) x (d.modLife (fun l => { l with stuckFrom := z }))))) ∧
    (∀ z, d.runs = true → d.life.rstHigh = some z → d.life.stuck = true → 100000000 ≤ d.time.now - z →
      exec (.resetObeyed t) s = .next (s.left (Dev.raise 0x1103 0 (Bits.le 4 ((d.time.now - d.life.stuckFrom) / 1000000))
        (d.modLife (fun l => { l with stuck := false })))))

/-- R495, R511, R498: unit ready reports each domain whose last test failed again with 0F0Bh (R448), declares the unit, opens the
claim-wait and 1101h, with 1109h past 285 ms, ends a trial well with 1106h and raises the level floor, once; a supervisor
watchdog restarts the module with cause 2; with both feeds invalid the end of the hold-up leaves it without power, and a feed
that is valid keeps it. What of this the spec leaves open is the model's choice: notes/assumptions/33.md. R514, R522, R529,
R489: the board's events. A bank out of range for 1 ms raises 1201h; with bank VIO4 out the debug port closes, with VIO3 out
RST_N reads high and the status outputs are off; its return raises 1202h with the time it was out; the oscillator's warmth and
faults and the memory's errors raise their events; a closed debug port ignores what comes. What of this the spec leaves open is
the model's choice: notes/assumptions/32.md. -/
def Obligations.ReadinessAndTheBoardsEventsAct : Prop :=
  (∀ (s : State) (t : Nat) (d : Dev), d = s.dev.reach t →
    (d.up = true → d.life.ready = false → ∀ (us : Nat) (c e g h : Dev), us = d.c / 1000 → c = d.failedAgain →
      e = Dev.raise 0x1101 0 (Bits.le 1 c.life.cause ++ Bits.le 1 c.life.running ++ Bits.le 4 us ++ Bits.le 2 c.nvm.cycles) { c with
        life := { c.life with ready := true, readyUs := us, runDue := true },
        clasp := { c.clasp with waiting := true, beatAt := c.time.now, nsFrames := 0, claimWaitAt := some (c.time.now + c.claimWait) } } →
      g = (if 285000 < us then e.raise 0x1109 1 (Bits.le 4 us) else e) →
      h = (if g.life.trialRun then
          Dev.raise 0x1106 0 (Bits.le 1 g.life.running ++ Bits.le 4 (g.img g.life.running).version) { g with
            life := { g.life with trialRun := false },
            nvm := { g.nvm with
              images := Bits.modAt g.nvm.images g.life.running (fun x => { x with state := 4 }), trial := false, trials := 0 } }
        else g) →
      exec (.unitReady t) s = .next (s.left (Dev.relays { h with
        nvm := { h.nvm with floor := if h.nvm.floor < (g.img g.life.running).level then (g.img g.life.running).level else h.nvm.floor } }))) ∧
    (d.up = true → d.life.ready = true → exec (.unitReady t) s = .next (s.left d)) ∧
    (d.runs = true → exec (.supervisorWatchdog t) s = .next (s.left ((d.holdReset 2).startUp 2 none none))) ∧
    (d.clasp.feeds = 0 → exec (.holdupExhausted t) s = .next (s.left ((d.holdReset 0).modLife (fun l => { l with
      powered := false, inReset := true })))) ∧
    (d.clasp.feeds ≠ 0 → exec (.holdupExhausted t) s = .next (s.left d))) ∧
  (∀ (s : State) (t : Nat) (d : Dev), d = s.dev.reach t → d.runs = true →
    (∀ bank mv, 1 ≤ bank → bank ≤ 4 → (Instr.vioOut t bank mv).wf = true → d.hw.vioOut.getLsbD (bank - 1) = false →
      exec (.vioOut t bank mv) s = .next (s.left (Dev.raiseI 0x1201 1 bank (Bits.le 1 bank ++ Bits.le 2 mv) { d with
        hw := { d.hw with
          vioOut := d.hw.vioOut ||| BitVec.ofNat 4 (2 ^ (bank - 1)), vioSince := Bits.setAt d.hw.vioSince (bank - 1) d.time.now, gpio := if bank = 3 then none else d.hw.gpio },
        life := { d.life with
          debug := if bank = 4 then 0 else d.life.debug, rstLow := if bank = 3 then none else d.life.rstLow,
          rstHigh := if bank = 3 ∧ d.life.rstHigh = none then some d.time.now else d.life.rstHigh } }))) ∧
    (∀ bank, 1 ≤ bank → bank ≤ 4 → d.hw.vioOut.getLsbD (bank - 1) = true →
      exec (.vioRestored t bank) s = .next (s.left (Dev.raiseI 0x1202 0 bank
        (Bits.le 1 bank ++ Bits.le 4 ((d.time.now - d.hw.vioSince.getD (bank - 1) 0) / 1000000)) { d with
          hw := { d.hw with vioOut := d.hw.vioOut &&& ~~~ BitVec.ofNat 4 (2 ^ (bank - 1)) } }))) ∧
    (∀ secs, (Instr.oscWarm t secs).wf = true → exec (.oscWarm t secs) s = .next (s.left
      (Dev.raise 0x1205 0 (Bits.le 4 secs) { d with hw := { d.hw with oscWarm := true } }))) ∧
    (∀ k ppb, (Instr.oscFault t k ppb).wf = true → exec (.oscFault t k ppb) s = .next (s.left
      (d.raise 0x1204 3 (Bits.le 1 k ++ Bits.leI 4 ppb)))) ∧
    (∀ w, exec (.dramEccError t w false) s = .next (s.left (d.raise 0x1207 0 (Bits.le 4 w.toNat))) ∧
      exec (.dramEccError t w true) s = .next (s.left (d.raise 0x1208 4 (Bits.le 4 w.toNat)))) ∧
    (∀ x, (Instr.debugPortAccess t x).wf = true → d.life.debug = 0 → exec (.debugPortAccess t x) s = .next (s.left d)) ∧
    (∀ w, d.life.debug ≠ 0 → (Instr.debugPortAccess t (.read w)).wf = true →
      exec (.debugPortAccess t (.read w)) s = .next (s.left { d with
        out := .word (Config.debugWord (w + d.free)) :: d.out, free := d.free + 1 })))

/-! ### Rules of the whole machine -/

/-- Tables 2.1 and 2.4: what the module reads from the packet of a request is that request: every field at every value, with the
header CRC and the payload CRC holding and the whole size that the header implies. -/
def Obligations.RequestPacketsReadBack : Prop :=
  ∀ (op : Byte) (r : Req) (p : Packet), r.wf = true → p = packetOf (packetBytes op r) →
    p.req r.src = r ∧ p.op = op ∧ p.version = 0xA5 ∧ p.len = r.len ∧ p.hcrc = r.hcrc op ∧ p.crcOk = true ∧ p.payloadOk = true ∧
      p.size = (packetBytes op r).length

/-- R377, R380: a lane message that the module sends is read by its partner as it was sent: type, frame, segment, part, parts and
payload, at every value of each field. -/
def Obligations.LaneMessagesReadBack : Prop :=
  ∀ (typ frame seg part parts : Nat) (payload : List Byte), typ < 256 → frame < 2 ^ 32 → seg < 256 → part < 65536 → parts < 65536 →
    payload.length < 65536 → laneOf (laneMessage typ frame seg part parts payload) = some (typ, frame, seg, part, parts, payload)

/-- R483, R484, R486: RETIRED is for good. In every state where a module whose stored copy is RETIRED runs, if it runs, in RETIRED
with no transition standing, every step keeps that so, resets and power cycles among them, and the stored copy stays RETIRED. -/
def Obligations.RetiredIsForGood : Prop :=
  ∀ s s' : State, s.dev.retiredHolds → step s = .next s' →
    s'.dev.retiredHolds ∧ (s.dev.storedLife = .retired → s'.dev.storedLife = .retired)

/-- R13, R469, R483, R494: the module at the release of the reset of its first power-up, as it leaves the factory: it runs and is
not yet ready, its stored state and its state are COMMISSION, Locket holds nothing, the raw counter and the offset are zero, it
holds no lease, no safety output is on, no command waits, and the premise of RetiredIsForGood holds. What of this the spec
leaves open is the model's choice: notes/assumptions/6.md and notes/assumptions/7.md. -/
def Obligations.ResetLeavesTheFactoryModule : Prop :=
  State.reset.pending = [] ∧ State.reset.dev.runs = true ∧ State.reset.dev.life.ready = false ∧
    State.reset.dev.storedLife = .commission ∧ State.reset.dev.life.state = .commission ∧
    State.reset.dev.nvm.store.firstHeld = 1 ∧ State.reset.dev.nvm.store.committed = 0 ∧ State.reset.dev.nvm.store.records = [] ∧
    State.reset.dev.c = 0 ∧ State.reset.dev.time.off = 0 ∧ State.reset.dev.clasp.lease = false ∧
    (∀ n, (State.reset.dev.safeOut n).state ≠ .on) ∧ State.reset.dev.retiredHolds

/-- R486: only the eleven transitions of Table 17.3 exist, and LIFECYCLE_ADVANCE to any other target, from any state, is answered
PARAM_RANGE with RARG 0 and changes nothing. -/
def Obligations.OnlyTheTransitionsOfTheTableExist : Prop :=
  (∀ a b : Life, (transition a b).isSome = true ↔ (a, b) ∈ ([
    (.factory, .commission), (.commission, .service), (.service, .maintain), (.maintain, .service), (.maintain, .commission),
    (.commission, .returned), (.maintain, .returned), (.returned, .commission), (.returned, .factory), (.maintain, .retired),
    (.returned, .retired)] : List (Life × Life))) ∧
  (∀ (s : State) (t : Nat) (r : Req) (d : Dev), d = s.dev.reach t → r.wf = true → d.admits 0xA1 r = true →
    (∀ b, lifeOf r.tgt = some b → transition d.life.state b = none) →
    Served (.lifecycleAdvance t r) s 0xA1 r { status := stRange, rarg := 0 } (d.begun 0xA1 r))

/-- R43, R484, Table 2.8: step 7 of the checks. A request that its role or life-cycle condition forbids is answered with that status
and argument and changes nothing but the channel. In RETIRED every opcode but thirteen is refused with WRONG_LIFECYCLE 5;
control requests need a unit in control, ROLE_RELEASE an ACTIVE one, and a commit a unit that is not STANDBY. What of this the
spec leaves open is the model's choice: notes/assumptions/52.md. -/
def Obligations.ForbiddenRequestsChangeNothing : Prop :=
  (∀ (i : Instr) (op : Byte) (r : Req) (s : State) (d : Dev) (st : Half) (a : Nat), d = s.dev.reach i.time →
    i.request = some (op, r) → i.wf = true → d.serving = true → d.idle = true → d.receives op r = true →
    d.packetFault op r r.len none true = none → d.gate op.toNat r = some (st, a) →
    Served i s op r { status := st, rarg := BitVec.ofNat 16 a } (d.begun op r)) ∧
  (∀ (op : Nat) (r : Req) (d : Dev),
    (d.life.state = .retired → op ∉ [0x00, 0x01, 0x02, 0x10, 0x14, 0x20, 0x48, 0x70, 0x78, 0x80, 0x88, 0x91, 0xA0] →
      d.gate op r = some (stLife, 5)) ∧
    (d.life.state ≠ .retired →
      ((op = 0x30 ∨ op = 0x31 ∨ op = 0x32) ∧ d.clasp.role.inControl = false ∨ op = 0x71 ∧ d.clasp.role ≠ .active ∨
        op = 0x12 ∧ d.clasp.role = .standby) → d.gate op r = some (stRole, 0)))

/-- R452, R464, R291: raising an event changes Locket, the fault manager, the probes that wait for it and the pointers of their
queues, and nothing else: no point, register, control state or output. Only a CRITICAL event on a unit that holds the lease does
more. -/
def Obligations.EventsChangeTheirRecordersAlone : Prop :=
  ∀ (code sev inst : Nat) (data : List Byte) (d e : Dev), e = d.raiseI code sev inst data → (sev ≠ 4 ∨ d.clasp.lease = false) →
    e = { d with
      locket := e.locket, faults := e.faults, probes := e.probes, cmd := { d.cmd with queues := e.cmd.queues } }

/-- R81, R86: the signal image reads back what was written. A write of a point is read as written, every other point reads as
before, and the image keeps its canonical form. -/
def Obligations.SignalPointsReadBack : Prop :=
  ∀ (d : Dev) (i : Nat) (p : Point), Bits.wfMap (fun _ => ({} : Point)) d.image.live = true →
    Bits.wfMap (fun _ => 0) d.image.struck = true →
    (d.setPt i p).pt i = p ∧ (∀ j, j ≠ i → (d.setPt i p).pt j = d.pt j) ∧
    Bits.wfMap (fun _ => ({} : Point)) (d.setPt i p).image.live = true

/-- R73, R104: a record with one wrong bit is read corrected; one with more reads BAD. A reader or the scrub that meets a wrong
record leaves every record, that one among them, as it reads: one bit is written back right and counted; more make the record
BAD from then on, with 0307h once, until its owner writes it. A write of the configuration store that fails raises 0206h and
leaves the store and the configuration in force as they were. Which bits turn over, and whether a write fails, is the
environment's (notes/assumptions/37.md). R34: an access to a queue whose pointer copies differ empties it, sets both pairs to
zero and the overrun bit, and 0107h follows with the queue's ID; of the command queue every request that had not started ends
TIMEOUT. That 0108h does not follow beside 0107h is the model's choice (notes/assumptions/95.md). -/
def Obligations.MemoryErrorsAreHeldBad : Prop :=
  ∀ (d e : Dev) (i : Nat), Bits.wfMap (fun _ => ({} : Point)) d.image.live = true → Bits.wfMap (fun _ => 0) d.image.struck = true →
    e = d.imageMeet i →
    (i ∉ d.image.bad → uncorrectable (d.struckAt i) = false → d.pt i = Bits.get (fun _ => ({} : Point)) d.image.live i) ∧
    (i ∈ d.image.bad ∨ uncorrectable (d.struckAt i) = true → (d.pt i).quality = 3) ∧
    (∀ j, e.pt j = d.pt j) ∧ e.struckAt i = 0 ∧
    (i ∉ d.image.bad → uncorrectable (d.struckAt i) = false →
      e.image.corrected = d.image.corrected + (if d.struckAt i = 0 then 0 else 1) ∧ e.faults = d.faults ∧ e.locket = d.locket) ∧
    (i ∉ d.image.bad → uncorrectable (d.struckAt i) = true → ∃ g : Dev, e = g.raise 0x0307 3 (Bits.le 4 i) ∧
      g.image.bad = i :: d.image.bad ∧ g.faults = d.faults ∧ g.locket = d.locket) ∧
    (i ∈ d.image.bad → e.image.bad = d.image.bad ∧ e.faults = d.faults ∧ e.locket = d.locket) ∧
    (∀ p, (d.setPt i p).image.bad.contains i = false ∧ (d.setPt i p).struckAt i = 0) ∧
    (d.hw.noStore = true → d.storeConfig = d.raise 0x0206 3 (Bits.le 4 d.frame.number) ∧ d.storeConfig.nvm = d.nvm ∧
      d.storeConfig.cfg = d.cfg) ∧
    (∀ q f, Bits.wfMap (fun _ => ({} : QCtl)) d.cmd.queues = true → (d.q q).agree = false → f = (d.qCheck q).1 →
      (d.qCheck q).2 = [(0x0107, q)] ∧ f.q q = { d.q q with rd := 0, wr := 0, rd2 := 0, wr2 := 0, overrun := true } ∧
      (∀ k, k ≠ q → f.q k = d.q k) ∧
      (q = 0 → f.cmd.tags = d.cmd.tags.map (fun p =>
        if p.started then p else { p with started := true, done := some { status := stTimeout } })) ∧
      (q = 1 → f.cmd.replyQ = []) ∧ (q = 2 → f.locket.front = []) ∧ (q = 3 → f.faults.queue = []) ∧
      (∀ c, c < 8 → q = 4 + c → (f.ctrl c).txq = []) ∧ (∀ c, c < 8 → q = 0x0C + c → (f.ctrl c).rxq = []) ∧
      (∀ l, l < 8 → q = 0x14 + l → f.net.launch.getD l [] = []) ∧ (∀ p, p < 32 → q = 0x1C + p → f.acq.fifos.getD p [] = []))

/-- R13, R498, R500: every start-up, whatever its cause, begins a new time line: the raw counter reads zero at the release of reset,
the offset is zero, and device time with it; the module is out of reset and reports its cause, and no lease, request or output
is carried over. -/
def Obligations.StartUpBeginsTheTimeLine : Prop :=
  ∀ (d e : Dev) (cause : Nat) (bezel : Option (Word × Word)) (diode : Option Int), e = d.startUp cause bezel diode →
    e.c = 0 ∧ e.time.off = 0 ∧ e.dev = 0 ∧ e.time.now = d.time.now ∧ e.life.inReset = false ∧ e.life.thermalOff = false ∧
      e.life.ready = false ∧ e.life.cause = cause ∧ e.life.powered = d.life.powered ∧ e.clasp.lease = false ∧ e.cmd.tags = [] ∧
      e.life.state = d.storedLife

/-- R60, R95, R404, R431, R451, R503: the fixed records are as long as the manual says in every state: INFO 48, STATUS 32, flow,
role, self-test and life-cycle records 32, safety 64 bytes; CRC-32C of the nine digits is E3069283h (R39). -/
def Obligations.RecordsHaveTheirLengths : Prop :=
  (∀ d : Dev, d.infoBytes.length = 48 ∧ d.statusBytes.length = 32 ∧ (∀ c, (d.flowStatusBytes c).length = 32) ∧
    d.roleRecord.length = 32 ∧ d.safetyBytes.length = 64 ∧ (∀ k, (d.selftestRecord k).length = 32) ∧ d.lifecycleBytes.length = 32) ∧
  Bits.crc32c [0x31, 0x32, 0x33, 0x34, 0x35, 0x36, 0x37, 0x38, 0x39] = 0xE3069283#32

/-- R483: a change of the life-cycle state writes one copy and leaves the newer one as it was; what start-up then reads is the new
state, and with the written copy lost it is the old one. -/
def Obligations.LifeCycleCopiesSurviveAChange : Prop :=
  ∀ (d e : Dev) (b : Life), (d.nvm.lifeA.valid = true ∨ d.nvm.lifeB.valid = true) → e = d.storeLife b →
    e.storedLife = b ∧
    (e.nvm.lifeA = d.nvm.lifeA ∨ e.nvm.lifeB = d.nvm.lifeB) ∧
    (∀ c : LifeCopy, c.valid = false →
      (e.nvm.lifeA ≠ d.nvm.lifeA → Dev.storedLife { e with nvm := { e.nvm with lifeA := c } } = d.storedLife) ∧
      (e.nvm.lifeB ≠ d.nvm.lifeB → Dev.storedLife { e with nvm := { e.nvm with lifeB := c } } = d.storedLife))
end

