-- ==== Sys2Proof/Laws/Events.lean ====
section
/-! SUPPORT. Laws/Events.lean: what taking a record can do: it changes Locket, the fault manager, the probes and the queue
pointers alone. -/

namespace Sys2Proof.Machine

open Sys2Proof

/-- e is d but for Locket, the fault manager, the probes and the queue pointers. -/
def Dev.recorded (d e : Dev) : Prop :=
  e = { d with
    locket := e.locket, faults := e.faults, probes := e.probes, cmd := { d.cmd with queues := e.cmd.queues } }

theorem recorded_refl (d : Dev) : d.recorded d := rfl

theorem recorded_trans {a b c : Dev} (h : a.recorded b) (k : b.recorded c) : a.recorded c := by
  unfold Dev.recorded at *
  rw [h] at k
  exact k

/-- What stands of d in a state that is d but for its recorders. -/
theorem recorded_keeps {d e : Dev} (h : d.recorded e) :
    e.time = d.time ∧ e.frame = d.frame ∧ e.cfg = d.cfg ∧ e.image = d.image ∧ e.clasp = d.clasp ∧ e.life = d.life ∧ e.nvm = d.nvm ∧
      e.out = d.out ∧ e.free = d.free ∧ e.cmd.tags = d.cmd.tags := by
  unfold Dev.recorded at h
  rw [h]
  exact ⟨rfl, rfl, rfl, rfl, rfl, rfl, rfl, rfl, rfl, rfl⟩

theorem setQ_recorded (id : Nat) (c : QCtl) (d : Dev) : d.recorded (d.setQ id c) := rfl

/-- The check of the front queue and of the fault queue. -/
theorem qCheck_recorded {id : Nat} (h : id = 2 ∨ id = 3) (d : Dev) : d.recorded (d.qCheck id).1 := by
  rcases h with rfl | rfl <;> unfold Dev.qCheck <;> split <;> rfl

/-- An entry of the front queue or of the fault queue. -/
theorem qPush_recorded {id : Nat} (h : id = 2 ∨ id = 3) (d : Dev) : d.recorded (d.qPush id).2.1 := by
  have k := qCheck_recorded h d
  unfold Dev.qPush
  dsimp only
  split <;> exact recorded_trans k (setQ_recorded _ _ _)

theorem frontPush_recorded (r : Rec) (d : Dev) : d.recorded (d.frontPush r).1 := by
  have k := qPush_recorded (Or.inl rfl) d
  unfold Dev.frontPush
  dsimp only
  split <;> exact recorded_trans k rfl

theorem locketTake_recorded (r : Rec) (d : Dev) : d.recorded (d.locketTake r).1 := by
  unfold Dev.locketTake
  dsimp only
  split
  · rfl
  · split
    · split
      · rfl
      · split
        · exact frontPush_recorded r d
        · rfl
    · split
      · rfl
      · exact recorded_trans (b := d.setBucket r.code _) rfl (frontPush_recorded r _)

theorem faultTake_recorded (code source sev : Nat) (d : Dev) : d.recorded (d.faultTake code source sev).1 := by
  have k := qPush_recorded (Or.inr rfl) d
  unfold Dev.faultTake
  split
  · rfl
  · split
    · rfl
    · dsimp only
      split <;> exact recorded_trans k rfl

end Sys2Proof.Machine
end

