-- ==== Sys2Proof/Laws/Maps.lean ====
section
/-! SUPPORT. Laws/Maps.lean: the sparse maps in canonical form: a read after a write, what a write leaves alone, that every
operation keeps the form, and with them the points of the signal image and the cells of a firmware image. -/

namespace Sys2Proof.Machine

open Sys2Proof

variable {α : Type} [DecidableEq α] {dflt : Nat → α}

/-- The canonical form of a map with a first entry. -/
theorem wfMap_cons {k : Nat} {v : α} {m : List (Nat × α)} :
    Bits.wfMap dflt ((k, v) :: m) = true ↔ v ≠ dflt k ∧ (∀ p ∈ m, k < p.1) ∧ Bits.wfMap dflt m = true := by
  induction m generalizing k v with
  | nil => simp [Bits.wfMap]
  | cons p m ih =>
    obtain ⟨j, w⟩ := p
    simp only [Bits.wfMap, Bool.and_eq_true, Bool.not_eq_true', decide_eq_false_iff_not, decide_eq_true_eq]
    constructor
    · rintro ⟨⟨h1, h2⟩, h3⟩
      refine ⟨h1, ?_, h3⟩
      intro p hp
      rcases List.mem_cons.1 hp with rfl | hp
      · exact h2
      · exact Nat.lt_trans h2 ((ih.1 h3).2.1 p hp)
    · rintro ⟨h1, h2, h3⟩
      exact ⟨⟨h1, h2 (j, w) (List.mem_cons_self ..)⟩, h3⟩

omit [DecidableEq α] in
/-- A key below every listed one reads as the default. -/
theorem get_below {k : Nat} {m : List (Nat × α)} (h : ∀ p ∈ m, k < p.1) : Bits.get dflt m k = dflt k := by
  cases m with
  | nil => rfl
  | cons p m =>
    obtain ⟨j, w⟩ := p
    have : k < j := h (j, w) (List.mem_cons_self ..)
    simp only [Bits.get, if_neg (Nat.ne_of_gt this), if_pos this]

omit [DecidableEq α] in
/-- A key that is inserted reads as inserted. -/
theorem get_insert_same (k : Nat) (v : α) (m : List (Nat × α)) : Bits.get dflt (Bits.insert k v m) k = v := by
  induction m with
  | nil => simp [Bits.insert, Bits.get]
  | cons p m ih =>
    obtain ⟨j, w⟩ := p
    by_cases h : k < j
    · simp [Bits.insert, h, Bits.get]
    · by_cases h2 : j = k
      · simp [Bits.insert, h2, Bits.get]
      · simp [Bits.insert, h, h2, Bits.get, ih]

omit [DecidableEq α] in
/-- An insertion leaves every other key as it read. -/
theorem get_insert_ne {k j : Nat} (h : j ≠ k) (v : α) (m : List (Nat × α)) :
    Bits.get dflt (Bits.insert k v m) j = Bits.get dflt m j := by
  induction m with
  | nil =>
    simp only [Bits.insert, Bits.get, if_neg (Ne.symm h)]
    split <;> rfl
  | cons p m ih =>
    obtain ⟨i, w⟩ := p
    by_cases h1 : k < i
    · simp only [Bits.insert, if_pos h1, Bits.get, if_neg (Ne.symm h)]
      by_cases h2 : j < k
      · rw [if_pos h2, if_neg (by omega), if_pos (by omega)]
      · rw [if_neg h2]
    · by_cases h2 : i = k
      · subst h2
        simp only [Bits.insert, if_neg h1, if_true, Bits.get, if_neg (Ne.symm h)]
      · simp only [Bits.insert, if_neg h1, if_neg h2, Bits.get, ih]

omit [DecidableEq α] in
/-- The keys of an insertion are the old ones and the new one. -/
theorem insert_keys {k : Nat} {v : α} {m : List (Nat × α)} {b : Nat} (hb : b < k) (h : ∀ p ∈ m, b < p.1) :
    ∀ p ∈ Bits.insert k v m, b < p.1 := by
  induction m with
  | nil => intro p hp; simp only [Bits.insert, List.mem_singleton] at hp; rw [hp]; exact hb
  | cons q m ih =>
    obtain ⟨j, w⟩ := q
    have hm : ∀ p ∈ m, b < p.1 := fun p hp => h p (List.mem_cons_of_mem _ hp)
    have hj := h (j, w) (List.mem_cons_self ..)
    intro p hp
    by_cases h1 : k < j
    · simp only [Bits.insert, if_pos h1, List.mem_cons] at hp
      rcases hp with rfl | rfl | hp
      · exact hb
      · exact hj
      · exact hm p hp
    · by_cases h2 : j = k
      · simp only [Bits.insert, if_neg h1, if_pos h2, List.mem_cons] at hp
        rcases hp with rfl | hp
        · exact hb
        · exact hm p hp
      · simp only [Bits.insert, if_neg h1, if_neg h2, List.mem_cons] at hp
        rcases hp with rfl | hp
        · exact hj
        · exact ih hm p hp

/-- An insertion of a value that is not the default keeps the canonical form. -/
theorem wf_insert {k : Nat} {v : α} {m : List (Nat × α)} (hv : v ≠ dflt k) (h : Bits.wfMap dflt m = true) :
    Bits.wfMap dflt (Bits.insert k v m) = true := by
  induction m with
  | nil => simpa [Bits.insert, Bits.wfMap] using hv
  | cons q m ih =>
    obtain ⟨j, w⟩ := q
    have hc := wfMap_cons.1 h
    by_cases h1 : k < j
    · simp only [Bits.insert, if_pos h1]
      refine wfMap_cons.2 ⟨hv, ?_, h⟩
      intro p hp
      rcases List.mem_cons.1 hp with rfl | hp
      · exact h1
      · exact Nat.lt_trans h1 (hc.2.1 p hp)
    · by_cases h2 : j = k
      · subst h2
        simp only [Bits.insert, if_neg h1, if_true]
        exact wfMap_cons.2 ⟨hv, hc.2.1, hc.2.2⟩
      · simp only [Bits.insert, if_neg h1, if_neg h2]
        exact wfMap_cons.2 ⟨hc.1, insert_keys (by omega) hc.2.1, ih hc.2.2⟩

omit [DecidableEq α] in
/-- The keys of an erased map are old ones. -/
theorem mem_erase {k : Nat} {m : List (Nat × α)} {p : Nat × α} (h : p ∈ Bits.erase k m) : p ∈ m := by
  induction m with
  | nil => exact h
  | cons q m ih =>
    obtain ⟨j, w⟩ := q
    simp only [Bits.erase] at h
    split at h
    · exact List.mem_cons_of_mem _ h
    · rcases List.mem_cons.1 h with rfl | h
      · exact List.mem_cons_self ..
      · exact List.mem_cons_of_mem _ (ih h)

/-- An erasure keeps the canonical form. -/
theorem wf_erase {k : Nat} {m : List (Nat × α)} (h : Bits.wfMap dflt m = true) : Bits.wfMap dflt (Bits.erase k m) = true := by
  induction m with
  | nil => rfl
  | cons q m ih =>
    obtain ⟨j, w⟩ := q
    have hc := wfMap_cons.1 h
    simp only [Bits.erase]
    split
    · exact hc.2.2
    · exact wfMap_cons.2 ⟨hc.1, fun p hp => hc.2.1 p (mem_erase hp), ih hc.2.2⟩

/-- In canonical form an erased key reads as the default, and every other as before. -/
theorem get_erase {k : Nat} {m : List (Nat × α)} (h : Bits.wfMap dflt m = true) (j : Nat) :
    Bits.get dflt (Bits.erase k m) j = if j = k then dflt k else Bits.get dflt m j := by
  induction m with
  | nil => simp only [Bits.erase, Bits.get]; split <;> simp_all
  | cons q m ih =>
    obtain ⟨i, w⟩ := q
    have hc := wfMap_cons.1 h
    by_cases h1 : i = k
    · subst h1
      simp only [Bits.erase, if_true, Bits.get]
      by_cases h2 : j = i
      · subst h2; simp only [if_true]; exact get_below hc.2.1
      · rw [if_neg h2, if_neg (Ne.symm h2)]
        by_cases h3 : j < i
        · rw [if_pos h3]; exact get_below (fun p hp => Nat.lt_trans h3 (hc.2.1 p hp))
        · rw [if_neg h3]
    · simp only [Bits.erase, if_neg h1, Bits.get, ih hc.2.2]
      by_cases h2 : j = k
      · subst h2; rw [if_neg h1]; simp
      · simp only [if_neg h2]

/-- A write keeps the canonical form. -/
theorem wf_put (m : List (Nat × α)) (k : Nat) (v : α) (h : Bits.wfMap dflt m = true) :
    Bits.wfMap dflt (Bits.put dflt m k v) = true := by
  unfold Bits.put
  split
  · exact wf_erase h
  · exact wf_insert (by assumption) h

/-- A read after a write, of the same key or of another. -/
theorem get_put (m : List (Nat × α)) (k : Nat) (v : α) (h : Bits.wfMap dflt m = true) (j : Nat) :
    Bits.get dflt (Bits.put dflt m k v) j = if j = k then v else Bits.get dflt m j := by
  unfold Bits.put
  split
  · rename_i hv; rw [get_erase h, hv]
  · by_cases h2 : j = k
    · subst h2; simp [get_insert_same]
    · rw [if_neg h2, get_insert_ne h2]

/-- A choice of entries keeps the canonical form. -/
theorem wf_filter (f : Nat × α → Bool) {m : List (Nat × α)} (h : Bits.wfMap dflt m = true) :
    Bits.wfMap dflt (m.filter f) = true := by
  induction m with
  | nil => rfl
  | cons q m ih =>
    obtain ⟨j, w⟩ := q
    have hc := wfMap_cons.1 h
    by_cases h1 : f (j, w) = true
    · rw [List.filter_cons_of_pos h1]
      exact wfMap_cons.2 ⟨hc.1, fun p hp => hc.2.1 p (List.mem_filter.1 hp).1, ih hc.2.2⟩
    · rw [List.filter_cons_of_neg h1]; exact ih hc.2.2

/-! ### The points of the signal image -/

/-- A write of a point keeps the image's canonical form. -/
theorem setPt_wf (i : Nat) (p : Point) (d : Dev) (h : Bits.wfMap (fun _ => ({} : Point)) d.image.live = true) :
    Bits.wfMap (fun _ => ({} : Point)) (d.setPt i p).image.live = true := by
  unfold Dev.setPt Dev.markPt
  dsimp only
  split
  · exact wf_put _ _ _ h
  · split <;> exact wf_put _ _ _ h

/-- The reset image is in canonical form. -/
theorem reset_image_wf : Bits.wfMap (fun _ => ({} : Point)) State.reset.dev.image.live = true := rfl

/-! ### The cells of a firmware image -/

/-- The cells of a firmware image are in canonical form: an erased cell reads FFh. -/
def FwImage.cellsWf (m : FwImage) : Bool := Bits.wfMap (fun _ => (0xFF : Byte)) m.cells

/-- Programming keeps the canonical form. -/
theorem flashWrite_wf (off : Nat) (bs : List Byte) (m : FwImage) (h : m.cellsWf = true) : (flashWrite off bs m).cellsWf = true := by
  unfold FwImage.cellsWf flashWrite at *
  generalize bs.zipIdx = l
  simp only
  generalize m.cells = c at h ⊢
  induction l generalizing c with
  | nil => exact h
  | cons x l ih => exact ih _ (wf_put _ _ _ h)

/-- An erase keeps the canonical form. -/
theorem flashErase_wf (off : Nat) (m : FwImage) (h : m.cellsWf = true) : (flashErase off m).cellsWf = true := by
  unfold FwImage.cellsWf flashErase at *
  exact wf_filter _ h

/-- The images of the reset state are in canonical form. -/
theorem reset_cells_wf : State.reset.dev.nvm.images.all FwImage.cellsWf = true := rfl

end Sys2Proof.Machine
end

