-- ==== Sys2Proof/Laws/PerInstr.lean ====
section
/-! SUPPORT. Laws/PerInstr.lean: one lemma per command: a well-formed request command carries an opcode of Table 2.8 and a
well-formed request. -/

namespace Sys2Proof.Laws.Request

/-- Where the command is a request, its opcode is one of Table 2.8, and the request is well formed where the command is. -/
def Statement (i : Instr) : Prop :=
  ∀ op r, i.request = some (op, r) → i.wf = true → Machine.opcodes.contains op.toNat = true ∧ r.wf = true

/-- A command that is no request has nothing to state. -/
theorem of_other {i : Instr} (h : i.request = none) : Statement i := fun _ _ e => by rw [h] at e; cases e

/-- A request with an opcode of the table, which is well formed where its command is. -/
theorem of_request {i : Instr} {op : Byte} {r : Req} (h : i.request = some (op, r)) (ho : Machine.opcodes.contains op.toNat = true)
    (hw : i.wf = true → r.wf = true) : Statement i := fun _ _ e w => by
  rw [h] at e; cases e; exact ⟨ho, hw w⟩

/-- The first of two checks that both hold. -/
theorem of_both {a b : Bool} (h : (a && b) = true) : a = true := by cases a <;> simp_all

theorem frameTick : ∀ a0 a1, Statement (.frameTick a0 a1) := fun _ _ => of_other rfl

theorem ppsPulseEnd : ∀ a0, Statement (.ppsPulseEnd a0) := fun _ => of_other rfl

theorem stepWaitExpiry : ∀ a0, Statement (.stepWaitExpiry a0) := fun _ => of_other rfl

theorem subTick : ∀ a0 a1, Statement (.subTick a0 a1) := fun _ _ => of_other rfl

theorem passOverrun : ∀ a0 a1, Statement (.passOverrun a0 a1) := fun _ _ => of_other rfl

theorem outputClampedLong : ∀ a0 a1, Statement (.outputClampedLong a0 a1) := fun _ _ => of_other rfl

theorem releaseHoldExpiry : ∀ a0 a1, Statement (.releaseHoldExpiry a0 a1) := fun _ _ => of_other rfl

theorem pmsFallback : ∀ a0 a1, Statement (.pmsFallback a0 a1) := fun _ _ => of_other rfl

theorem feedInvalid : ∀ a0 a1 a2, Statement (.feedInvalid a0 a1 a2) := fun _ _ _ => of_other rfl

theorem feedValid : ∀ a0 a1 a2, Statement (.feedValid a0 a1 a2) := fun _ _ _ => of_other rfl

theorem fusionOutput : ∀ a0 a1, Statement (.fusionOutput a0 a1) := fun _ _ => of_other rfl

theorem solveIterationComplete : ∀ a0, Statement (.solveIterationComplete a0) := fun _ => of_other rfl

theorem solveDeadline : ∀ a0, Statement (.solveDeadline a0) := fun _ => of_other rfl

theorem refinementWindowStart : ∀ a0, Statement (.refinementWindowStart a0) := fun _ => of_other rfl

theorem refinementWindowEnd : ∀ a0, Statement (.refinementWindowEnd a0) := fun _ => of_other rfl

theorem joystickTimeout : ∀ a0, Statement (.joystickTimeout a0) := fun _ => of_other rfl

theorem handoff : ∀ a0 a1, Statement (.handoff a0 a1) := fun _ _ => of_other rfl

theorem commandQueueCutoff : ∀ a0 a1, Statement (.commandQueueCutoff a0 a1) := fun _ _ => of_other rfl

theorem launch : ∀ a0 a1, Statement (.launch a0 a1) := fun _ _ => of_other rfl

theorem tailSlotEnd : ∀ a0, Statement (.tailSlotEnd a0) := fun _ => of_other rfl

theorem commitResultTimeout : ∀ a0, Statement (.commitResultTimeout a0) := fun _ => of_other rfl

theorem whatifComplete : ∀ a0, Statement (.whatifComplete a0) := fun _ => of_other rfl

theorem cycleOverdue : ∀ a0, Statement (.cycleOverdue a0) := fun _ => of_other rfl

theorem resultStale : ∀ a0 a1, Statement (.resultStale a0 a1) := fun _ _ => of_other rfl

theorem echo : ∀ a0 a1, Statement (.echo a0 a1) := fun _ _ => of_request rfl rfl id

theorem infoRead : ∀ a0 a1, Statement (.infoRead a0 a1) := fun _ _ => of_request rfl rfl id

theorem statusRead : ∀ a0 a1, Statement (.statusRead a0 a1) := fun _ _ => of_request rfl rfl id

theorem paramRead : ∀ a0 a1, Statement (.paramRead a0 a1) := fun _ _ => of_request rfl rfl id

theorem paramStage : ∀ a0 a1, Statement (.paramStage a0 a1) := fun _ _ => of_request rfl rfl id

theorem paramCommit : ∀ a0 a1, Statement (.paramCommit a0 a1) := fun _ _ => of_request rfl rfl id

theorem paramDiscard : ∀ a0 a1, Statement (.paramDiscard a0 a1) := fun _ _ => of_request rfl rfl id

theorem hallmarkRead : ∀ a0 a1, Statement (.hallmarkRead a0 a1) := fun _ _ => of_request rfl rfl id

theorem signalRead : ∀ a0 a1, Statement (.signalRead a0 a1) := fun _ _ => of_request rfl rfl id

theorem signalWrite : ∀ a0 a1, Statement (.signalWrite a0 a1) := fun _ _ => of_request rfl rfl id

theorem signalNotify : ∀ a0 a1, Statement (.signalNotify a0 a1) := fun _ _ => of_request rfl rfl of_both

theorem signalNotifyCancel : ∀ a0 a1, Statement (.signalNotifyCancel a0 a1) := fun _ _ => of_request rfl rfl of_both

theorem flowOpen : ∀ a0 a1, Statement (.flowOpen a0 a1) := fun _ _ => of_request rfl rfl id

theorem flowClose : ∀ a0 a1, Statement (.flowClose a0 a1) := fun _ _ => of_request rfl rfl id

theorem flowStatus : ∀ a0 a1, Statement (.flowStatus a0 a1) := fun _ _ => of_request rfl rfl id

theorem modeSet : ∀ a0 a1, Statement (.modeSet a0 a1) := fun _ _ => of_request rfl rfl id

theorem targetSet : ∀ a0 a1, Statement (.targetSet a0 a1) := fun _ _ => of_request rfl rfl id

theorem joystickSet : ∀ a0 a1, Statement (.joystickSet a0 a1) := fun _ _ => of_request rfl rfl id

theorem conseqRead : ∀ a0 a1, Statement (.conseqRead a0 a1) := fun _ _ => of_request rfl rfl id

theorem gnssRawRead : ∀ a0 a1, Statement (.gnssRawRead a0 a1) := fun _ _ => of_request rfl rfl id

theorem gnssCorrFeed : ∀ a0 a1, Statement (.gnssCorrFeed a0 a1) := fun _ _ => of_request rfl rfl id

theorem stateRead : ∀ a0 a1, Statement (.stateRead a0 a1) := fun _ _ => of_request rfl rfl id

theorem solverRead : ∀ a0 a1, Statement (.solverRead a0 a1) := fun _ _ => of_request rfl rfl id

theorem solutionRead : ∀ a0 a1, Statement (.solutionRead a0 a1) := fun _ _ => of_request rfl rfl id

theorem traceArm : ∀ a0 a1, Statement (.traceArm a0 a1) := fun _ _ => of_request rfl rfl id

theorem traceRead : ∀ a0 a1, Statement (.traceRead a0 a1) := fun _ _ => of_request rfl rfl id

theorem timeRead : ∀ a0 a1, Statement (.timeRead a0 a1) := fun _ _ => of_request rfl rfl id

theorem timeStep : ∀ a0 a1, Statement (.timeStep a0 a1) := fun _ _ => of_request rfl rfl id

theorem frameLaunch : ∀ a0 a1, Statement (.frameLaunch a0 a1) := fun _ _ => of_request rfl rfl id

theorem canSend : ∀ a0 a1, Statement (.canSend a0 a1) := fun _ _ => of_request rfl rfl id

theorem canFetch : ∀ a0 a1, Statement (.canFetch a0 a1) := fun _ _ => of_request rfl rfl id

theorem canRecover : ∀ a0 a1, Statement (.canRecover a0 a1) := fun _ _ => of_request rfl rfl id

theorem roleRead : ∀ a0 a1, Statement (.roleRead a0 a1) := fun _ _ => of_request rfl rfl id

theorem roleRelease : ∀ a0 a1, Statement (.roleRelease a0 a1) := fun _ _ => of_request rfl rfl id

theorem safetyRead : ∀ a0 a1, Statement (.safetyRead a0 a1) := fun _ _ => of_request rfl rfl id

theorem eventRead : ∀ a0 a1, Statement (.eventRead a0 a1) := fun _ _ => of_request rfl rfl id

theorem eventMark : ∀ a0 a1, Statement (.eventMark a0 a1) := fun _ _ => of_request rfl rfl of_both

theorem eventErase : ∀ a0 a1, Statement (.eventErase a0 a1) := fun _ _ => of_request rfl rfl of_both

theorem thermalRead : ∀ a0 a1, Statement (.thermalRead a0 a1) := fun _ _ => of_request rfl rfl id

theorem selftestRun : ∀ a0 a1, Statement (.selftestRun a0 a1) := fun _ _ => of_request rfl rfl id

theorem selftestResult : ∀ a0 a1, Statement (.selftestResult a0 a1) := fun _ _ => of_request rfl rfl id

theorem lifecycleRead : ∀ a0 a1, Statement (.lifecycleRead a0 a1) := fun _ _ => of_request rfl rfl id

theorem lifecycleAdvance : ∀ a0 a1, Statement (.lifecycleAdvance a0 a1) := fun _ _ => of_request rfl rfl id

theorem fwStage : ∀ a0 a1, Statement (.fwStage a0 a1) := fun _ _ => of_request rfl rfl id

theorem fwActivate : ∀ a0 a1, Statement (.fwActivate a0 a1) := fun _ _ => of_request rfl rfl id

theorem flashEraseDone : ∀ a0, Statement (.flashEraseDone a0) := fun _ => of_other rfl

theorem requestTimeout : ∀ a0 a1, Statement (.requestTimeout a0 a1) := fun _ _ => of_other rfl

theorem stagingAbandoned : ∀ a0, Statement (.stagingAbandoned a0) := fun _ => of_other rfl

theorem spiWrite : ∀ a0 a1, Statement (.spiWrite a0 a1) := fun _ _ => of_other rfl

theorem spiRead : ∀ a0 a1, Statement (.spiRead a0 a1) := fun _ _ => of_other rfl

theorem spiStat : ∀ a0, Statement (.spiStat a0) := fun _ => of_other rfl

theorem udpDatagramReceived : ∀ a0 a1 a2 a3 a4 a5, Statement (.udpDatagramReceived a0 a1 a2 a3 a4 a5) := fun _ _ _ _ _ _ => of_other rfl

theorem keptReplyExpiry : ∀ a0, Statement (.keptReplyExpiry a0) := fun _ => of_other rfl

theorem cmdProducerWrite : ∀ a0 a1 a2, Statement (.cmdProducerWrite a0 a1 a2) := fun _ _ _ => of_other rfl

theorem rplConsumerWrite : ∀ a0 a1, Statement (.rplConsumerWrite a0 a1) := fun _ _ => of_other rfl

theorem ctrlEnable : ∀ a0 a1, Statement (.ctrlEnable a0 a1) := fun _ _ => of_other rfl

theorem resetRings : ∀ a0, Statement (.resetRings a0) := fun _ => of_other rfl

theorem irqStatusClear : ∀ a0 a1, Statement (.irqStatusClear a0 a1) := fun _ _ => of_other rfl

theorem registerWrite : ∀ a0 a1 a2, Statement (.registerWrite a0 a1 a2) := fun _ _ _ => of_other rfl

theorem pciePerst : ∀ a0, Statement (.pciePerst a0) := fun _ => of_other rfl

theorem replyQueuedOnSpace : ∀ a0, Statement (.replyQueuedOnSpace a0) := fun _ => of_other rfl

theorem queueIdle : ∀ a0 a1, Statement (.queueIdle a0 a1) := fun _ _ => of_other rfl

theorem ethFrameReceived : ∀ a0 a1 a2, Statement (.ethFrameReceived a0 a1 a2) := fun _ _ _ => of_other rfl

theorem flowTimeout : ∀ a0 a1, Statement (.flowTimeout a0 a1) := fun _ _ => of_other rfl

theorem flowBadAfter : ∀ a0 a1, Statement (.flowBadAfter a0 a1) := fun _ _ => of_other rfl

theorem ackFrameReceived : ∀ a0 a1 a2, Statement (.ackFrameReceived a0 a1 a2) := fun _ _ _ => of_other rfl

theorem ptpMessageReceived : ∀ a0 a1 a2, Statement (.ptpMessageReceived a0 a1 a2) := fun _ _ _ => of_other rfl

theorem ptpMessageSend : ∀ a0 a1 a2, Statement (.ptpMessageSend a0 a1 a2) := fun _ _ _ => of_other rfl

theorem announceTimeout : ∀ a0 a1, Statement (.announceTimeout a0 a1) := fun _ _ => of_other rfl

theorem ppsInEdge : ∀ a0 a1, Statement (.ppsInEdge a0 a1) := fun _ _ => of_other rfl

theorem ref10Invalid : ∀ a0, Statement (.ref10Invalid a0) := fun _ => of_other rfl

theorem launchQueueLaunch : ∀ a0 a1, Statement (.launchQueueLaunch a0 a1) := fun _ _ => of_other rfl

theorem supervisionFrameSend : ∀ a0, Statement (.supervisionFrameSend a0) := fun _ => of_other rfl

theorem ringOpen : ∀ a0, Statement (.ringOpen a0) := fun _ => of_other rfl

theorem nodeForget : ∀ a0, Statement (.nodeForget a0) := fun _ => of_other rfl

theorem portLinkChange : ∀ a0 a1 a2, Statement (.portLinkChange a0 a1 a2) := fun _ _ _ => of_other rfl

theorem bypassMismatch : ∀ a0 a1, Statement (.bypassMismatch a0 a1) := fun _ _ => of_other rfl

theorem samplePortFrame : ∀ a0 a1 a2 a3, Statement (.samplePortFrame a0 a1 a2 a3) := fun _ _ _ _ => of_other rfl

theorem resamplerNoCrossing : ∀ a0 a1, Statement (.resamplerNoCrossing a0 a1) := fun _ _ => of_other rfl

theorem linkFrame : ∀ a0 a1 a2, Statement (.linkFrame a0 a1 a2) := fun _ _ _ => of_other rfl

theorem acquisitionPass : ∀ a0, Statement (.acquisitionPass a0) := fun _ => of_other rfl

theorem trackingLossOfLock : ∀ a0 a1 a2, Statement (.trackingLossOfLock a0 a1 a2) := fun _ _ _ => of_other rfl

theorem reacquisitionExpiry : ∀ a0 a1 a2, Statement (.reacquisitionExpiry a0 a1 a2) := fun _ _ _ => of_other rfl

theorem gnssSolutionComplete : ∀ a0, Statement (.gnssSolutionComplete a0) := fun _ => of_other rfl

theorem gnssSolutionDeadline : ∀ a0, Statement (.gnssSolutionDeadline a0) := fun _ => of_other rfl

theorem correctionDatagram : ∀ a0 a1 a2 a3, Statement (.correctionDatagram a0 a1 a2 a3) := fun _ _ _ _ => of_other rfl

theorem correctionsStale : ∀ a0 a1, Statement (.correctionsStale a0 a1) := fun _ _ => of_other rfl

theorem gnssStoreWrite : ∀ a0, Statement (.gnssStoreWrite a0) := fun _ => of_other rfl

theorem refMaxgapExpiry : ∀ a0 a1, Statement (.refMaxgapExpiry a0 a1) := fun _ _ => of_other rfl

theorem conflictExpired : ∀ a0 a1, Statement (.conflictExpired a0 a1) := fun _ _ => of_other rfl

theorem conflictCleared : ∀ a0 a1, Statement (.conflictCleared a0 a1) := fun _ _ => of_other rfl

theorem referenceReadmit : ∀ a0 a1 a2, Statement (.referenceReadmit a0 a1 a2) := fun _ _ _ => of_other rfl

theorem fusionSettled : ∀ a0, Statement (.fusionSettled a0) := fun _ => of_other rfl

theorem canFrameReceived : ∀ a0 a1 a2, Statement (.canFrameReceived a0 a1 a2) := fun _ _ _ => of_other rfl

theorem rxmapTimeout : ∀ a0 a1, Statement (.rxmapTimeout a0 a1) := fun _ _ => of_other rfl

theorem canBufferLock : ∀ a0 a1 a2, Statement (.canBufferLock a0 a1 a2) := fun _ _ _ => of_other rfl

theorem canBufferRelease : ∀ a0 a1 a2, Statement (.canBufferRelease a0 a1 a2) := fun _ _ _ => of_other rfl

theorem canLockTimeout : ∀ a0 a1 a2, Statement (.canLockTimeout a0 a1 a2) := fun _ _ _ => of_other rfl

theorem canAttemptEnd : ∀ a0 a1 a2 a3, Statement (.canAttemptEnd a0 a1 a2 a3) := fun _ _ _ _ => of_other rfl

theorem canRecoveryComplete : ∀ a0 a1, Statement (.canRecoveryComplete a0 a1) := fun _ _ => of_other rfl

theorem heartbeatReceived : ∀ a0 a1 a2, Statement (.heartbeatReceived a0 a1 a2) := fun _ _ _ => of_other rfl

theorem releaseReceived : ∀ a0 a1 a2, Statement (.releaseReceived a0 a1 a2) := fun _ _ _ => of_other rfl

theorem mirrorSegmentReceived : ∀ a0 a1 a2, Statement (.mirrorSegmentReceived a0 a1 a2) := fun _ _ _ => of_other rfl

theorem commitReceived : ∀ a0 a1 a2, Statement (.commitReceived a0 a1 a2) := fun _ _ _ => of_other rfl

theorem commitResultReceived : ∀ a0 a1 a2, Statement (.commitResultReceived a0 a1 a2) := fun _ _ _ => of_other rfl

theorem configImageReceived : ∀ a0 a1 a2, Statement (.configImageReceived a0 a1 a2) := fun _ _ _ => of_other rfl

theorem flowStateReceived : ∀ a0 a1 a2, Statement (.flowStateReceived a0 a1 a2) := fun _ _ _ => of_other rfl

theorem leaseExpiry : ∀ a0, Statement (.leaseExpiry a0) := fun _ => of_other rfl

theorem fenceAck : ∀ a0, Statement (.fenceAck a0) := fun _ => of_other rfl

theorem fenceAckTimeout : ∀ a0, Statement (.fenceAckTimeout a0) := fun _ => of_other rfl

theorem ownInEdge : ∀ a0, Statement (.ownInEdge a0) := fun _ => of_other rfl

theorem ownInTimeout : ∀ a0, Statement (.ownInTimeout a0) := fun _ => of_other rfl

theorem secondOwner : ∀ a0, Statement (.secondOwner a0) := fun _ => of_other rfl

theorem partnerLost : ∀ a0, Statement (.partnerLost a0) := fun _ => of_other rfl

theorem laneDown : ∀ a0 a1, Statement (.laneDown a0 a1) := fun _ _ => of_other rfl

theorem claimWaitExpiry : ∀ a0, Statement (.claimWaitExpiry a0) := fun _ => of_other rfl

theorem orphanSolo : ∀ a0, Statement (.orphanSolo a0) := fun _ => of_other rfl

theorem returnHoldoffExpiry : ∀ a0, Statement (.returnHoldoffExpiry a0) := fun _ => of_other rfl

theorem resyncRetry : ∀ a0, Statement (.resyncRetry a0) := fun _ => of_other rfl

theorem ownershipMismatch : ∀ a0 a1, Statement (.ownershipMismatch a0 a1) := fun _ _ => of_other rfl

theorem islandTick : ∀ a0 a1, Statement (.islandTick a0 a1) := fun _ _ => of_other rfl

theorem discrepancyTimeout : ∀ a0 a1, Statement (.discrepancyTimeout a0 a1) := fun _ _ => of_other rfl

theorem lineFaultClear : ∀ a0 a1, Statement (.lineFaultClear a0 a1) := fun _ _ => of_other rfl

theorem resetInputHeld : ∀ a0, Statement (.resetInputHeld a0) := fun _ => of_other rfl

theorem outputOvercurrent : ∀ a0 a1, Statement (.outputOvercurrent a0 a1) := fun _ _ => of_other rfl

theorem outputReadbackFail : ∀ a0 a1 a2, Statement (.outputReadbackFail a0 a1 a2) := fun _ _ _ => of_other rfl

theorem masterDisconnectTest : ∀ a0 a1 a2, Statement (.masterDisconnectTest a0 a1 a2) := fun _ _ _ => of_other rfl

theorem islandWatchdogExpiry : ∀ a0 a1, Statement (.islandWatchdogExpiry a0 a1) := fun _ _ => of_other rfl

theorem bezelRead : ∀ a0 a1, Statement (.bezelRead a0 a1) := fun _ _ => of_other rfl

theorem diodeConversionComplete : ∀ a0 a1, Statement (.diodeConversionComplete a0 a1) := fun _ _ => of_other rfl

theorem diodeRecheck : ∀ a0, Statement (.diodeRecheck a0) := fun _ => of_other rfl

theorem thermalReset : ∀ a0, Statement (.thermalReset a0) := fun _ => of_other rfl

theorem thermalOffDiodeRead : ∀ a0 a1, Statement (.thermalOffDiodeRead a0 a1) := fun _ _ => of_other rfl

theorem rateAlertClear : ∀ a0, Statement (.rateAlertClear a0) := fun _ => of_other rfl

theorem selftestComplete : ∀ a0 a1, Statement (.selftestComplete a0 a1) := fun _ _ => of_other rfl

theorem autoSelftestDue : ∀ a0, Statement (.autoSelftestDue a0) := fun _ => of_other rfl

theorem faultEntryHandled : ∀ a0, Statement (.faultEntryHandled a0) := fun _ => of_other rfl

theorem faultHoldExpiry : ∀ a0 a1 a2, Statement (.faultHoldExpiry a0 a1 a2) := fun _ _ _ => of_other rfl

theorem priorityLaneWrite : ∀ a0, Statement (.priorityLaneWrite a0) := fun _ => of_other rfl

theorem lostRecord : ∀ a0, Statement (.lostRecord a0) := fun _ => of_other rfl

theorem locketScrub : ∀ a0 a1, Statement (.locketScrub a0 a1) := fun _ _ => of_other rfl

theorem opSecondsWrite : ∀ a0, Statement (.opSecondsWrite a0) := fun _ => of_other rfl

theorem powerUp : ∀ a0 a1 a2 a3 a4 a5, Statement (.powerUp a0 a1 a2 a3 a4 a5) := fun _ _ _ _ _ _ => of_other rfl

theorem rstNAssert : ∀ a0 a1, Statement (.rstNAssert a0 a1) := fun _ _ => of_other rfl

theorem rstNRelease : ∀ a0 a1 a2 a3, Statement (.rstNRelease a0 a1 a2 a3) := fun _ _ _ _ => of_other rfl

theorem resetStuck : ∀ a0 a1 a2 a3, Statement (.resetStuck a0 a1 a2 a3) := fun _ _ _ _ => of_other rfl

theorem resetObeyed : ∀ a0, Statement (.resetObeyed a0) := fun _ => of_other rfl

theorem supervisorWatchdog : ∀ a0, Statement (.supervisorWatchdog a0) := fun _ => of_other rfl

theorem unitReady : ∀ a0, Statement (.unitReady a0) := fun _ => of_other rfl

theorem holdupExhausted : ∀ a0, Statement (.holdupExhausted a0) := fun _ => of_other rfl

theorem vioOut : ∀ a0 a1 a2, Statement (.vioOut a0 a1 a2) := fun _ _ _ => of_other rfl

theorem vioRestored : ∀ a0 a1, Statement (.vioRestored a0 a1) := fun _ _ => of_other rfl

theorem oscWarm : ∀ a0 a1, Statement (.oscWarm a0 a1) := fun _ _ => of_other rfl

theorem oscFault : ∀ a0 a1 a2, Statement (.oscFault a0 a1 a2) := fun _ _ _ => of_other rfl

theorem dramEccError : ∀ a0 a1 a2, Statement (.dramEccError a0 a1 a2) := fun _ _ _ => of_other rfl

theorem canReceiveError : ∀ a0 a1 a2, Statement (.canReceiveError a0 a1 a2) := fun _ _ _ => of_other rfl

theorem ref10Valid : ∀ a0, Statement (.ref10Valid a0) := fun _ => of_other rfl

theorem refinedModelStoreWrite : ∀ a0, Statement (.refinedModelStoreWrite a0) := fun _ => of_other rfl

theorem debugPortAccess : ∀ a0 a1, Statement (.debugPortAccess a0 a1) := fun _ _ => of_other rfl

end Sys2Proof.Laws.Request
end

