-- ==== Sys2Proof/Laws/Request.lean ====
section
/-! SUPPORT. Laws/Request.lean: what the channel does with a request that is the only one outstanding: it is taken, started,
answered and delivered. `served_fin` and `accepted_of` say it once for every opcode. -/

namespace Sys2Proof.Machine

open Sys2Proof

theorem qPush_ok (id : Nat) (d : Dev) (h : (d.q id).agree = true) (hh : (d.q id).held < queueDepth id) :
    d.qPush id = (true, d.setQ id { d.q id with
      wr := (d.q id).wr + 1, wr2 := (d.q id).wr + 1,
      lastNonEmpty := if (d.q id).held = 0 then d.time.now else (d.q id).lastNonEmpty }, []) := by
  unfold Dev.qPush Dev.qCheck
  simp only [h, if_true]
  rw [if_neg (by omega)]

/-- A request heard for the staging set changes the instant of its last use alone. -/
theorem heard_keeps (op : Byte) (q : Req) (d : Dev) :
    d.stageHeard op q = { d with cfg := { d.cfg with lastUse := (d.stageHeard op q).cfg.lastUse } } := by
  unfold Dev.stageHeard Dev.touchStage
  split
  · split <;> rfl
  · rfl

theorem heard_free (op : Byte) (q : Req) (d : Dev) (c : CmdSt) (o : List Out) :
    ({ d with cmd := c, out := o } : Dev).stageHeard op q = { d.stageHeard op q with cmd := c, out := o } := by
  have h : ({ d with cmd := c, out := o } : Dev).owns q.src = d.owns q.src := rfl
  unfold Dev.stageHeard Dev.touchStage
  rw [h]
  split
  · split <;> rfl
  · rfl

theorem heard_cmd (op : Byte) (q : Req) (d : Dev) : (d.stageHeard op q).cmd = d.cmd := by rw [heard_keeps]
theorem heard_q (op : Byte) (q : Req) (d : Dev) (i : Nat) : (d.stageHeard op q).q i = d.q i := by unfold Dev.q; rw [heard_cmd]
theorem heard_time (op : Byte) (q : Req) (d : Dev) : (d.stageHeard op q).time = d.time := by rw [heard_keeps]

theorem intake_ok (op : Byte) (q : Req) (d : Dev) (k : Word × Word) (ht : d.cmd.tags = []) (h : (d.q 0).agree = true) (hh : (d.q 0).held = 0)
    (hf : d.packetFault op q q.len none true = none) :
    d.intake op q q.len none true k =
      { ((d.stageHeard op q).qPush 0).2.1 with cmd := { ((d.stageHeard op q).qPush 0).2.1.cmd with tags := [{ op := op, req := q }] } } := by
  unfold Dev.intake
  rw [if_neg (by rw [hh]; decide)]
  have hp : d.pend q.tag = none := by simp [Dev.pend, ht]
  rw [hp, hf, qPush_ok 0 (d.stageHeard op q) (by rw [heard_q]; exact h) (by rw [heard_q, hh]; decide)]
  simp [Dev.raiseQ, Dev.setQ, ht, heard_cmd]

theorem touched_tags (r : Req) (d : Dev) : (d.touched r).cmd.tags = d.cmd.tags := by
  unfold Dev.touched; split <;> rfl
theorem touched_queues (r : Req) (d : Dev) : (d.touched r).cmd.queues = d.cmd.queues := by
  unfold Dev.touched; split <;> rfl
theorem touched_q (r : Req) (d : Dev) (i : Nat) : (d.touched r).q i = d.q i := by
  unfold Dev.q; rw [touched_queues]
theorem touched_life (r : Req) (d : Dev) : (d.touched r).life = d.life := by
  unfold Dev.touched; split <;> rfl
theorem fault_touched (op : Byte) (r q : Req) (d : Dev) (n x b) : (d.touched r).packetFault op q n x b = d.packetFault op q n x b := by
  unfold Dev.packetFault; rw [touched_life]

theorem requestIn_ok (op : Byte) (r : Req) (d : Dev) (hs : d.serving = true) (hi : d.idle = true) (hr : d.receives op r = true)
    (hf : d.packetFault op r r.len none true = none) : d.requestIn op r = d.taken op r := by
  have hi' := hi
  simp only [Dev.idle, Bool.and_eq_true, List.isEmpty_iff, beq_iff_eq] at hi'
  have ht : (d.touched r).cmd.tags = [] := by rw [touched_tags]; simp_all
  have key := intake_ok op r (d.touched r) (r.hcrc op, r.pcrc) ht (by rw [touched_q]; simp_all) (by rw [touched_q]; simp_all) (by rw [fault_touched]; exact hf)
  simp only [Dev.serving, Bool.and_eq_true] at hs
  unfold Dev.requestIn Dev.taken
  cases h : r.src.tr with
  | pcie =>
    simp only [Dev.receives, h, Bool.and_eq_true] at hr
    have : d.touched r = (d.modPcie (fun p => { p with cmdProducer := p.cmdProducer + 1 })).slotTaken := by
      unfold Dev.touched; rw [h]
    rw [this] at key
    have h2 : d.cmd.trans.pcie.slots = [] := by simp_all
    simp only [hr.2, h2, List.isEmpty_nil, Bool.and_self, if_true]
    rw [key, this]
  | spi =>
    simp only [Dev.receives, h, Bool.and_eq_true] at hr
    have : d.touched r = d.setAborted false := by unfold Dev.touched; rw [h]
    rw [this] at key
    have h3 : d.spiServed = true := by simp [Dev.spiServed, hs.1.2]
    simp only [hr.2, h3, Bool.not_true, Bool.false_eq_true, if_false]
    rw [key, this]
  | udp =>
    simp only [Dev.receives, h, Bool.and_eq_true, Dev.transportDown, Bool.not_not] at hr
    have : d.touched r = d := by unfold Dev.touched; rw [h]
    rw [this] at key
    have h4 : d.keptFor r.src.ip op r.tag (r.hcrc op) r.pcrc = none := by simpa using hr.2.2
    simp only [hr.1, hs.1.1, hs.1.2, hr.2.1, Bool.and_self, Bool.not_true, Bool.false_eq_true, if_false, h4]
    rw [key, this]

theorem touched_slots (r : Req) (d : Dev) : (d.touched r).cmd.trans.pcie.slots = d.cmd.trans.pcie.slots := by
  unfold Dev.touched; split <;> rfl

theorem taken_eq (op r) (d : Dev) (hi : d.idle = true) : d.taken op r =
   { ((d.touched r).stageHeard op r).setQ 0 { d.q 0 with
      wr := (d.q 0).wr + 1, wr2 := (d.q 0).wr + 1, lastNonEmpty := d.time.now } with
      cmd := { (((d.touched r).stageHeard op r).setQ 0 { d.q 0 with
      wr := (d.q 0).wr + 1, wr2 := (d.q 0).wr + 1, lastNonEmpty := d.time.now }).cmd with tags := [{ op := op, req := r }] } } := by
  simp only [Dev.idle, Bool.and_eq_true, List.isEmpty_iff, beq_iff_eq] at hi
  have h1 : (d.q 0).held = 0 := by simp_all
  have h2 : (d.q 0).agree = true := by simp_all
  have ht : (d.touched r).time = d.time := by unfold Dev.touched; split <;> rfl
  unfold Dev.taken
  rw [qPush_ok 0 _ (by rw [heard_q, touched_q]; exact h2) (by rw [heard_q, touched_q, h1]; decide)]
  simp only [heard_q, heard_time, touched_q, h1, if_true, ht]

theorem ringCheck_sound (d : Dev) (h : d.ringSound = true) : d.ringCheck = d := by
  unfold Dev.ringCheck
  simp only [Dev.ringSound, Bool.and_eq_true, Bool.not_eq_true'] at h
  simp only [h.1, h.2, Bool.and_false, Bool.false_eq_true, if_false]
  split <;> rfl

theorem touched_sound (r : Req) (d : Dev) : (d.touched r).ringSound = d.ringSound := by
  unfold Dev.touched; split
  · have : ∀ s a b : Word, ringOver s (a + 1) (b + 1) = ringOver s a b := by
      intro s a b
      have : (a + 1) - (b + 1) = a - b := by bv_omega
      unfold ringOver; rw [this]
    simp only [Dev.ringSound, Dev.modPcie, Dev.slotTaken, Dev.emit, this]
  · rfl
  · rfl

theorem ring_quiet (d : Dev) (h : d.ringSound = true) (hs : d.cmd.trans.pcie.slots = []) : d.ringService = d := by
  unfold Dev.ringService
  split
  · rw [ringCheck_sound d h]
    rw [Dev.takeSlots, hs]
  · rfl

theorem taken_ring (op r) (d : Dev) (hi : d.idle = true) : (d.taken op r).ringService = d.taken op r := by
  apply ring_quiet
  · rw [taken_eq op r d hi]
    have h : d.ringSound = true := by
      simp only [Dev.idle, Bool.and_eq_true] at hi; simp_all
    rw [← touched_sound r d] at h
    unfold Dev.ringSound at h ⊢
    rw [heard_keeps]
    exact h
  · rw [taken_eq op r d hi, heard_keeps]
    show (d.touched r).cmd.trans.pcie.slots = []
    rw [touched_slots]
    simp only [Dev.idle, Bool.and_eq_true, List.isEmpty_iff] at hi; simp_all

theorem sweep_quiet (d : Dev) (h1 : d.solver.modeReq = none) (h2 : d.cfg.commit = none) (h3 : d.clasp.releasing = .no) :
    d.roleSweep = d := by
  unfold Dev.roleSweep; simp [h1, h2, h3]

theorem taken_core (op r) (d : Dev) (hi : d.idle = true) :
    (d.taken op r).solver = d.solver ∧ (d.taken op r).cfg.commit = d.cfg.commit ∧ (d.taken op r).clasp = d.clasp ∧ (d.taken op r).life = d.life ∧
    (d.taken op r).time = d.time := by
  rw [taken_eq op r d hi, heard_keeps]
  unfold Dev.touched
  cases r.src.tr <;> exact ⟨rfl, rfl, rfl, rfl, rfl⟩

theorem get_ins {α : Type} (dflt : Nat → α) (m : List (Nat × α)) (k : Nat) (v : α) : Bits.get dflt (Bits.insert k v m) k = v := by
  induction m with
  | nil => simp [Bits.insert, Bits.get]
  | cons a m ih =>
    obtain ⟨j, w⟩ := a
    simp only [Bits.insert]
    split
    · simp [Bits.get]
    · split
      · simp [Bits.get]
      · simp only [Bits.get]; rw [if_neg (by assumption), if_neg (by omega)]; exact ih

theorem get_ins_ne {α : Type} (dflt : Nat → α) (m : List (Nat × α)) (k j : Nat) (v : α) (h : j ≠ k) :
    Bits.get dflt (Bits.insert k v m) j = Bits.get dflt m j := by
  induction m with
  | nil => simp [Bits.insert, Bits.get]; intros; omega
  | cons a m ih =>
    obtain ⟨i, w⟩ := a
    simp only [Bits.insert]
    split
    · simp only [Bits.get]
      by_cases h1 : j < k
      · rw [if_neg (by omega), if_pos h1, if_neg (by omega), if_pos (by omega)]
      · rw [if_neg (by omega), if_neg h1]
    · split
      · subst_vars; simp [Bits.get]
        rw [if_neg (Ne.symm h), if_neg (Ne.symm h)]
      · simp only [Bits.get, ih]

theorem setQ_q (d : Dev) (i : Nat) (c : QCtl) (h : c ≠ {}) : (d.setQ i c).q i = c := by
  unfold Dev.setQ Dev.q Bits.put
  simp only [h, if_false]
  exact get_ins _ _ _ _
theorem setQ_ne (d : Dev) (i j : Nat) (c : QCtl) (h : c ≠ {}) (hj : j ≠ i) : (d.setQ i c).q j = d.q j := by
  unfold Dev.setQ Dev.q Bits.put
  simp only [h, if_false]
  exact get_ins_ne _ _ _ _ _ hj

theorem qRead_ok (id n : Nat) (d : Dev) (h : (d.q id).agree = true) :
    d.qRead id n = (d.setQ id { d.q id with
      rd := (d.q id).rd + (if n < (d.q id).held then n else (d.q id).held),
      rd2 := (d.q id).rd + (if n < (d.q id).held then n else (d.q id).held),
      lastRead := d.time.now, noticed := false }, []) := by
  unfold Dev.qRead Dev.qCheck
  simp only [h, if_true]

theorem taken_q0 (op r) (d : Dev) (hi : d.idle = true) : (d.taken op r).q 0 =
    { d.q 0 with
      wr := (d.q 0).wr + 1, wr2 := (d.q 0).wr + 1, lastNonEmpty := d.time.now } := by
  rw [taken_eq op r d hi]
  exact setQ_q _ _ _ (by simp)

theorem idle_q (d : Dev) (hi : d.idle = true) : (d.q 0).agree = true ∧ (d.q 0).held = 0 ∧ (d.q 1).agree = true ∧ (d.q 1).held = 0 := by
  simp only [Dev.idle, Bool.and_eq_true, beq_iff_eq] at hi; simp_all

theorem qRead_blocks (id n : Nat) (d : Dev) (h : (d.q id).agree = true) :
   (d.qRead id n).1 = { d with cmd := (d.qRead id n).1.cmd } := by
  rw [qRead_ok id n d h]; rfl

theorem alike_trans {a b c : Dev} (h : a.alike b) (g : b.alike c) : a.alike c := by
  unfold Dev.alike at *
  rw [← g, ← h]
theorem alike_refl (a : Dev) : a.alike a := rfl

theorem touched_keeps (r : Req) (d : Dev) : d.touched r = { d with cmd := (d.touched r).cmd, out := (d.touched r).out } := by
  unfold Dev.touched; split <;> rfl

/-- Of the rest of the machine, the start of a request has changed the last use of the staging set alone. -/
theorem begun_blocks (op r) (d : Dev) (hi : d.idle = true) : (d.begun op r).alike (d.stageHeard op r) := by
  have hagree : ((d.taken op r).q 0).agree = true := by
    have hq := idle_q d hi
    rw [taken_q0 op r d hi]
    have := hq.1
    simp only [QCtl.agree, Bool.and_eq_true, beq_iff_eq] at this ⊢
    simp [this]
  have hb : d.begun op r = Dev.modPend r.tag (fun x => { x with started := true, resources := d.resourcesOf op.toNat r }) ((d.taken op r).qRead 0 1).1 := rfl
  have hm : ∀ (f : Pend → Pend) (c : Dev), (c.modPend r.tag f).alike c := fun _ _ => rfl
  have h1 : ((d.taken op r).qRead 0 1).1.alike (d.taken op r) := by rw [qRead_blocks 0 1 _ hagree]; rfl
  have h2 : (d.taken op r).alike ((d.touched r).stageHeard op r) := by rw [taken_eq op r d hi]; rfl
  have h3 : ((d.touched r).stageHeard op r).alike (d.stageHeard op r) := by
    rw [touched_keeps, heard_free]; rfl
  rw [hb]
  exact alike_trans (hm _ _) (alike_trans h1 (alike_trans h2 h3))

theorem gate_core (op : Nat) (r : Req) (a b : Dev) (h1 : a.life = b.life) (h2 : a.clasp = b.clasp) (h3 : a.solver = b.solver) :
    a.gate op r = b.gate op r := by
  unfold Dev.gate; rw [h1, h2, h3]

theorem gate_alike (op : Nat) (r : Req) {a b : Dev} (h : a.alike b) : a.gate op r = b.gate op r := by
  unfold Dev.alike at h
  rw [← h]
  exact gate_core op r _ _ rfl rfl rfl

theorem resources_core (op : Nat) (r : Req) (a b : Dev) (h : a.image = b.image) : a.resourcesOf op r = b.resourcesOf op r := by
  unfold Dev.resourcesOf; rw [h]

theorem startOne_ok (op r) (d : Dev) (hi : d.idle = true) (hg : d.gate op.toNat r = none) :
    Dev.startOne { op := op, req := r } (d.taken op r) =
      Dev.takeAnswer { op := op, req := r } ((d.begun op r).runOp op.toNat r) := by
  have hq := idle_q d hi
  have hagree : ((d.taken op r).q 0).agree = true := by
    rw [taken_q0 op r d hi]
    have := hq.1
    simp only [QCtl.agree, Bool.and_eq_true, beq_iff_eq] at this ⊢
    simp [this]
  have h2 : ((d.taken op r).qRead 0 1).2 = [] := by rw [qRead_ok 0 1 _ hagree]
  have hb : Dev.modPend r.tag (fun x => { x with started := true, resources := d.resourcesOf op.toNat r }) ((d.taken op r).qRead 0 1).1 = d.begun op r := rfl
  have hg2 : (d.begun op r).gate op.toNat r = none := by
    rw [gate_alike op.toNat r (begun_blocks op r d hi), ← hg, heard_keeps]
    exact gate_core op.toNat r _ _ rfl rfl rfl
  have hu : ((d.taken op r).qRead 0 1).1.resourcesOf op.toNat r = d.resourcesOf op.toNat r := by
    apply resources_core
    rw [qRead_blocks 0 1 _ hagree, taken_eq op r d hi, heard_keeps]
    unfold Dev.touched; cases r.src.tr <;> rfl
  unfold Dev.startOne
  generalize hx : (d.taken op r).qRead 0 1 = x at *
  obtain ⟨x1, x2⟩ := x
  simp only at h2 hb hu ⊢
  subst h2
  simp only [List.isEmpty_nil, Bool.not_true, Bool.false_eq_true, if_false]
  rw [hu, hb, hg2]

theorem startable_one (d : Dev) (p : Pend) (h : d.cmd.tags = [p]) (hs : p.started = false) : d.startable = some p := by
  unfold Dev.startable
  simp [h, hs]

theorem release_none (d : Dev) (p : Pend) (h : d.cmd.tags = [p]) (hd : p.done = none) : d.release = d := by
  unfold Dev.release
  rw [h]
  simp [Dev.releaseFrom, hd]

theorem release_nil (d : Dev) (h : d.cmd.tags = []) : d.release = d := by
  unfold Dev.release
  rw [h]
  simp [Dev.releaseFrom]

theorem pump_taken (op r n) (d : Dev) (hi : d.idle = true) (hg : d.gate op.toNat r = none) :
    Dev.pump (n + 1) (d.taken op r) = Dev.pump n (Dev.takeAnswer { op := op, req := r } ((d.begun op r).runOp op.toNat r)) := by
  have ht : (d.taken op r).cmd.tags = [{ op := op, req := r }] := rfl
  rw [Dev.pump, release_none _ _ ht rfl, startable_one _ _ ht rfl]
  simp only
  rw [startOne_ok op r d hi hg]

/-- The reply record of a request. -/
def replyOf (op : Byte) (q : Req) (rflags : Byte) (f : Fin) : Reply :=
  { src := q.src, bytes := replyBytes op q.tag rflags f.status f.rarg f.payload,
    final := rflags.getLsbD 0, op := op, tag := q.tag, hcrc := q.hcrc op, pcrc := q.pcrc }


theorem finalFlags_final (f : Fin) : (finalFlags f).getLsbD 0 = true := by
  unfold finalFlags; split <;> decide

theorem takeAnswer_fin (op r) (x : OpRes) (f : Fin) (hx : x.ans = .fin f)
    (u : List Resource) (ht : x.dev.cmd.tags = [{ op := op, req := r, started := true, resources := u }]) :
    Dev.takeAnswer { op := op, req := r } x =
      { x.dev with cmd := { x.dev.cmd with tags := [{ op := op, req := r, started := true, resources := u, done := some (f.fitted r.src.tr) }] } } := by
  unfold Dev.takeAnswer
  rw [hx]
  simp only [Dev.finish, Dev.modPend, ht, List.map, beq_self_eq_true, if_true]

theorem answer_ok (op r fl) (f : Fin) (d : Dev) (hh : d.cmd.held = []) (hq : (d.q 1).agree = true) (hq2 : (d.q 1).held = 0)
    (hfl : fl.getLsbD 0 = true) (p : Pend) (hp : p.req.tag = r.tag) (ht : d.cmd.tags = [p]) :
    d.answer op r fl f.status f.rarg f.payload = { d with cmd := { (d.setQ 1 { d.q 1 with
      wr := (d.q 1).wr + 1, wr2 := (d.q 1).wr + 1, lastNonEmpty := d.time.now }).cmd with
        tags := [], replyQ := d.cmd.replyQ ++ [replyOf op r fl f] } } := by
  unfold Dev.answer Dev.queueReply
  rw [hh, qPush_ok 1 d hq (by rw [hq2]; decide)]
  simp [hfl, Dev.freeTag, Dev.setQ, ht, hp, Dev.raiseQ, hq2, replyOf]

theorem pump_fin (op r n) (d : Dev) (f : Fin) (u : List Resource)
    (ht : d.cmd.tags = [{ op := op, req := r, started := true, resources := u, done := some f }])
    (hh : d.cmd.held = []) (hr : d.cmd.replyQ = []) (hq : (d.q 1).agree = true) (hq2 : (d.q 1).held = 0) :
    Dev.pump (n + 1) d = { d with cmd := { (d.setQ 1 { d.q 1 with
      wr := (d.q 1).wr + 1, wr2 := (d.q 1).wr + 1, lastNonEmpty := d.time.now }).cmd with
        tags := [], replyQ := [replyOf op r (finalFlags f) f] } } := by
  have e : d.release = { d with cmd := { (d.setQ 1 { d.q 1 with
      wr := (d.q 1).wr + 1, wr2 := (d.q 1).wr + 1, lastNonEmpty := d.time.now }).cmd with
        tags := [], replyQ := [replyOf op r (finalFlags f) f] } } := by
    unfold Dev.release
    rw [ht]
    rw [Dev.releaseFrom]
    simp only [Pend.behind, List.any_nil, Bool.false_eq_true, if_false, Bool.or_self]
    rw [Dev.releaseFrom]
    change Dev.answer op r (finalFlags f) f.status f.rarg f.payload _ = _
    have h2 : (Dev.modPend r.tag (fun x => { x with replied := true }) d).cmd.tags = [{ op := op, req := r, started := true, resources := u, done := some f, replied := true }] := by
      simp [Dev.modPend, ht]
    rw [answer_ok op r (finalFlags f) f _ (by exact hh) (by exact hq) (by exact hq2) (finalFlags_final f) _ (by rfl) h2]
    simp [Dev.modPend, Dev.setQ, hr, Dev.q]
  rw [Dev.pump, e]
  simp only [Dev.startable, List.find?_nil]


theorem irq_alike (v : Nat) (d : Dev) : (d.irq v).alike d ∧ (d.irq v).cmd.tags = d.cmd.tags ∧ (d.irq v).cmd.held = d.cmd.held ∧
   (d.irq v).cmd.replyQ = d.cmd.replyQ ∧ (d.irq v).cmd.queues = d.cmd.queues ∧ (∀ o ∈ d.out, o ∈ (d.irq v).out) := by
  unfold Dev.irq
  simp only
  split
  · exact ⟨rfl, rfl, rfl, rfl, rfl, fun o h => h⟩
  · exact ⟨rfl, rfl, rfl, rfl, rfl, fun o h => List.mem_cons_of_mem _ h⟩

/-- One delivery, the transport being up. -/
theorem deliverOne_ok (rep : Reply) (d : Dev) (hd : d.transportDown rep.src.tr = false) :
    (d.deliverOne rep = (false, d) ∧ rep.src.tr ≠ .udp) ∨
    ((d.deliverOne rep).1 = true ∧ (d.deliverOne rep).2.alike d ∧ (d.deliverOne rep).2.cmd.tags = d.cmd.tags ∧
     (d.deliverOne rep).2.cmd.held = d.cmd.held ∧ (d.deliverOne rep).2.cmd.queues = d.cmd.queues ∧
     ((rep.src.tr = .udp ∧ Out.udpReply rep.src.ip rep.src.port rep.bytes ∈ (d.deliverOne rep).2.out) ∨
      (rep.src.tr = .pcie ∧ ∃ a, Out.pcieReply a rep.bytes ∈ (d.deliverOne rep).2.out)) ∧ (∀ o ∈ d.out, o ∈ (d.deliverOne rep).2.out)) := by
  unfold Dev.deliverOne
  rw [if_neg (by rw [hd]; decide)]
  cases h : rep.src.tr with
  | spi => left; simp
  | udp =>
    right
    simp only [Dev.emit]
    split <;> simp [Dev.alike] <;> exact fun o ho => Or.inr ho
  | pcie =>
    simp only
    split
    · right
      have := irq_alike 0 (({ d with cmd := { d.cmd with trans := { d.cmd.trans with
          pcie := { d.cmd.trans.pcie with rplProducer := d.cmd.trans.pcie.rplProducer + 1 } } } } : Dev).emit
          (.pcieReply (slotAddr d.cmd.trans.pcie.rplBaseLo d.cmd.trans.pcie.rplBaseHi d.cmd.trans.pcie.rplSlots d.cmd.trans.pcie.rplProducer) rep.bytes))
      refine ⟨rfl, alike_trans this.1 rfl, this.2.1, this.2.2.1, this.2.2.2.2.1, Or.inr ⟨trivial, _, this.2.2.2.2.2 _ (List.mem_cons_self ..)⟩, fun o ho => this.2.2.2.2.2 _ (by simp [Dev.emit, ho])⟩
    · left; simp

theorem deliver_nil (d : Dev) (h : d.cmd.replyQ = []) : d.deliver = d := by
  unfold Dev.deliver
  rw [h]; rfl

theorem unhold_nil (n : Nat) (d : Dev) (h : d.cmd.held = []) : Dev.unhold n d = d := by
  cases n with
  | zero => rfl
  | succ n => rw [Dev.unhold, h]

theorem alike_fields {a b : Dev} (h : a.alike b) : a.life = b.life ∧ a.cfg = b.cfg ∧ a.net = b.net ∧ a.time = b.time := by
  unfold Dev.alike at h
  rw [← h]; exact ⟨rfl, rfl, rfl, rfl⟩

/-- The delivery of a queue that holds one reply. -/
theorem deliver_one (rep : Reply) (d : Dev) (hr : d.cmd.replyQ = [rep]) (hq : (d.q 1).agree = true) (hd : d.transportDown rep.src.tr = false) :
    (d.deliver = d ∧ rep.src.tr ≠ .udp) ∨
    (d.deliver.alike d ∧ d.deliver.cmd.tags = d.cmd.tags ∧ d.deliver.cmd.held = d.cmd.held ∧
     d.deliver.cmd.replyQ = [] ∧
      ((rep.src.tr = .udp ∧ Out.udpReply rep.src.ip rep.src.port rep.bytes ∈ d.deliver.out) ∨
      (rep.src.tr = .pcie ∧ ∃ a, Out.pcieReply a rep.bytes ∈ d.deliver.out)) ∧ (∀ o ∈ d.out, o ∈ d.deliver.out)) := by
  have e : d.deliver = Dev.deliverAll [rep] [] d := by
    unfold Dev.deliver Dev.qCheck
    rw [if_neg (by rw [hr]; exact Bool.false_ne_true), if_pos hq, ← hr]
    rfl
  rw [e, Dev.deliverAll]
  simp only [List.any_nil, Bool.false_eq_true, if_false]
  rcases deliverOne_ok rep d hd with ⟨h, h'⟩ | ⟨h0, h1, h2, h3, h4, h6, h7⟩
  · left
    rw [h]
    simp only [Bool.false_eq_true, if_false]
    rw [Dev.deliverAll]
    refine ⟨?_, h'⟩
    simp only [List.nil_append, ← hr]
  · right
    generalize hx : d.deliverOne rep = x at *
    obtain ⟨g, e⟩ := x
    simp only at *
    subst h0
    simp only [if_true]
    have hqe : e.q 1 = d.q 1 := by unfold Dev.q; rw [h4]
    rw [qRead_ok 1 1 e (by rw [hqe]; exact hq)]
    simp only [Dev.raiseQ, List.foldl_nil]
    rw [Dev.deliverAll]
    exact ⟨h1, h2, h3, rfl, h6, h7⟩

theorem transportDown_core {a b : Dev} (tr : Transport) (h1 : a.cfg.committed = b.cfg.committed) (h2 : a.net = b.net) (h3 : a.cmd.trans = b.cmd.trans)
    (h4 : a.hw = b.hw) : a.transportDown tr = b.transportDown tr := by
  cases tr <;> simp [Dev.transportDown, Dev.parB, Dev.par, Dev.udpUp, h1, h2, h3, h4]

theorem runs_core {a b : Dev} (h : a.life = b.life) : a.runs = b.runs := by unfold Dev.runs; rw [h]

/-- What follows an operation that has ended its request: reply, delivery, free tag. -/
theorem finish_all (op r n) (d : Dev) (f : Fin) (u : List Resource)
    (ht : d.cmd.tags = [{ op := op, req := r, started := true, resources := u, done := some f }])
    (hh : d.cmd.held = []) (hr : d.cmd.replyQ = []) (hq : (d.q 1).agree = true) (hq2 : (d.q 1).held = 0)
    (hd : d.transportDown r.src.tr = false) :
    ∀ e, e = (Dev.unhold 64 (Dev.pump (n + 1) d).deliver).deliver →
    e.alike d ∧ e.cmd.tags = [] ∧ e.cmd.held = [] ∧ e.answered op r (finalFlags f) f ∧ (∀ o ∈ d.out, o ∈ e.out) := by
  intro e he
  have hp := pump_fin op r n d f u ht hh hr hq hq2
  obtain ⟨g, hg⟩ : ∃ g, g = Dev.pump (n + 1) d := ⟨_, rfl⟩
  have a1 : g.cmd.replyQ = [replyOf op r (finalFlags f) f] := by rw [hg, hp]
  have a2 : g.cmd.tags = [] := by rw [hg, hp]
  have a3 : g.cmd.held = [] := by rw [hg, hp]; exact hh
  have a4 : g.alike d := by rw [hg, hp]; rfl
  have a5 : (g.q 1).agree = true := by
    have : g.q 1 = { d.q 1 with
      wr := (d.q 1).wr + 1, wr2 := (d.q 1).wr + 1, lastNonEmpty := d.time.now } := by
      rw [hg, hp]
      exact setQ_q d 1 _ (by simp)
    rw [this]
    simp only [QCtl.agree, Bool.and_eq_true, beq_iff_eq] at hq ⊢
    simp [hq]
  have a6 : g.transportDown r.src.tr = false := by
    rw [← hd]
    apply transportDown_core
    · rw [hg, hp]
    · rw [hg, hp]
    · rw [hg, hp]; rfl
    · rw [hg, hp]
  have a7 : ∀ o ∈ d.out, o ∈ g.out := by rw [hg, hp]; exact fun o h => h
  rw [← hg] at he
  have k := deliver_one (replyOf op r (finalFlags f) f) g a1 a5 a6
  rcases k with ⟨k, k'⟩ | ⟨k1, k2, k3, k4, k5, k6⟩
  · rw [k, unhold_nil _ _ a3, k] at he
    rw [he]
    refine ⟨a4, a2, a3, ?_, a7⟩
    unfold Dev.answered
    rw [a1]
    cases h : r.src.tr with
    | spi => exact ⟨_, List.mem_singleton.2 rfl, rfl, rfl⟩
    | udp => exact absurd h k'
    | pcie => exact Or.inl ⟨_, List.mem_singleton.2 rfl, rfl, rfl⟩
  · rw [unhold_nil _ _ (by rw [k3]; exact a3), deliver_nil _ k4] at he
    rw [he]
    refine ⟨alike_trans k1 a4, by rw [k2, a2], by rw [k3, a3], ?_, fun o ho => k6 o (a7 o ho)⟩
    unfold Dev.answered
    rcases k5 with ⟨q1, q2⟩ | ⟨q1, q2⟩
    · rw [show r.src.tr = .udp from q1]; exact q2
    · rw [show r.src.tr = .pcie from q1]; exact Or.inr q2

theorem settle_taken (op r) (d : Dev) (hs : d.serving = true) (hi : d.idle = true) (hg : d.gate op.toNat r = none) :
    (d.taken op r).settle =
      (let d1 := (Dev.unhold 64 (Dev.pump 65 (Dev.takeAnswer { op := op, req := r } ((d.begun op r).runOp op.toNat r))).deliver).deliver
       match d1.life.activating with | some t => if d1.activationReplied t then d1.restart 5 else d1 | none => d1) := by
  have hc := taken_core op r d hi
  simp only [Dev.serving, Bool.and_eq_true] at hs
  have hr : (d.taken op r).runs = true := by rw [← hs.1.1]; exact runs_core hc.2.2.2.1
  have hl : (d.taken op r).life.ready = true := by rw [hc.2.2.2.1]; exact hs.1.2
  unfold Dev.settle
  rw [hr, hl]
  simp only [Bool.not_true, Bool.true_or, Bool.or_self, Bool.false_eq_true, if_false]
  have hi' := hi
  simp only [Dev.idle, Bool.and_eq_true, Option.isNone_iff_eq_none, beq_iff_eq] at hi'
  rw [sweep_quiet _ (by rw [hc.1]; simp_all) (by rw [hc.2.1]; simp_all) (by rw [hc.2.2.1]; simp_all)]
  rewrite [pump_taken op r 65 d hi hg]
  rfl


/-- What an operation's result must leave of the channel for its reply to go out at once. -/
structure Carries (op : Byte) (r : Req) (u : List Resource) (e : Dev) : Prop where
  tags : e.cmd.tags = [{ op := op, req := r, started := true, resources := u }]
  held : e.cmd.held = []
  replyQ : e.cmd.replyQ = []
  agree : (e.q 1).agree = true
  empty : (e.q 1).held = 0
  up : e.transportDown r.src.tr = false

theorem requestIn_exec (i : Instr) (op r) (s : State) (t : Nat)
    (h : exec i s = State.act i t (Dev.requestIn op r) s) (hw : i.wf = true) :
    exec i s = .next { s with dev := ((s.dev.reach t).requestIn op r).after } := by
  rw [h]; unfold State.act; rw [if_pos hw]

theorem served_fin (i : Instr) (op r) (s : State) (t : Nat) (h : exec i s = State.act i t (Dev.requestIn op r) s) (hw : i.wf = true)
    (d : Dev) (hd : d = s.dev.reach t) (ha : d.admits op r = true) (x : OpRes) (hx : x = (d.begun op r).runOp op.toNat r)
    (f : Fin) (hf : x.ans = .fin f) (u : List Resource) (hc : Carries op r u x.dev) (hact : x.dev.life.activating = none) : Served i s op r f x.dev := by
  simp only [Dev.admits, Bool.and_eq_true, Option.isNone_iff_eq_none] at ha
  obtain ⟨⟨⟨⟨hs, hi⟩, hr⟩, hp⟩, hg⟩ := ha
  have e1 := requestIn_exec i op r s t h hw
  rw [← hd, requestIn_ok op r d hs hi hr hp] at e1
  unfold Dev.after at e1
  rw [taken_ring op r d hi, settle_taken op r d hs hi hg, ← hx, takeAnswer_fin op r x f hf u hc.tags] at e1
  obtain ⟨y, hy⟩ : ∃ y : Dev, y = { x.dev with cmd := { x.dev.cmd with tags := [{ op := op, req := r, started := true, resources := u, done := some (f.fitted r.src.tr) }] } } := ⟨_, rfl⟩
  rw [← hy] at e1
  have hyx : y.alike x.dev := by rw [hy]; rfl
  obtain ⟨z, hz⟩ : ∃ z, z = (Dev.unhold 64 (Dev.pump 65 y).deliver).deliver := ⟨_, rfl⟩
  have k := finish_all op r 64 y (f.fitted r.src.tr) u (by rw [hy]) (by rw [hy]; exact hc.held) (by rw [hy]; exact hc.replyQ)
    (by rw [hy]; exact hc.agree) (by rw [hy]; exact hc.empty) (by rw [hy]; exact hc.up) z hz
  rw [← hz] at e1
  have hza : z.alike x.dev := alike_trans k.1 hyx
  have hzl : z.life.activating = none := by rw [(alike_fields hza).1]; exact hact
  simp only [hzl] at e1
  exact ⟨z, e1, k.2.2.2.1, k.2.1, hza⟩

theorem modPend_q (tag : BitVec 6) (f : Pend → Pend) (d : Dev) (i : Nat) : (d.modPend tag f).q i = d.q i := rfl

theorem taken_q (op r) (d : Dev) (hi : d.idle = true) (i : Nat) (h : i ≠ 0) : (d.taken op r).q i = d.q i := by
  have e : (d.taken op r).q i = (((d.touched r).stageHeard op r).setQ 0 { d.q 0 with
      wr := (d.q 0).wr + 1, wr2 := (d.q 0).wr + 1, lastNonEmpty := d.time.now }).q i := by
    unfold Dev.q; rw [taken_eq op r d hi]
    rfl
  rw [e, setQ_ne _ 0 i _ (by simp) h, heard_q, touched_q]

theorem begun_carries (op r) (d : Dev) (hi : d.idle = true) (hr : d.receives op r = true) : Carries op r (d.resourcesOf op.toNat r) (d.begun op r) := by
  have hq := idle_q d hi
  have hagree : ((d.taken op r).q 0).agree = true := by
    rw [taken_q0 op r d hi]
    have := hq.1
    simp only [QCtl.agree, Bool.and_eq_true, beq_iff_eq] at this ⊢
    simp [this]
  have ht : (d.taken op r).cmd.tags = [{ op := op, req := r }] := rfl
  have hi' := hi
  simp only [Dev.idle, Bool.and_eq_true, List.isEmpty_iff, beq_iff_eq] at hi'
  have hb : d.begun op r = Dev.modPend r.tag (fun x => { x with started := true, resources := d.resourcesOf op.toNat r }) ((d.taken op r).qRead 0 1).1 := rfl
  rw [qRead_ok 0 1 _ hagree] at hb
  have hh : (d.touched r).cmd.held = d.cmd.held ∧ (d.touched r).cmd.replyQ = d.cmd.replyQ := by
    unfold Dev.touched; cases r.src.tr <;> exact ⟨rfl, rfl⟩
  have htd : (d.touched r).transportDown r.src.tr = d.transportDown r.src.tr := by
    unfold Dev.touched
    cases r.src.tr <;> rfl
  have h1 : (d.begun op r).q 1 = d.q 1 := by
    rw [hb, modPend_q, setQ_ne _ 0 1 _ (by rw [taken_q0 op r d hi]; simp) (by decide), taken_q op r d hi 1 (by decide)]
  refine ⟨?_, ?_, ?_, by rw [h1]; exact hq.2.2.1, by rw [h1]; exact hq.2.2.2, ?_⟩
  · rw [hb]; simp [Dev.modPend, Dev.setQ, ht]
  · rw [hb, taken_eq op r d hi, heard_keeps]; show (d.touched r).cmd.held = []; rw [hh.1]; simp_all
  · rw [hb, taken_eq op r d hi, heard_keeps]; show (d.touched r).cmd.replyQ = []; rw [hh.2]; simp_all
  · simp only [Dev.receives, Bool.and_eq_true, Bool.not_eq_true'] at hr
    rw [← hr.1, ← htd]
    apply transportDown_core
    · rw [hb, taken_eq op r d hi, heard_keeps]; rfl
    · rw [hb, taken_eq op r d hi, heard_keeps]; rfl
    · rw [hb, taken_eq op r d hi, heard_keeps]; rfl
    · rw [hb, taken_eq op r d hi, heard_keeps]; rfl

theorem begun_act (op r) (d : Dev) (hi : d.idle = true) : (d.begun op r).life.activating = none := by
  rw [(alike_fields (begun_blocks op r d hi)).1, heard_keeps]
  simp only [Dev.idle, Bool.and_eq_true] at hi; simp_all

theorem carries_of {op r u} {a b : Dev} (h : Carries op r u b) (h1 : a.cmd = b.cmd) (h2 : a.cfg.committed = b.cfg.committed) (h3 : a.net = b.net)
    (h4 : a.hw = b.hw) : Carries op r u a := by
  obtain ⟨t1, t2, t3, t4, t5, t6⟩ := h
  refine ⟨by rw [h1, t1], by rw [h1, t2], by rw [h1, t3], ?_, ?_, ?_⟩
  · unfold Dev.q at *; rw [h1]; exact t4
  · unfold Dev.q at *; rw [h1]; exact t5
  · rw [← t6]
    have hp : ∀ x y, a.par x y = b.par x y := by intro x y; unfold Dev.par; rw [h2]
    have hb : ∀ x y, a.parB x y = b.parB x y := by intro x y; unfold Dev.parB; rw [hp]
    cases r.src.tr <;> simp [Dev.transportDown, Dev.udpUp, hb, hp, h1, h3, h4]

theorem answer_accept (op : Byte) (r : Req) (d : Dev) (hh : d.cmd.held = []) (hq : (d.q 1).agree = true) (hq2 : (d.q 1).held = 0) :
    d.answer op r 0 stAccepted 0 [] = { d with cmd := { (d.setQ 1 { d.q 1 with
      wr := (d.q 1).wr + 1, wr2 := (d.q 1).wr + 1, lastNonEmpty := d.time.now }).cmd with
        replyQ := d.cmd.replyQ ++ [replyOf op r 0 { status := stAccepted }] } } := by
  unfold Dev.answer Dev.queueReply
  rw [hh, qPush_ok 1 d hq (by rw [hq2]; decide)]
  simp [Dev.setQ, Dev.raiseQ, hq2, replyOf]

theorem accept_ok (op r) (d : Dev) (u : List Resource) (g : Pend → Pend) (limit : Option Nat) (hc : Carries op r u d) :
    d.accept { op := op, req := r } g limit =
      { d with cmd := { (d.setQ 1 { d.q 1 with
      wr := (d.q 1).wr + 1, wr2 := (d.q 1).wr + 1, lastNonEmpty := d.time.now }).cmd with
        tags := [{ g { op := op, req := r, started := true, resources := u } with
          accepted := true, deadline := limit.map (fun n => d.time.now + n) }],
        replyQ := [replyOf op r 0 { status := stAccepted }] } } := by
  unfold Dev.accept
  have h2 : ∀ y : Dev, y = (d.modPend r.tag (fun x => { g x with
    accepted := true, deadline := limit.map (fun n => d.time.now + n) })) → y.answer op r 0 stAccepted 0 [] =  { d with cmd := { (d.setQ 1 { d.q 1 with
      wr := (d.q 1).wr + 1, wr2 := (d.q 1).wr + 1, lastNonEmpty := d.time.now }).cmd with
        tags := [{ g { op := op, req := r, started := true, resources := u } with
          accepted := true, deadline := limit.map (fun n => d.time.now + n) }],
        replyQ := [replyOf op r 0 { status := stAccepted }] } } := by
    intro y hy
    rw [answer_accept op r y (by rw [hy]; exact hc.held) (by rw [hy]; exact hc.agree) (by rw [hy]; exact hc.empty)]
    rw [hy]
    simp [Dev.modPend, Dev.setQ, hc.tags, hc.replyQ, Dev.q]
  exact h2 _ rfl

theorem pump_wait (d : Dev) (n : Nat) (p : Pend) (ht : d.cmd.tags = [p]) (hd : p.done = none) (hs : p.started = true) : Dev.pump (n + 1) d = d := by
  rw [Dev.pump, release_none d p ht hd]
  simp [Dev.startable, ht, hs]

theorem deliver_reply (rep : Reply) (g d : Dev) (op r fl) (f : Fin) (hrep : rep = replyOf op r fl f) (a1 : g.cmd.replyQ = [rep]) (a3 : g.cmd.held = []) (a4 : g.alike d)
    (a5 : (g.q 1).agree = true) (a6 : g.transportDown r.src.tr = false) :
    ∀ e, e = (Dev.unhold 64 g.deliver).deliver → e.alike d ∧ e.cmd.tags = g.cmd.tags ∧ e.answered op r fl f := by
  intro e he
  subst hrep
  have k := deliver_one (replyOf op r fl f) g a1 a5 a6
  rcases k with ⟨k, k'⟩ | ⟨k1, k2, k3, k4, k5, k6⟩
  · rw [k, unhold_nil _ _ a3, k] at he
    rw [he]
    refine ⟨a4, rfl, ?_⟩
    unfold Dev.answered
    rw [a1]
    cases h : r.src.tr with
    | spi => exact ⟨_, List.mem_singleton.2 rfl, rfl, rfl⟩
    | udp => exact absurd h k'
    | pcie => exact Or.inl ⟨_, List.mem_singleton.2 rfl, rfl, rfl⟩
  · rw [unhold_nil _ _ (by rw [k3]; exact a3), deliver_nil _ k4] at he
    rw [he]
    refine ⟨alike_trans k1 a4, k2, ?_⟩
    unfold Dev.answered
    rcases k5 with ⟨q1, q2⟩ | ⟨q1, q2⟩
    · rw [show r.src.tr = .udp from q1]; exact q2
    · rw [show r.src.tr = .pcie from q1]; exact Or.inr q2

theorem accepted_of (i : Instr) (op r) (s : State) (t : Nat) (h : exec i s = State.act i t (Dev.requestIn op r) s) (hw : i.wf = true)
    (d : Dev) (hd : d = s.dev.reach t) (ha : d.admits op r = true) (x : OpRes) (hx : x = (d.begun op r).runOp op.toNat r)
    (u : List Resource) (g : Pend → Pend) (limit : Option Nat)
    (hf : Dev.takeAnswer { op := op, req := r } x = x.dev.accept { op := op, req := r } g limit)
    (hg : (g { op := op, req := r, started := true, resources := u }).done = none ∧ (g { op := op, req := r, started := true, resources := u }).started = true)
    (hc : Carries op r u x.dev) (hact : x.dev.life.activating = none) :
    Accepted i s op r { g { op := op, req := r, started := true, resources := u } with
          accepted := true, deadline := limit.map (fun n => x.dev.time.now + n) } x.dev := by
  simp only [Dev.admits, Bool.and_eq_true, Option.isNone_iff_eq_none] at ha
  obtain ⟨⟨⟨⟨hs, hi⟩, hr⟩, hp⟩, hgt⟩ := ha
  have e1 := requestIn_exec i op r s t h hw
  rw [← hd, requestIn_ok op r d hs hi hr hp] at e1
  unfold Dev.after at e1
  rw [taken_ring op r d hi, settle_taken op r d hs hi hgt, ← hx, hf, accept_ok op r x.dev u g limit hc] at e1
  obtain ⟨y, hy⟩ : ∃ y : Dev, y = { x.dev with cmd := { (x.dev.setQ 1 { x.dev.q 1 with
      wr := (x.dev.q 1).wr + 1, wr2 := (x.dev.q 1).wr + 1, lastNonEmpty := x.dev.time.now }).cmd with
        tags := [{ g { op := op, req := r, started := true, resources := u } with
          accepted := true, deadline := limit.map (fun n => x.dev.time.now + n) }],
        replyQ := [replyOf op r 0 { status := stAccepted }] } } := ⟨_, rfl⟩
  rw [← hy] at e1
  have hyt : y.cmd.tags = [{ g { op := op, req := r, started := true, resources := u } with
          accepted := true, deadline := limit.map (fun n => x.dev.time.now + n) }] := by rw [hy]
  rw [pump_wait y 64 _ hyt hg.1 hg.2] at e1
  have a5 : (y.q 1).agree = true := by
    have hq := hc.agree
    have : y.q 1 = { x.dev.q 1 with
      wr := (x.dev.q 1).wr + 1, wr2 := (x.dev.q 1).wr + 1, lastNonEmpty := x.dev.time.now } := by
      rw [hy]
      exact setQ_q x.dev 1 _ (by simp)
    rw [this]
    simp only [QCtl.agree, Bool.and_eq_true, beq_iff_eq] at hq ⊢
    simp [hq]
  obtain ⟨z, hz⟩ : ∃ z, z = (Dev.unhold 64 y.deliver).deliver := ⟨_, rfl⟩
  have k := deliver_reply _ y x.dev op r 0 { status := stAccepted } rfl (by rw [hy]) (by rw [hy]; exact hc.held) (by rw [hy]; rfl) a5
    (by rw [← hc.up]; apply transportDown_core <;> (rw [hy]; try rfl)) z hz
  rw [← hz] at e1
  have hzl : z.life.activating = none := by rw [(alike_fields k.1).1]; exact hact
  simp only [hzl] at e1
  exact ⟨z, e1, k.2.2, by rw [k.2.1, hyt], k.1⟩

/-- A request that is admitted finds the channel idle and its transport ready. -/
theorem admits_idle {op r} {d : Dev} (ha : d.admits op r = true) : d.idle = true ∧ d.receives op r = true := by
  simp only [Dev.admits, Bool.and_eq_true] at ha; exact ⟨ha.1.1.1.2, ha.1.1.2⟩

/-- An operation that ends at once: the reply goes out, and the rest is the operation's effect. -/
theorem served_of_run {i : Instr} {op r} {s : State} {t : Nat} {d b : Dev} {f : Fin} (h : exec i s = State.act i t (Dev.requestIn op r) s) (hw : i.wf = true)
   (hd : d = s.dev.reach t) (hb : b = d.begun op r) (ha : d.admits op r = true) (e : Dev) (hx : b.runOp op.toNat r = { dev := e, ans := .fin f })
   (h1 : e.cmd = b.cmd) (h2 : e.cfg.committed = b.cfg.committed) (h3 : e.net = b.net) (h5 : e.hw = b.hw) (h4 : e.life.activating = b.life.activating) :
   Served i s op r f e := by
  subst hb
  have hi := admits_idle ha
  exact served_fin i op r s t h hw d hd ha { dev := e, ans := .fin f } hx.symm f rfl _ (carries_of (begun_carries _ _ d hi.1 hi.2) h1 h2 h3 h5)
    (by show e.life.activating = none; rw [h4]; exact begun_act _ _ d hi.1)

/-- A deferred operation: ACCEPTED goes out and the request stays. -/
theorem accepted_of_run {i : Instr} {op r} {s : State} {t : Nat} {d b : Dev} (h : exec i s = State.act i t (Dev.requestIn op r) s) (hw : i.wf = true)
   (hd : d = s.dev.reach t) (hb : b = d.begun op r) (ha : d.admits op r = true) (e : Dev) (limit : Option Nat) (hx : b.runOp op.toNat r = { dev := e, ans := .defer limit })
   (h1 : e.cmd = b.cmd) (h2 : e.cfg.committed = b.cfg.committed) (h3 : e.net = b.net) (h5 : e.hw = b.hw) (h4 : e.life.activating = b.life.activating) :
   Accepted i s op r { op := op, req := r, started := true, accepted := true, resources := d.resourcesOf op.toNat r, deadline := limit.map (fun n => e.time.now + n) } e := by
  subst hb
  have hi := admits_idle ha
  exact accepted_of i op r s t h hw d hd ha { dev := e, ans := .defer limit } hx.symm _ id limit rfl ⟨rfl, rfl⟩ (carries_of (begun_carries _ _ d hi.1 hi.2) h1 h2 h3 h5)
    (by show e.life.activating = none; rw [h4]; exact begun_act _ _ d hi.1)

/-- A standing request (R45, R90). -/
theorem standing_of_run {i : Instr} {op r} {s : State} {t : Nat} {d b : Dev} (h : exec i s = State.act i t (Dev.requestIn op r) s) (hw : i.wf = true)
   (hd : d = s.dev.reach t) (hb : b = d.begun op r) (ha : d.admits op r = true) (e : Dev) (hx : b.runOp op.toNat r = { dev := e, ans := .stand })
   (h1 : e.cmd = b.cmd) (h2 : e.cfg.committed = b.cfg.committed) (h3 : e.net = b.net) (h5 : e.hw = b.hw) (h4 : e.life.activating = b.life.activating) :
   Accepted i s op r { op := op, req := r, started := true, accepted := true, standing := true, resources := d.resourcesOf op.toNat r } e := by
  subst hb
  have hi := admits_idle ha
  exact accepted_of i op r s t h hw d hd ha { dev := e, ans := .stand } hx.symm _ (fun y => { y with standing := true }) none rfl ⟨rfl, rfl⟩ (carries_of (begun_carries _ _ d hi.1 hi.2) h1 h2 h3 h5)
    (by show e.life.activating = none; rw [h4]; exact begun_act _ _ d hi.1)

/-- A fan-out with a member still open (R75). -/
theorem fan_of_run {i : Instr} {op r} {s : State} {t : Nat} {d b : Dev} (h : exec i s = State.act i t (Dev.requestIn op r) s) (hw : i.wf = true)
   (hd : d = s.dev.reach t) (hb : b = d.begun op r) (ha : d.admits op r = true) (e : Dev) (k : Nat) (ms : List (Nat × Option Half)) (limit : Option Nat) (hx : b.runOp op.toNat r = { dev := e, ans := .fan k ms limit })
   (hm : ms.all (fun m => m.2.isSome) = false)
   (h1 : e.cmd = b.cmd) (h2 : e.cfg.committed = b.cfg.committed) (h3 : e.net = b.net) (h5 : e.hw = b.hw) (h4 : e.life.activating = b.life.activating) :
   Accepted i s op r { op := op, req := r, started := true, accepted := true, members := ms, resources := d.resourcesOf op.toNat r, deadline := limit.map (fun n => e.time.now + n) } e := by
  subst hb
  have hi := admits_idle ha
  exact accepted_of i op r s t h hw d hd ha { dev := e, ans := .fan k ms limit } hx.symm _ (fun y => { y with members := ms }) limit (by simp only [Dev.takeAnswer, hm]; rfl) ⟨rfl, rfl⟩ (carries_of (begun_carries _ _ d hi.1 hi.2) h1 h2 h3 h5)
    (by show e.life.activating = none; rw [h4]; exact begun_act _ _ d hi.1)

end Sys2Proof.Machine
end

