-- ==== Sys2Proof/Laws/State.lean ====
section
/-! SUPPORT. Laws/State.lean: what each update of one part of the module leaves of every other part: one lemma for each field and
update, and what it makes of its own. -/

namespace Sys2Proof.Machine

open Sys2Proof

/-! Dev.emit -/

@[simp] theorem Dev.emit_time (o : Out) (d : Dev) : (Dev.emit o d).time = d.time := rfl
@[simp] theorem Dev.emit_pps (o : Out) (d : Dev) : (Dev.emit o d).pps = d.pps := rfl
@[simp] theorem Dev.emit_frame (o : Out) (d : Dev) : (Dev.emit o d).frame = d.frame := rfl
@[simp] theorem Dev.emit_cmd (o : Out) (d : Dev) : (Dev.emit o d).cmd = d.cmd := rfl
@[simp] theorem Dev.emit_cfg (o : Out) (d : Dev) : (Dev.emit o d).cfg = d.cfg := rfl
@[simp] theorem Dev.emit_image (o : Out) (d : Dev) : (Dev.emit o d).image = d.image := rfl
@[simp] theorem Dev.emit_flows (o : Out) (d : Dev) : (Dev.emit o d).flows = d.flows := rfl
@[simp] theorem Dev.emit_acq (o : Out) (d : Dev) : (Dev.emit o d).acq = d.acq := rfl
@[simp] theorem Dev.emit_gnss (o : Out) (d : Dev) : (Dev.emit o d).gnss = d.gnss := rfl
@[simp] theorem Dev.emit_fusion (o : Out) (d : Dev) : (Dev.emit o d).fusion = d.fusion := rfl
@[simp] theorem Dev.emit_solver (o : Out) (d : Dev) : (Dev.emit o d).solver = d.solver := rfl
@[simp] theorem Dev.emit_conseq (o : Out) (d : Dev) : (Dev.emit o d).conseq = d.conseq := rfl
@[simp] theorem Dev.emit_engine (o : Out) (d : Dev) : (Dev.emit o d).engine = d.engine := rfl
@[simp] theorem Dev.emit_probes (o : Out) (d : Dev) : (Dev.emit o d).probes = d.probes := rfl
@[simp] theorem Dev.emit_plant (o : Out) (d : Dev) : (Dev.emit o d).plant = d.plant := rfl
@[simp] theorem Dev.emit_net (o : Out) (d : Dev) : (Dev.emit o d).net = d.net := rfl
@[simp] theorem Dev.emit_can (o : Out) (d : Dev) : (Dev.emit o d).can = d.can := rfl
@[simp] theorem Dev.emit_clasp (o : Out) (d : Dev) : (Dev.emit o d).clasp = d.clasp := rfl
@[simp] theorem Dev.emit_island (o : Out) (d : Dev) : (Dev.emit o d).island = d.island := rfl
@[simp] theorem Dev.emit_health (o : Out) (d : Dev) : (Dev.emit o d).health = d.health := rfl
@[simp] theorem Dev.emit_faults (o : Out) (d : Dev) : (Dev.emit o d).faults = d.faults := rfl
@[simp] theorem Dev.emit_locket (o : Out) (d : Dev) : (Dev.emit o d).locket = d.locket := rfl
@[simp] theorem Dev.emit_life (o : Out) (d : Dev) : (Dev.emit o d).life = d.life := rfl
@[simp] theorem Dev.emit_hw (o : Out) (d : Dev) : (Dev.emit o d).hw = d.hw := rfl
@[simp] theorem Dev.emit_nvm (o : Out) (d : Dev) : (Dev.emit o d).nvm = d.nvm := rfl
@[simp] theorem Dev.emit_free (o : Out) (d : Dev) : (Dev.emit o d).free = d.free := rfl
@[simp] theorem Dev.emit_out (o : Out) (d : Dev) : (Dev.emit o d).out = o :: d.out := rfl

/-! Dev.fresh -/

@[simp] theorem Dev.fresh_time (d : Dev) : (Dev.fresh d).time = d.time := rfl
@[simp] theorem Dev.fresh_pps (d : Dev) : (Dev.fresh d).pps = d.pps := rfl
@[simp] theorem Dev.fresh_frame (d : Dev) : (Dev.fresh d).frame = d.frame := rfl
@[simp] theorem Dev.fresh_cmd (d : Dev) : (Dev.fresh d).cmd = d.cmd := rfl
@[simp] theorem Dev.fresh_cfg (d : Dev) : (Dev.fresh d).cfg = d.cfg := rfl
@[simp] theorem Dev.fresh_image (d : Dev) : (Dev.fresh d).image = d.image := rfl
@[simp] theorem Dev.fresh_flows (d : Dev) : (Dev.fresh d).flows = d.flows := rfl
@[simp] theorem Dev.fresh_acq (d : Dev) : (Dev.fresh d).acq = d.acq := rfl
@[simp] theorem Dev.fresh_gnss (d : Dev) : (Dev.fresh d).gnss = d.gnss := rfl
@[simp] theorem Dev.fresh_fusion (d : Dev) : (Dev.fresh d).fusion = d.fusion := rfl
@[simp] theorem Dev.fresh_solver (d : Dev) : (Dev.fresh d).solver = d.solver := rfl
@[simp] theorem Dev.fresh_conseq (d : Dev) : (Dev.fresh d).conseq = d.conseq := rfl
@[simp] theorem Dev.fresh_engine (d : Dev) : (Dev.fresh d).engine = d.engine := rfl
@[simp] theorem Dev.fresh_probes (d : Dev) : (Dev.fresh d).probes = d.probes := rfl
@[simp] theorem Dev.fresh_plant (d : Dev) : (Dev.fresh d).plant = d.plant := rfl
@[simp] theorem Dev.fresh_net (d : Dev) : (Dev.fresh d).net = d.net := rfl
@[simp] theorem Dev.fresh_can (d : Dev) : (Dev.fresh d).can = d.can := rfl
@[simp] theorem Dev.fresh_clasp (d : Dev) : (Dev.fresh d).clasp = d.clasp := rfl
@[simp] theorem Dev.fresh_island (d : Dev) : (Dev.fresh d).island = d.island := rfl
@[simp] theorem Dev.fresh_health (d : Dev) : (Dev.fresh d).health = d.health := rfl
@[simp] theorem Dev.fresh_faults (d : Dev) : (Dev.fresh d).faults = d.faults := rfl
@[simp] theorem Dev.fresh_locket (d : Dev) : (Dev.fresh d).locket = d.locket := rfl
@[simp] theorem Dev.fresh_life (d : Dev) : (Dev.fresh d).life = d.life := rfl
@[simp] theorem Dev.fresh_hw (d : Dev) : (Dev.fresh d).hw = d.hw := rfl
@[simp] theorem Dev.fresh_nvm (d : Dev) : (Dev.fresh d).nvm = d.nvm := rfl
@[simp] theorem Dev.fresh_out (d : Dev) : (Dev.fresh d).out = d.out := rfl
@[simp] theorem Dev.fresh_free (d : Dev) : (Dev.fresh d).free = d.free + 1 := rfl

/-! Dev.setQ -/

@[simp] theorem Dev.setQ_time (i : Nat) (c : QCtl) (d : Dev) : (Dev.setQ i c d).time = d.time := rfl
@[simp] theorem Dev.setQ_pps (i : Nat) (c : QCtl) (d : Dev) : (Dev.setQ i c d).pps = d.pps := rfl
@[simp] theorem Dev.setQ_frame (i : Nat) (c : QCtl) (d : Dev) : (Dev.setQ i c d).frame = d.frame := rfl
@[simp] theorem Dev.setQ_cfg (i : Nat) (c : QCtl) (d : Dev) : (Dev.setQ i c d).cfg = d.cfg := rfl
@[simp] theorem Dev.setQ_image (i : Nat) (c : QCtl) (d : Dev) : (Dev.setQ i c d).image = d.image := rfl
@[simp] theorem Dev.setQ_flows (i : Nat) (c : QCtl) (d : Dev) : (Dev.setQ i c d).flows = d.flows := rfl
@[simp] theorem Dev.setQ_acq (i : Nat) (c : QCtl) (d : Dev) : (Dev.setQ i c d).acq = d.acq := rfl
@[simp] theorem Dev.setQ_gnss (i : Nat) (c : QCtl) (d : Dev) : (Dev.setQ i c d).gnss = d.gnss := rfl
@[simp] theorem Dev.setQ_fusion (i : Nat) (c : QCtl) (d : Dev) : (Dev.setQ i c d).fusion = d.fusion := rfl
@[simp] theorem Dev.setQ_solver (i : Nat) (c : QCtl) (d : Dev) : (Dev.setQ i c d).solver = d.solver := rfl
@[simp] theorem Dev.setQ_conseq (i : Nat) (c : QCtl) (d : Dev) : (Dev.setQ i c d).conseq = d.conseq := rfl
@[simp] theorem Dev.setQ_engine (i : Nat) (c : QCtl) (d : Dev) : (Dev.setQ i c d).engine = d.engine := rfl
@[simp] theorem Dev.setQ_probes (i : Nat) (c : QCtl) (d : Dev) : (Dev.setQ i c d).probes = d.probes := rfl
@[simp] theorem Dev.setQ_plant (i : Nat) (c : QCtl) (d : Dev) : (Dev.setQ i c d).plant = d.plant := rfl
@[simp] theorem Dev.setQ_net (i : Nat) (c : QCtl) (d : Dev) : (Dev.setQ i c d).net = d.net := rfl
@[simp] theorem Dev.setQ_can (i : Nat) (c : QCtl) (d : Dev) : (Dev.setQ i c d).can = d.can := rfl
@[simp] theorem Dev.setQ_clasp (i : Nat) (c : QCtl) (d : Dev) : (Dev.setQ i c d).clasp = d.clasp := rfl
@[simp] theorem Dev.setQ_island (i : Nat) (c : QCtl) (d : Dev) : (Dev.setQ i c d).island = d.island := rfl
@[simp] theorem Dev.setQ_health (i : Nat) (c : QCtl) (d : Dev) : (Dev.setQ i c d).health = d.health := rfl
@[simp] theorem Dev.setQ_faults (i : Nat) (c : QCtl) (d : Dev) : (Dev.setQ i c d).faults = d.faults := rfl
@[simp] theorem Dev.setQ_locket (i : Nat) (c : QCtl) (d : Dev) : (Dev.setQ i c d).locket = d.locket := rfl
@[simp] theorem Dev.setQ_life (i : Nat) (c : QCtl) (d : Dev) : (Dev.setQ i c d).life = d.life := rfl
@[simp] theorem Dev.setQ_hw (i : Nat) (c : QCtl) (d : Dev) : (Dev.setQ i c d).hw = d.hw := rfl
@[simp] theorem Dev.setQ_nvm (i : Nat) (c : QCtl) (d : Dev) : (Dev.setQ i c d).nvm = d.nvm := rfl
@[simp] theorem Dev.setQ_out (i : Nat) (c : QCtl) (d : Dev) : (Dev.setQ i c d).out = d.out := rfl
@[simp] theorem Dev.setQ_free (i : Nat) (c : QCtl) (d : Dev) : (Dev.setQ i c d).free = d.free := rfl

/-! Dev.setPt -/

@[simp] theorem Dev.setPt_time (i : Nat) (p : Point) (d : Dev) : (Dev.setPt i p d).time = d.time := by
  unfold Dev.setPt Dev.markPt; dsimp only; (repeat' split) <;> rfl
@[simp] theorem Dev.setPt_pps (i : Nat) (p : Point) (d : Dev) : (Dev.setPt i p d).pps = d.pps := by
  unfold Dev.setPt Dev.markPt; dsimp only; (repeat' split) <;> rfl
@[simp] theorem Dev.setPt_frame (i : Nat) (p : Point) (d : Dev) : (Dev.setPt i p d).frame = d.frame := by
  unfold Dev.setPt Dev.markPt; dsimp only; (repeat' split) <;> rfl
@[simp] theorem Dev.setPt_cmd (i : Nat) (p : Point) (d : Dev) : (Dev.setPt i p d).cmd = d.cmd := by
  unfold Dev.setPt Dev.markPt; dsimp only; (repeat' split) <;> rfl
@[simp] theorem Dev.setPt_cfg (i : Nat) (p : Point) (d : Dev) : (Dev.setPt i p d).cfg = d.cfg := by
  unfold Dev.setPt Dev.markPt; dsimp only; (repeat' split) <;> rfl
@[simp] theorem Dev.setPt_flows (i : Nat) (p : Point) (d : Dev) : (Dev.setPt i p d).flows = d.flows := by
  unfold Dev.setPt Dev.markPt; dsimp only; (repeat' split) <;> rfl
@[simp] theorem Dev.setPt_acq (i : Nat) (p : Point) (d : Dev) : (Dev.setPt i p d).acq = d.acq := by
  unfold Dev.setPt Dev.markPt; dsimp only; (repeat' split) <;> rfl
@[simp] theorem Dev.setPt_gnss (i : Nat) (p : Point) (d : Dev) : (Dev.setPt i p d).gnss = d.gnss := by
  unfold Dev.setPt Dev.markPt; dsimp only; (repeat' split) <;> rfl
@[simp] theorem Dev.setPt_fusion (i : Nat) (p : Point) (d : Dev) : (Dev.setPt i p d).fusion = d.fusion := by
  unfold Dev.setPt Dev.markPt; dsimp only; (repeat' split) <;> rfl
@[simp] theorem Dev.setPt_solver (i : Nat) (p : Point) (d : Dev) : (Dev.setPt i p d).solver = d.solver := by
  unfold Dev.setPt Dev.markPt; dsimp only; (repeat' split) <;> rfl
@[simp] theorem Dev.setPt_conseq (i : Nat) (p : Point) (d : Dev) : (Dev.setPt i p d).conseq = d.conseq := by
  unfold Dev.setPt Dev.markPt; dsimp only; (repeat' split) <;> rfl
@[simp] theorem Dev.setPt_engine (i : Nat) (p : Point) (d : Dev) : (Dev.setPt i p d).engine = d.engine := by
  unfold Dev.setPt Dev.markPt; dsimp only; (repeat' split) <;> rfl
@[simp] theorem Dev.setPt_probes (i : Nat) (p : Point) (d : Dev) : (Dev.setPt i p d).probes = d.probes := by
  unfold Dev.setPt Dev.markPt; dsimp only; (repeat' split) <;> rfl
@[simp] theorem Dev.setPt_plant (i : Nat) (p : Point) (d : Dev) : (Dev.setPt i p d).plant = d.plant := by
  unfold Dev.setPt Dev.markPt; dsimp only; (repeat' split) <;> rfl
@[simp] theorem Dev.setPt_net (i : Nat) (p : Point) (d : Dev) : (Dev.setPt i p d).net = d.net := by
  unfold Dev.setPt Dev.markPt; dsimp only; (repeat' split) <;> rfl
@[simp] theorem Dev.setPt_can (i : Nat) (p : Point) (d : Dev) : (Dev.setPt i p d).can = d.can := by
  unfold Dev.setPt Dev.markPt; dsimp only; (repeat' split) <;> rfl
@[simp] theorem Dev.setPt_clasp (i : Nat) (p : Point) (d : Dev) : (Dev.setPt i p d).clasp = d.clasp := by
  unfold Dev.setPt Dev.markPt; dsimp only; (repeat' split) <;> rfl
@[simp] theorem Dev.setPt_island (i : Nat) (p : Point) (d : Dev) : (Dev.setPt i p d).island = d.island := by
  unfold Dev.setPt Dev.markPt; dsimp only; (repeat' split) <;> rfl
@[simp] theorem Dev.setPt_health (i : Nat) (p : Point) (d : Dev) : (Dev.setPt i p d).health = d.health := by
  unfold Dev.setPt Dev.markPt; dsimp only; (repeat' split) <;> rfl
@[simp] theorem Dev.setPt_faults (i : Nat) (p : Point) (d : Dev) : (Dev.setPt i p d).faults = d.faults := by
  unfold Dev.setPt Dev.markPt; dsimp only; (repeat' split) <;> rfl
@[simp] theorem Dev.setPt_locket (i : Nat) (p : Point) (d : Dev) : (Dev.setPt i p d).locket = d.locket := by
  unfold Dev.setPt Dev.markPt; dsimp only; (repeat' split) <;> rfl
@[simp] theorem Dev.setPt_life (i : Nat) (p : Point) (d : Dev) : (Dev.setPt i p d).life = d.life := by
  unfold Dev.setPt Dev.markPt; dsimp only; (repeat' split) <;> rfl
@[simp] theorem Dev.setPt_hw (i : Nat) (p : Point) (d : Dev) : (Dev.setPt i p d).hw = d.hw := by
  unfold Dev.setPt Dev.markPt; dsimp only; (repeat' split) <;> rfl
@[simp] theorem Dev.setPt_nvm (i : Nat) (p : Point) (d : Dev) : (Dev.setPt i p d).nvm = d.nvm := by
  unfold Dev.setPt Dev.markPt; dsimp only; (repeat' split) <;> rfl
@[simp] theorem Dev.setPt_out (i : Nat) (p : Point) (d : Dev) : (Dev.setPt i p d).out = d.out := by
  unfold Dev.setPt Dev.markPt; dsimp only; (repeat' split) <;> rfl
@[simp] theorem Dev.setPt_free (i : Nat) (p : Point) (d : Dev) : (Dev.setPt i p d).free = d.free := by
  unfold Dev.setPt Dev.markPt; dsimp only; (repeat' split) <;> rfl

/-! Dev.markPt -/

@[simp] theorem Dev.markPt_time (i : Nat) (d : Dev) : (Dev.markPt i d).time = d.time := by
  unfold Dev.markPt; dsimp only; (repeat' split) <;> rfl
@[simp] theorem Dev.markPt_pps (i : Nat) (d : Dev) : (Dev.markPt i d).pps = d.pps := by
  unfold Dev.markPt; dsimp only; (repeat' split) <;> rfl
@[simp] theorem Dev.markPt_frame (i : Nat) (d : Dev) : (Dev.markPt i d).frame = d.frame := by
  unfold Dev.markPt; dsimp only; (repeat' split) <;> rfl
@[simp] theorem Dev.markPt_cmd (i : Nat) (d : Dev) : (Dev.markPt i d).cmd = d.cmd := by
  unfold Dev.markPt; dsimp only; (repeat' split) <;> rfl
@[simp] theorem Dev.markPt_cfg (i : Nat) (d : Dev) : (Dev.markPt i d).cfg = d.cfg := by
  unfold Dev.markPt; dsimp only; (repeat' split) <;> rfl
@[simp] theorem Dev.markPt_flows (i : Nat) (d : Dev) : (Dev.markPt i d).flows = d.flows := by
  unfold Dev.markPt; dsimp only; (repeat' split) <;> rfl
@[simp] theorem Dev.markPt_acq (i : Nat) (d : Dev) : (Dev.markPt i d).acq = d.acq := by
  unfold Dev.markPt; dsimp only; (repeat' split) <;> rfl
@[simp] theorem Dev.markPt_gnss (i : Nat) (d : Dev) : (Dev.markPt i d).gnss = d.gnss := by
  unfold Dev.markPt; dsimp only; (repeat' split) <;> rfl
@[simp] theorem Dev.markPt_fusion (i : Nat) (d : Dev) : (Dev.markPt i d).fusion = d.fusion := by
  unfold Dev.markPt; dsimp only; (repeat' split) <;> rfl
@[simp] theorem Dev.markPt_solver (i : Nat) (d : Dev) : (Dev.markPt i d).solver = d.solver := by
  unfold Dev.markPt; dsimp only; (repeat' split) <;> rfl
@[simp] theorem Dev.markPt_conseq (i : Nat) (d : Dev) : (Dev.markPt i d).conseq = d.conseq := by
  unfold Dev.markPt; dsimp only; (repeat' split) <;> rfl
@[simp] theorem Dev.markPt_engine (i : Nat) (d : Dev) : (Dev.markPt i d).engine = d.engine := by
  unfold Dev.markPt; dsimp only; (repeat' split) <;> rfl
@[simp] theorem Dev.markPt_probes (i : Nat) (d : Dev) : (Dev.markPt i d).probes = d.probes := by
  unfold Dev.markPt; dsimp only; (repeat' split) <;> rfl
@[simp] theorem Dev.markPt_plant (i : Nat) (d : Dev) : (Dev.markPt i d).plant = d.plant := by
  unfold Dev.markPt; dsimp only; (repeat' split) <;> rfl
@[simp] theorem Dev.markPt_net (i : Nat) (d : Dev) : (Dev.markPt i d).net = d.net := by
  unfold Dev.markPt; dsimp only; (repeat' split) <;> rfl
@[simp] theorem Dev.markPt_can (i : Nat) (d : Dev) : (Dev.markPt i d).can = d.can := by
  unfold Dev.markPt; dsimp only; (repeat' split) <;> rfl
@[simp] theorem Dev.markPt_clasp (i : Nat) (d : Dev) : (Dev.markPt i d).clasp = d.clasp := by
  unfold Dev.markPt; dsimp only; (repeat' split) <;> rfl
@[simp] theorem Dev.markPt_island (i : Nat) (d : Dev) : (Dev.markPt i d).island = d.island := by
  unfold Dev.markPt; dsimp only; (repeat' split) <;> rfl
@[simp] theorem Dev.markPt_health (i : Nat) (d : Dev) : (Dev.markPt i d).health = d.health := by
  unfold Dev.markPt; dsimp only; (repeat' split) <;> rfl
@[simp] theorem Dev.markPt_faults (i : Nat) (d : Dev) : (Dev.markPt i d).faults = d.faults := by
  unfold Dev.markPt; dsimp only; (repeat' split) <;> rfl
@[simp] theorem Dev.markPt_locket (i : Nat) (d : Dev) : (Dev.markPt i d).locket = d.locket := by
  unfold Dev.markPt; dsimp only; (repeat' split) <;> rfl
@[simp] theorem Dev.markPt_life (i : Nat) (d : Dev) : (Dev.markPt i d).life = d.life := by
  unfold Dev.markPt; dsimp only; (repeat' split) <;> rfl
@[simp] theorem Dev.markPt_hw (i : Nat) (d : Dev) : (Dev.markPt i d).hw = d.hw := by
  unfold Dev.markPt; dsimp only; (repeat' split) <;> rfl
@[simp] theorem Dev.markPt_nvm (i : Nat) (d : Dev) : (Dev.markPt i d).nvm = d.nvm := by
  unfold Dev.markPt; dsimp only; (repeat' split) <;> rfl
@[simp] theorem Dev.markPt_out (i : Nat) (d : Dev) : (Dev.markPt i d).out = d.out := by
  unfold Dev.markPt; dsimp only; (repeat' split) <;> rfl
@[simp] theorem Dev.markPt_free (i : Nat) (d : Dev) : (Dev.markPt i d).free = d.free := by
  unfold Dev.markPt; dsimp only; (repeat' split) <;> rfl

/-! Dev.modPend -/

@[simp] theorem Dev.modPend_time (g : BitVec 6) (f : Pend → Pend) (d : Dev) : (Dev.modPend g f d).time = d.time := rfl
@[simp] theorem Dev.modPend_pps (g : BitVec 6) (f : Pend → Pend) (d : Dev) : (Dev.modPend g f d).pps = d.pps := rfl
@[simp] theorem Dev.modPend_frame (g : BitVec 6) (f : Pend → Pend) (d : Dev) : (Dev.modPend g f d).frame = d.frame := rfl
@[simp] theorem Dev.modPend_cfg (g : BitVec 6) (f : Pend → Pend) (d : Dev) : (Dev.modPend g f d).cfg = d.cfg := rfl
@[simp] theorem Dev.modPend_image (g : BitVec 6) (f : Pend → Pend) (d : Dev) : (Dev.modPend g f d).image = d.image := rfl
@[simp] theorem Dev.modPend_flows (g : BitVec 6) (f : Pend → Pend) (d : Dev) : (Dev.modPend g f d).flows = d.flows := rfl
@[simp] theorem Dev.modPend_acq (g : BitVec 6) (f : Pend → Pend) (d : Dev) : (Dev.modPend g f d).acq = d.acq := rfl
@[simp] theorem Dev.modPend_gnss (g : BitVec 6) (f : Pend → Pend) (d : Dev) : (Dev.modPend g f d).gnss = d.gnss := rfl
@[simp] theorem Dev.modPend_fusion (g : BitVec 6) (f : Pend → Pend) (d : Dev) : (Dev.modPend g f d).fusion = d.fusion := rfl
@[simp] theorem Dev.modPend_solver (g : BitVec 6) (f : Pend → Pend) (d : Dev) : (Dev.modPend g f d).solver = d.solver := rfl
@[simp] theorem Dev.modPend_conseq (g : BitVec 6) (f : Pend → Pend) (d : Dev) : (Dev.modPend g f d).conseq = d.conseq := rfl
@[simp] theorem Dev.modPend_engine (g : BitVec 6) (f : Pend → Pend) (d : Dev) : (Dev.modPend g f d).engine = d.engine := rfl
@[simp] theorem Dev.modPend_probes (g : BitVec 6) (f : Pend → Pend) (d : Dev) : (Dev.modPend g f d).probes = d.probes := rfl
@[simp] theorem Dev.modPend_plant (g : BitVec 6) (f : Pend → Pend) (d : Dev) : (Dev.modPend g f d).plant = d.plant := rfl
@[simp] theorem Dev.modPend_net (g : BitVec 6) (f : Pend → Pend) (d : Dev) : (Dev.modPend g f d).net = d.net := rfl
@[simp] theorem Dev.modPend_can (g : BitVec 6) (f : Pend → Pend) (d : Dev) : (Dev.modPend g f d).can = d.can := rfl
@[simp] theorem Dev.modPend_clasp (g : BitVec 6) (f : Pend → Pend) (d : Dev) : (Dev.modPend g f d).clasp = d.clasp := rfl
@[simp] theorem Dev.modPend_island (g : BitVec 6) (f : Pend → Pend) (d : Dev) : (Dev.modPend g f d).island = d.island := rfl
@[simp] theorem Dev.modPend_health (g : BitVec 6) (f : Pend → Pend) (d : Dev) : (Dev.modPend g f d).health = d.health := rfl
@[simp] theorem Dev.modPend_faults (g : BitVec 6) (f : Pend → Pend) (d : Dev) : (Dev.modPend g f d).faults = d.faults := rfl
@[simp] theorem Dev.modPend_locket (g : BitVec 6) (f : Pend → Pend) (d : Dev) : (Dev.modPend g f d).locket = d.locket := rfl
@[simp] theorem Dev.modPend_life (g : BitVec 6) (f : Pend → Pend) (d : Dev) : (Dev.modPend g f d).life = d.life := rfl
@[simp] theorem Dev.modPend_hw (g : BitVec 6) (f : Pend → Pend) (d : Dev) : (Dev.modPend g f d).hw = d.hw := rfl
@[simp] theorem Dev.modPend_nvm (g : BitVec 6) (f : Pend → Pend) (d : Dev) : (Dev.modPend g f d).nvm = d.nvm := rfl
@[simp] theorem Dev.modPend_out (g : BitVec 6) (f : Pend → Pend) (d : Dev) : (Dev.modPend g f d).out = d.out := rfl
@[simp] theorem Dev.modPend_free (g : BitVec 6) (f : Pend → Pend) (d : Dev) : (Dev.modPend g f d).free = d.free := rfl

/-! Dev.modPcie -/

@[simp] theorem Dev.modPcie_time (f : Pcie → Pcie) (d : Dev) : (Dev.modPcie f d).time = d.time := rfl
@[simp] theorem Dev.modPcie_pps (f : Pcie → Pcie) (d : Dev) : (Dev.modPcie f d).pps = d.pps := rfl
@[simp] theorem Dev.modPcie_frame (f : Pcie → Pcie) (d : Dev) : (Dev.modPcie f d).frame = d.frame := rfl
@[simp] theorem Dev.modPcie_cfg (f : Pcie → Pcie) (d : Dev) : (Dev.modPcie f d).cfg = d.cfg := rfl
@[simp] theorem Dev.modPcie_image (f : Pcie → Pcie) (d : Dev) : (Dev.modPcie f d).image = d.image := rfl
@[simp] theorem Dev.modPcie_flows (f : Pcie → Pcie) (d : Dev) : (Dev.modPcie f d).flows = d.flows := rfl
@[simp] theorem Dev.modPcie_acq (f : Pcie → Pcie) (d : Dev) : (Dev.modPcie f d).acq = d.acq := rfl
@[simp] theorem Dev.modPcie_gnss (f : Pcie → Pcie) (d : Dev) : (Dev.modPcie f d).gnss = d.gnss := rfl
@[simp] theorem Dev.modPcie_fusion (f : Pcie → Pcie) (d : Dev) : (Dev.modPcie f d).fusion = d.fusion := rfl
@[simp] theorem Dev.modPcie_solver (f : Pcie → Pcie) (d : Dev) : (Dev.modPcie f d).solver = d.solver := rfl
@[simp] theorem Dev.modPcie_conseq (f : Pcie → Pcie) (d : Dev) : (Dev.modPcie f d).conseq = d.conseq := rfl
@[simp] theorem Dev.modPcie_engine (f : Pcie → Pcie) (d : Dev) : (Dev.modPcie f d).engine = d.engine := rfl
@[simp] theorem Dev.modPcie_probes (f : Pcie → Pcie) (d : Dev) : (Dev.modPcie f d).probes = d.probes := rfl
@[simp] theorem Dev.modPcie_plant (f : Pcie → Pcie) (d : Dev) : (Dev.modPcie f d).plant = d.plant := rfl
@[simp] theorem Dev.modPcie_net (f : Pcie → Pcie) (d : Dev) : (Dev.modPcie f d).net = d.net := rfl
@[simp] theorem Dev.modPcie_can (f : Pcie → Pcie) (d : Dev) : (Dev.modPcie f d).can = d.can := rfl
@[simp] theorem Dev.modPcie_clasp (f : Pcie → Pcie) (d : Dev) : (Dev.modPcie f d).clasp = d.clasp := rfl
@[simp] theorem Dev.modPcie_island (f : Pcie → Pcie) (d : Dev) : (Dev.modPcie f d).island = d.island := rfl
@[simp] theorem Dev.modPcie_health (f : Pcie → Pcie) (d : Dev) : (Dev.modPcie f d).health = d.health := rfl
@[simp] theorem Dev.modPcie_faults (f : Pcie → Pcie) (d : Dev) : (Dev.modPcie f d).faults = d.faults := rfl
@[simp] theorem Dev.modPcie_locket (f : Pcie → Pcie) (d : Dev) : (Dev.modPcie f d).locket = d.locket := rfl
@[simp] theorem Dev.modPcie_life (f : Pcie → Pcie) (d : Dev) : (Dev.modPcie f d).life = d.life := rfl
@[simp] theorem Dev.modPcie_hw (f : Pcie → Pcie) (d : Dev) : (Dev.modPcie f d).hw = d.hw := rfl
@[simp] theorem Dev.modPcie_nvm (f : Pcie → Pcie) (d : Dev) : (Dev.modPcie f d).nvm = d.nvm := rfl
@[simp] theorem Dev.modPcie_out (f : Pcie → Pcie) (d : Dev) : (Dev.modPcie f d).out = d.out := rfl
@[simp] theorem Dev.modPcie_free (f : Pcie → Pcie) (d : Dev) : (Dev.modPcie f d).free = d.free := rfl

/-! Dev.slotTaken -/

@[simp] theorem Dev.slotTaken_time (d : Dev) : (Dev.slotTaken d).time = d.time := rfl
@[simp] theorem Dev.slotTaken_pps (d : Dev) : (Dev.slotTaken d).pps = d.pps := rfl
@[simp] theorem Dev.slotTaken_frame (d : Dev) : (Dev.slotTaken d).frame = d.frame := rfl
@[simp] theorem Dev.slotTaken_cfg (d : Dev) : (Dev.slotTaken d).cfg = d.cfg := rfl
@[simp] theorem Dev.slotTaken_image (d : Dev) : (Dev.slotTaken d).image = d.image := rfl
@[simp] theorem Dev.slotTaken_flows (d : Dev) : (Dev.slotTaken d).flows = d.flows := rfl
@[simp] theorem Dev.slotTaken_acq (d : Dev) : (Dev.slotTaken d).acq = d.acq := rfl
@[simp] theorem Dev.slotTaken_gnss (d : Dev) : (Dev.slotTaken d).gnss = d.gnss := rfl
@[simp] theorem Dev.slotTaken_fusion (d : Dev) : (Dev.slotTaken d).fusion = d.fusion := rfl
@[simp] theorem Dev.slotTaken_solver (d : Dev) : (Dev.slotTaken d).solver = d.solver := rfl
@[simp] theorem Dev.slotTaken_conseq (d : Dev) : (Dev.slotTaken d).conseq = d.conseq := rfl
@[simp] theorem Dev.slotTaken_engine (d : Dev) : (Dev.slotTaken d).engine = d.engine := rfl
@[simp] theorem Dev.slotTaken_probes (d : Dev) : (Dev.slotTaken d).probes = d.probes := rfl
@[simp] theorem Dev.slotTaken_plant (d : Dev) : (Dev.slotTaken d).plant = d.plant := rfl
@[simp] theorem Dev.slotTaken_net (d : Dev) : (Dev.slotTaken d).net = d.net := rfl
@[simp] theorem Dev.slotTaken_can (d : Dev) : (Dev.slotTaken d).can = d.can := rfl
@[simp] theorem Dev.slotTaken_clasp (d : Dev) : (Dev.slotTaken d).clasp = d.clasp := rfl
@[simp] theorem Dev.slotTaken_island (d : Dev) : (Dev.slotTaken d).island = d.island := rfl
@[simp] theorem Dev.slotTaken_health (d : Dev) : (Dev.slotTaken d).health = d.health := rfl
@[simp] theorem Dev.slotTaken_faults (d : Dev) : (Dev.slotTaken d).faults = d.faults := rfl
@[simp] theorem Dev.slotTaken_locket (d : Dev) : (Dev.slotTaken d).locket = d.locket := rfl
@[simp] theorem Dev.slotTaken_life (d : Dev) : (Dev.slotTaken d).life = d.life := rfl
@[simp] theorem Dev.slotTaken_hw (d : Dev) : (Dev.slotTaken d).hw = d.hw := rfl
@[simp] theorem Dev.slotTaken_nvm (d : Dev) : (Dev.slotTaken d).nvm = d.nvm := rfl
@[simp] theorem Dev.slotTaken_free (d : Dev) : (Dev.slotTaken d).free = d.free := rfl

/-! Dev.setAborted -/

@[simp] theorem Dev.setAborted_time (b : Bool) (d : Dev) : (Dev.setAborted b d).time = d.time := rfl
@[simp] theorem Dev.setAborted_pps (b : Bool) (d : Dev) : (Dev.setAborted b d).pps = d.pps := rfl
@[simp] theorem Dev.setAborted_frame (b : Bool) (d : Dev) : (Dev.setAborted b d).frame = d.frame := rfl
@[simp] theorem Dev.setAborted_cfg (b : Bool) (d : Dev) : (Dev.setAborted b d).cfg = d.cfg := rfl
@[simp] theorem Dev.setAborted_image (b : Bool) (d : Dev) : (Dev.setAborted b d).image = d.image := rfl
@[simp] theorem Dev.setAborted_flows (b : Bool) (d : Dev) : (Dev.setAborted b d).flows = d.flows := rfl
@[simp] theorem Dev.setAborted_acq (b : Bool) (d : Dev) : (Dev.setAborted b d).acq = d.acq := rfl
@[simp] theorem Dev.setAborted_gnss (b : Bool) (d : Dev) : (Dev.setAborted b d).gnss = d.gnss := rfl
@[simp] theorem Dev.setAborted_fusion (b : Bool) (d : Dev) : (Dev.setAborted b d).fusion = d.fusion := rfl
@[simp] theorem Dev.setAborted_solver (b : Bool) (d : Dev) : (Dev.setAborted b d).solver = d.solver := rfl
@[simp] theorem Dev.setAborted_conseq (b : Bool) (d : Dev) : (Dev.setAborted b d).conseq = d.conseq := rfl
@[simp] theorem Dev.setAborted_engine (b : Bool) (d : Dev) : (Dev.setAborted b d).engine = d.engine := rfl
@[simp] theorem Dev.setAborted_probes (b : Bool) (d : Dev) : (Dev.setAborted b d).probes = d.probes := rfl
@[simp] theorem Dev.setAborted_plant (b : Bool) (d : Dev) : (Dev.setAborted b d).plant = d.plant := rfl
@[simp] theorem Dev.setAborted_net (b : Bool) (d : Dev) : (Dev.setAborted b d).net = d.net := rfl
@[simp] theorem Dev.setAborted_can (b : Bool) (d : Dev) : (Dev.setAborted b d).can = d.can := rfl
@[simp] theorem Dev.setAborted_clasp (b : Bool) (d : Dev) : (Dev.setAborted b d).clasp = d.clasp := rfl
@[simp] theorem Dev.setAborted_island (b : Bool) (d : Dev) : (Dev.setAborted b d).island = d.island := rfl
@[simp] theorem Dev.setAborted_health (b : Bool) (d : Dev) : (Dev.setAborted b d).health = d.health := rfl
@[simp] theorem Dev.setAborted_faults (b : Bool) (d : Dev) : (Dev.setAborted b d).faults = d.faults := rfl
@[simp] theorem Dev.setAborted_locket (b : Bool) (d : Dev) : (Dev.setAborted b d).locket = d.locket := rfl
@[simp] theorem Dev.setAborted_life (b : Bool) (d : Dev) : (Dev.setAborted b d).life = d.life := rfl
@[simp] theorem Dev.setAborted_hw (b : Bool) (d : Dev) : (Dev.setAborted b d).hw = d.hw := rfl
@[simp] theorem Dev.setAborted_nvm (b : Bool) (d : Dev) : (Dev.setAborted b d).nvm = d.nvm := rfl
@[simp] theorem Dev.setAborted_out (b : Bool) (d : Dev) : (Dev.setAborted b d).out = d.out := rfl
@[simp] theorem Dev.setAborted_free (b : Bool) (d : Dev) : (Dev.setAborted b d).free = d.free := rfl

/-! Dev.touchStage -/

@[simp] theorem Dev.touchStage_time (s : Source) (d : Dev) : (Dev.touchStage s d).time = d.time := by
  unfold Dev.touchStage; dsimp only; (repeat' split) <;> rfl
@[simp] theorem Dev.touchStage_pps (s : Source) (d : Dev) : (Dev.touchStage s d).pps = d.pps := by
  unfold Dev.touchStage; dsimp only; (repeat' split) <;> rfl
@[simp] theorem Dev.touchStage_frame (s : Source) (d : Dev) : (Dev.touchStage s d).frame = d.frame := by
  unfold Dev.touchStage; dsimp only; (repeat' split) <;> rfl
@[simp] theorem Dev.touchStage_cmd (s : Source) (d : Dev) : (Dev.touchStage s d).cmd = d.cmd := by
  unfold Dev.touchStage; dsimp only; (repeat' split) <;> rfl
@[simp] theorem Dev.touchStage_image (s : Source) (d : Dev) : (Dev.touchStage s d).image = d.image := by
  unfold Dev.touchStage; dsimp only; (repeat' split) <;> rfl
@[simp] theorem Dev.touchStage_flows (s : Source) (d : Dev) : (Dev.touchStage s d).flows = d.flows := by
  unfold Dev.touchStage; dsimp only; (repeat' split) <;> rfl
@[simp] theorem Dev.touchStage_acq (s : Source) (d : Dev) : (Dev.touchStage s d).acq = d.acq := by
  unfold Dev.touchStage; dsimp only; (repeat' split) <;> rfl
@[simp] theorem Dev.touchStage_gnss (s : Source) (d : Dev) : (Dev.touchStage s d).gnss = d.gnss := by
  unfold Dev.touchStage; dsimp only; (repeat' split) <;> rfl
@[simp] theorem Dev.touchStage_fusion (s : Source) (d : Dev) : (Dev.touchStage s d).fusion = d.fusion := by
  unfold Dev.touchStage; dsimp only; (repeat' split) <;> rfl
@[simp] theorem Dev.touchStage_solver (s : Source) (d : Dev) : (Dev.touchStage s d).solver = d.solver := by
  unfold Dev.touchStage; dsimp only; (repeat' split) <;> rfl
@[simp] theorem Dev.touchStage_conseq (s : Source) (d : Dev) : (Dev.touchStage s d).conseq = d.conseq := by
  unfold Dev.touchStage; dsimp only; (repeat' split) <;> rfl
@[simp] theorem Dev.touchStage_engine (s : Source) (d : Dev) : (Dev.touchStage s d).engine = d.engine := by
  unfold Dev.touchStage; dsimp only; (repeat' split) <;> rfl
@[simp] theorem Dev.touchStage_probes (s : Source) (d : Dev) : (Dev.touchStage s d).probes = d.probes := by
  unfold Dev.touchStage; dsimp only; (repeat' split) <;> rfl
@[simp] theorem Dev.touchStage_plant (s : Source) (d : Dev) : (Dev.touchStage s d).plant = d.plant := by
  unfold Dev.touchStage; dsimp only; (repeat' split) <;> rfl
@[simp] theorem Dev.touchStage_net (s : Source) (d : Dev) : (Dev.touchStage s d).net = d.net := by
  unfold Dev.touchStage; dsimp only; (repeat' split) <;> rfl
@[simp] theorem Dev.touchStage_can (s : Source) (d : Dev) : (Dev.touchStage s d).can = d.can := by
  unfold Dev.touchStage; dsimp only; (repeat' split) <;> rfl
@[simp] theorem Dev.touchStage_clasp (s : Source) (d : Dev) : (Dev.touchStage s d).clasp = d.clasp := by
  unfold Dev.touchStage; dsimp only; (repeat' split) <;> rfl
@[simp] theorem Dev.touchStage_island (s : Source) (d : Dev) : (Dev.touchStage s d).island = d.island := by
  unfold Dev.touchStage; dsimp only; (repeat' split) <;> rfl
@[simp] theorem Dev.touchStage_health (s : Source) (d : Dev) : (Dev.touchStage s d).health = d.health := by
  unfold Dev.touchStage; dsimp only; (repeat' split) <;> rfl
@[simp] theorem Dev.touchStage_faults (s : Source) (d : Dev) : (Dev.touchStage s d).faults = d.faults := by
  unfold Dev.touchStage; dsimp only; (repeat' split) <;> rfl
@[simp] theorem Dev.touchStage_locket (s : Source) (d : Dev) : (Dev.touchStage s d).locket = d.locket := by
  unfold Dev.touchStage; dsimp only; (repeat' split) <;> rfl
@[simp] theorem Dev.touchStage_life (s : Source) (d : Dev) : (Dev.touchStage s d).life = d.life := by
  unfold Dev.touchStage; dsimp only; (repeat' split) <;> rfl
@[simp] theorem Dev.touchStage_hw (s : Source) (d : Dev) : (Dev.touchStage s d).hw = d.hw := by
  unfold Dev.touchStage; dsimp only; (repeat' split) <;> rfl
@[simp] theorem Dev.touchStage_nvm (s : Source) (d : Dev) : (Dev.touchStage s d).nvm = d.nvm := by
  unfold Dev.touchStage; dsimp only; (repeat' split) <;> rfl
@[simp] theorem Dev.touchStage_out (s : Source) (d : Dev) : (Dev.touchStage s d).out = d.out := by
  unfold Dev.touchStage; dsimp only; (repeat' split) <;> rfl
@[simp] theorem Dev.touchStage_free (s : Source) (d : Dev) : (Dev.touchStage s d).free = d.free := by
  unfold Dev.touchStage; dsimp only; (repeat' split) <;> rfl

/-! Dev.setFlow -/

@[simp] theorem Dev.setFlow_time (c : Nat) (x : FlowCtx) (d : Dev) : (Dev.setFlow c x d).time = d.time := rfl
@[simp] theorem Dev.setFlow_pps (c : Nat) (x : FlowCtx) (d : Dev) : (Dev.setFlow c x d).pps = d.pps := rfl
@[simp] theorem Dev.setFlow_frame (c : Nat) (x : FlowCtx) (d : Dev) : (Dev.setFlow c x d).frame = d.frame := rfl
@[simp] theorem Dev.setFlow_cmd (c : Nat) (x : FlowCtx) (d : Dev) : (Dev.setFlow c x d).cmd = d.cmd := rfl
@[simp] theorem Dev.setFlow_cfg (c : Nat) (x : FlowCtx) (d : Dev) : (Dev.setFlow c x d).cfg = d.cfg := rfl
@[simp] theorem Dev.setFlow_image (c : Nat) (x : FlowCtx) (d : Dev) : (Dev.setFlow c x d).image = d.image := rfl
@[simp] theorem Dev.setFlow_acq (c : Nat) (x : FlowCtx) (d : Dev) : (Dev.setFlow c x d).acq = d.acq := rfl
@[simp] theorem Dev.setFlow_gnss (c : Nat) (x : FlowCtx) (d : Dev) : (Dev.setFlow c x d).gnss = d.gnss := rfl
@[simp] theorem Dev.setFlow_fusion (c : Nat) (x : FlowCtx) (d : Dev) : (Dev.setFlow c x d).fusion = d.fusion := rfl
@[simp] theorem Dev.setFlow_solver (c : Nat) (x : FlowCtx) (d : Dev) : (Dev.setFlow c x d).solver = d.solver := rfl
@[simp] theorem Dev.setFlow_conseq (c : Nat) (x : FlowCtx) (d : Dev) : (Dev.setFlow c x d).conseq = d.conseq := rfl
@[simp] theorem Dev.setFlow_engine (c : Nat) (x : FlowCtx) (d : Dev) : (Dev.setFlow c x d).engine = d.engine := rfl
@[simp] theorem Dev.setFlow_probes (c : Nat) (x : FlowCtx) (d : Dev) : (Dev.setFlow c x d).probes = d.probes := rfl
@[simp] theorem Dev.setFlow_plant (c : Nat) (x : FlowCtx) (d : Dev) : (Dev.setFlow c x d).plant = d.plant := rfl
@[simp] theorem Dev.setFlow_net (c : Nat) (x : FlowCtx) (d : Dev) : (Dev.setFlow c x d).net = d.net := rfl
@[simp] theorem Dev.setFlow_can (c : Nat) (x : FlowCtx) (d : Dev) : (Dev.setFlow c x d).can = d.can := rfl
@[simp] theorem Dev.setFlow_clasp (c : Nat) (x : FlowCtx) (d : Dev) : (Dev.setFlow c x d).clasp = d.clasp := rfl
@[simp] theorem Dev.setFlow_island (c : Nat) (x : FlowCtx) (d : Dev) : (Dev.setFlow c x d).island = d.island := rfl
@[simp] theorem Dev.setFlow_health (c : Nat) (x : FlowCtx) (d : Dev) : (Dev.setFlow c x d).health = d.health := rfl
@[simp] theorem Dev.setFlow_faults (c : Nat) (x : FlowCtx) (d : Dev) : (Dev.setFlow c x d).faults = d.faults := rfl
@[simp] theorem Dev.setFlow_locket (c : Nat) (x : FlowCtx) (d : Dev) : (Dev.setFlow c x d).locket = d.locket := rfl
@[simp] theorem Dev.setFlow_life (c : Nat) (x : FlowCtx) (d : Dev) : (Dev.setFlow c x d).life = d.life := rfl
@[simp] theorem Dev.setFlow_hw (c : Nat) (x : FlowCtx) (d : Dev) : (Dev.setFlow c x d).hw = d.hw := rfl
@[simp] theorem Dev.setFlow_nvm (c : Nat) (x : FlowCtx) (d : Dev) : (Dev.setFlow c x d).nvm = d.nvm := rfl
@[simp] theorem Dev.setFlow_out (c : Nat) (x : FlowCtx) (d : Dev) : (Dev.setFlow c x d).out = d.out := rfl
@[simp] theorem Dev.setFlow_free (c : Nat) (x : FlowCtx) (d : Dev) : (Dev.setFlow c x d).free = d.free := rfl

/-! Dev.setChain -/

@[simp] theorem Dev.setChain_time (c : Nat) (x : Chain) (d : Dev) : (Dev.setChain c x d).time = d.time := rfl
@[simp] theorem Dev.setChain_pps (c : Nat) (x : Chain) (d : Dev) : (Dev.setChain c x d).pps = d.pps := rfl
@[simp] theorem Dev.setChain_frame (c : Nat) (x : Chain) (d : Dev) : (Dev.setChain c x d).frame = d.frame := rfl
@[simp] theorem Dev.setChain_cmd (c : Nat) (x : Chain) (d : Dev) : (Dev.setChain c x d).cmd = d.cmd := rfl
@[simp] theorem Dev.setChain_cfg (c : Nat) (x : Chain) (d : Dev) : (Dev.setChain c x d).cfg = d.cfg := rfl
@[simp] theorem Dev.setChain_image (c : Nat) (x : Chain) (d : Dev) : (Dev.setChain c x d).image = d.image := rfl
@[simp] theorem Dev.setChain_flows (c : Nat) (x : Chain) (d : Dev) : (Dev.setChain c x d).flows = d.flows := rfl
@[simp] theorem Dev.setChain_gnss (c : Nat) (x : Chain) (d : Dev) : (Dev.setChain c x d).gnss = d.gnss := rfl
@[simp] theorem Dev.setChain_fusion (c : Nat) (x : Chain) (d : Dev) : (Dev.setChain c x d).fusion = d.fusion := rfl
@[simp] theorem Dev.setChain_solver (c : Nat) (x : Chain) (d : Dev) : (Dev.setChain c x d).solver = d.solver := rfl
@[simp] theorem Dev.setChain_conseq (c : Nat) (x : Chain) (d : Dev) : (Dev.setChain c x d).conseq = d.conseq := rfl
@[simp] theorem Dev.setChain_engine (c : Nat) (x : Chain) (d : Dev) : (Dev.setChain c x d).engine = d.engine := rfl
@[simp] theorem Dev.setChain_probes (c : Nat) (x : Chain) (d : Dev) : (Dev.setChain c x d).probes = d.probes := rfl
@[simp] theorem Dev.setChain_plant (c : Nat) (x : Chain) (d : Dev) : (Dev.setChain c x d).plant = d.plant := rfl
@[simp] theorem Dev.setChain_net (c : Nat) (x : Chain) (d : Dev) : (Dev.setChain c x d).net = d.net := rfl
@[simp] theorem Dev.setChain_can (c : Nat) (x : Chain) (d : Dev) : (Dev.setChain c x d).can = d.can := rfl
@[simp] theorem Dev.setChain_clasp (c : Nat) (x : Chain) (d : Dev) : (Dev.setChain c x d).clasp = d.clasp := rfl
@[simp] theorem Dev.setChain_island (c : Nat) (x : Chain) (d : Dev) : (Dev.setChain c x d).island = d.island := rfl
@[simp] theorem Dev.setChain_health (c : Nat) (x : Chain) (d : Dev) : (Dev.setChain c x d).health = d.health := rfl
@[simp] theorem Dev.setChain_faults (c : Nat) (x : Chain) (d : Dev) : (Dev.setChain c x d).faults = d.faults := rfl
@[simp] theorem Dev.setChain_locket (c : Nat) (x : Chain) (d : Dev) : (Dev.setChain c x d).locket = d.locket := rfl
@[simp] theorem Dev.setChain_life (c : Nat) (x : Chain) (d : Dev) : (Dev.setChain c x d).life = d.life := rfl
@[simp] theorem Dev.setChain_hw (c : Nat) (x : Chain) (d : Dev) : (Dev.setChain c x d).hw = d.hw := rfl
@[simp] theorem Dev.setChain_nvm (c : Nat) (x : Chain) (d : Dev) : (Dev.setChain c x d).nvm = d.nvm := rfl
@[simp] theorem Dev.setChain_out (c : Nat) (x : Chain) (d : Dev) : (Dev.setChain c x d).out = d.out := rfl
@[simp] theorem Dev.setChain_free (c : Nat) (x : Chain) (d : Dev) : (Dev.setChain c x d).free = d.free := rfl

/-! Dev.setRs -/

@[simp] theorem Dev.setRs_time (u : Nat) (x : Rsmp) (d : Dev) : (Dev.setRs u x d).time = d.time := rfl
@[simp] theorem Dev.setRs_pps (u : Nat) (x : Rsmp) (d : Dev) : (Dev.setRs u x d).pps = d.pps := rfl
@[simp] theorem Dev.setRs_frame (u : Nat) (x : Rsmp) (d : Dev) : (Dev.setRs u x d).frame = d.frame := rfl
@[simp] theorem Dev.setRs_cmd (u : Nat) (x : Rsmp) (d : Dev) : (Dev.setRs u x d).cmd = d.cmd := rfl
@[simp] theorem Dev.setRs_cfg (u : Nat) (x : Rsmp) (d : Dev) : (Dev.setRs u x d).cfg = d.cfg := rfl
@[simp] theorem Dev.setRs_image (u : Nat) (x : Rsmp) (d : Dev) : (Dev.setRs u x d).image = d.image := rfl
@[simp] theorem Dev.setRs_flows (u : Nat) (x : Rsmp) (d : Dev) : (Dev.setRs u x d).flows = d.flows := rfl
@[simp] theorem Dev.setRs_gnss (u : Nat) (x : Rsmp) (d : Dev) : (Dev.setRs u x d).gnss = d.gnss := rfl
@[simp] theorem Dev.setRs_fusion (u : Nat) (x : Rsmp) (d : Dev) : (Dev.setRs u x d).fusion = d.fusion := rfl
@[simp] theorem Dev.setRs_solver (u : Nat) (x : Rsmp) (d : Dev) : (Dev.setRs u x d).solver = d.solver := rfl
@[simp] theorem Dev.setRs_conseq (u : Nat) (x : Rsmp) (d : Dev) : (Dev.setRs u x d).conseq = d.conseq := rfl
@[simp] theorem Dev.setRs_engine (u : Nat) (x : Rsmp) (d : Dev) : (Dev.setRs u x d).engine = d.engine := rfl
@[simp] theorem Dev.setRs_probes (u : Nat) (x : Rsmp) (d : Dev) : (Dev.setRs u x d).probes = d.probes := rfl
@[simp] theorem Dev.setRs_plant (u : Nat) (x : Rsmp) (d : Dev) : (Dev.setRs u x d).plant = d.plant := rfl
@[simp] theorem Dev.setRs_net (u : Nat) (x : Rsmp) (d : Dev) : (Dev.setRs u x d).net = d.net := rfl
@[simp] theorem Dev.setRs_can (u : Nat) (x : Rsmp) (d : Dev) : (Dev.setRs u x d).can = d.can := rfl
@[simp] theorem Dev.setRs_clasp (u : Nat) (x : Rsmp) (d : Dev) : (Dev.setRs u x d).clasp = d.clasp := rfl
@[simp] theorem Dev.setRs_island (u : Nat) (x : Rsmp) (d : Dev) : (Dev.setRs u x d).island = d.island := rfl
@[simp] theorem Dev.setRs_health (u : Nat) (x : Rsmp) (d : Dev) : (Dev.setRs u x d).health = d.health := rfl
@[simp] theorem Dev.setRs_faults (u : Nat) (x : Rsmp) (d : Dev) : (Dev.setRs u x d).faults = d.faults := rfl
@[simp] theorem Dev.setRs_locket (u : Nat) (x : Rsmp) (d : Dev) : (Dev.setRs u x d).locket = d.locket := rfl
@[simp] theorem Dev.setRs_life (u : Nat) (x : Rsmp) (d : Dev) : (Dev.setRs u x d).life = d.life := rfl
@[simp] theorem Dev.setRs_hw (u : Nat) (x : Rsmp) (d : Dev) : (Dev.setRs u x d).hw = d.hw := rfl
@[simp] theorem Dev.setRs_nvm (u : Nat) (x : Rsmp) (d : Dev) : (Dev.setRs u x d).nvm = d.nvm := rfl
@[simp] theorem Dev.setRs_out (u : Nat) (x : Rsmp) (d : Dev) : (Dev.setRs u x d).out = d.out := rfl
@[simp] theorem Dev.setRs_free (u : Nat) (x : Rsmp) (d : Dev) : (Dev.setRs u x d).free = d.free := rfl

/-! Dev.setFifo -/

@[simp] theorem Dev.setFifo_time (p : Nat) (l : List (Nat × ChainIn)) (d : Dev) : (Dev.setFifo p l d).time = d.time := rfl
@[simp] theorem Dev.setFifo_pps (p : Nat) (l : List (Nat × ChainIn)) (d : Dev) : (Dev.setFifo p l d).pps = d.pps := rfl
@[simp] theorem Dev.setFifo_frame (p : Nat) (l : List (Nat × ChainIn)) (d : Dev) : (Dev.setFifo p l d).frame = d.frame := rfl
@[simp] theorem Dev.setFifo_cmd (p : Nat) (l : List (Nat × ChainIn)) (d : Dev) : (Dev.setFifo p l d).cmd = d.cmd := rfl
@[simp] theorem Dev.setFifo_cfg (p : Nat) (l : List (Nat × ChainIn)) (d : Dev) : (Dev.setFifo p l d).cfg = d.cfg := rfl
@[simp] theorem Dev.setFifo_image (p : Nat) (l : List (Nat × ChainIn)) (d : Dev) : (Dev.setFifo p l d).image = d.image := rfl
@[simp] theorem Dev.setFifo_flows (p : Nat) (l : List (Nat × ChainIn)) (d : Dev) : (Dev.setFifo p l d).flows = d.flows := rfl
@[simp] theorem Dev.setFifo_gnss (p : Nat) (l : List (Nat × ChainIn)) (d : Dev) : (Dev.setFifo p l d).gnss = d.gnss := rfl
@[simp] theorem Dev.setFifo_fusion (p : Nat) (l : List (Nat × ChainIn)) (d : Dev) : (Dev.setFifo p l d).fusion = d.fusion := rfl
@[simp] theorem Dev.setFifo_solver (p : Nat) (l : List (Nat × ChainIn)) (d : Dev) : (Dev.setFifo p l d).solver = d.solver := rfl
@[simp] theorem Dev.setFifo_conseq (p : Nat) (l : List (Nat × ChainIn)) (d : Dev) : (Dev.setFifo p l d).conseq = d.conseq := rfl
@[simp] theorem Dev.setFifo_engine (p : Nat) (l : List (Nat × ChainIn)) (d : Dev) : (Dev.setFifo p l d).engine = d.engine := rfl
@[simp] theorem Dev.setFifo_probes (p : Nat) (l : List (Nat × ChainIn)) (d : Dev) : (Dev.setFifo p l d).probes = d.probes := rfl
@[simp] theorem Dev.setFifo_plant (p : Nat) (l : List (Nat × ChainIn)) (d : Dev) : (Dev.setFifo p l d).plant = d.plant := rfl
@[simp] theorem Dev.setFifo_net (p : Nat) (l : List (Nat × ChainIn)) (d : Dev) : (Dev.setFifo p l d).net = d.net := rfl
@[simp] theorem Dev.setFifo_can (p : Nat) (l : List (Nat × ChainIn)) (d : Dev) : (Dev.setFifo p l d).can = d.can := rfl
@[simp] theorem Dev.setFifo_clasp (p : Nat) (l : List (Nat × ChainIn)) (d : Dev) : (Dev.setFifo p l d).clasp = d.clasp := rfl
@[simp] theorem Dev.setFifo_island (p : Nat) (l : List (Nat × ChainIn)) (d : Dev) : (Dev.setFifo p l d).island = d.island := rfl
@[simp] theorem Dev.setFifo_health (p : Nat) (l : List (Nat × ChainIn)) (d : Dev) : (Dev.setFifo p l d).health = d.health := rfl
@[simp] theorem Dev.setFifo_faults (p : Nat) (l : List (Nat × ChainIn)) (d : Dev) : (Dev.setFifo p l d).faults = d.faults := rfl
@[simp] theorem Dev.setFifo_locket (p : Nat) (l : List (Nat × ChainIn)) (d : Dev) : (Dev.setFifo p l d).locket = d.locket := rfl
@[simp] theorem Dev.setFifo_life (p : Nat) (l : List (Nat × ChainIn)) (d : Dev) : (Dev.setFifo p l d).life = d.life := rfl
@[simp] theorem Dev.setFifo_hw (p : Nat) (l : List (Nat × ChainIn)) (d : Dev) : (Dev.setFifo p l d).hw = d.hw := rfl
@[simp] theorem Dev.setFifo_nvm (p : Nat) (l : List (Nat × ChainIn)) (d : Dev) : (Dev.setFifo p l d).nvm = d.nvm := rfl
@[simp] theorem Dev.setFifo_out (p : Nat) (l : List (Nat × ChainIn)) (d : Dev) : (Dev.setFifo p l d).out = d.out := rfl
@[simp] theorem Dev.setFifo_free (p : Nat) (l : List (Nat × ChainIn)) (d : Dev) : (Dev.setFifo p l d).free = d.free := rfl

/-! Dev.modGnss -/

@[simp] theorem Dev.modGnss_time (f : GnssSt → GnssSt) (d : Dev) : (Dev.modGnss f d).time = d.time := rfl
@[simp] theorem Dev.modGnss_pps (f : GnssSt → GnssSt) (d : Dev) : (Dev.modGnss f d).pps = d.pps := rfl
@[simp] theorem Dev.modGnss_frame (f : GnssSt → GnssSt) (d : Dev) : (Dev.modGnss f d).frame = d.frame := rfl
@[simp] theorem Dev.modGnss_cmd (f : GnssSt → GnssSt) (d : Dev) : (Dev.modGnss f d).cmd = d.cmd := rfl
@[simp] theorem Dev.modGnss_cfg (f : GnssSt → GnssSt) (d : Dev) : (Dev.modGnss f d).cfg = d.cfg := rfl
@[simp] theorem Dev.modGnss_image (f : GnssSt → GnssSt) (d : Dev) : (Dev.modGnss f d).image = d.image := rfl
@[simp] theorem Dev.modGnss_flows (f : GnssSt → GnssSt) (d : Dev) : (Dev.modGnss f d).flows = d.flows := rfl
@[simp] theorem Dev.modGnss_acq (f : GnssSt → GnssSt) (d : Dev) : (Dev.modGnss f d).acq = d.acq := rfl
@[simp] theorem Dev.modGnss_fusion (f : GnssSt → GnssSt) (d : Dev) : (Dev.modGnss f d).fusion = d.fusion := rfl
@[simp] theorem Dev.modGnss_solver (f : GnssSt → GnssSt) (d : Dev) : (Dev.modGnss f d).solver = d.solver := rfl
@[simp] theorem Dev.modGnss_conseq (f : GnssSt → GnssSt) (d : Dev) : (Dev.modGnss f d).conseq = d.conseq := rfl
@[simp] theorem Dev.modGnss_engine (f : GnssSt → GnssSt) (d : Dev) : (Dev.modGnss f d).engine = d.engine := rfl
@[simp] theorem Dev.modGnss_probes (f : GnssSt → GnssSt) (d : Dev) : (Dev.modGnss f d).probes = d.probes := rfl
@[simp] theorem Dev.modGnss_plant (f : GnssSt → GnssSt) (d : Dev) : (Dev.modGnss f d).plant = d.plant := rfl
@[simp] theorem Dev.modGnss_net (f : GnssSt → GnssSt) (d : Dev) : (Dev.modGnss f d).net = d.net := rfl
@[simp] theorem Dev.modGnss_can (f : GnssSt → GnssSt) (d : Dev) : (Dev.modGnss f d).can = d.can := rfl
@[simp] theorem Dev.modGnss_clasp (f : GnssSt → GnssSt) (d : Dev) : (Dev.modGnss f d).clasp = d.clasp := rfl
@[simp] theorem Dev.modGnss_island (f : GnssSt → GnssSt) (d : Dev) : (Dev.modGnss f d).island = d.island := rfl
@[simp] theorem Dev.modGnss_health (f : GnssSt → GnssSt) (d : Dev) : (Dev.modGnss f d).health = d.health := rfl
@[simp] theorem Dev.modGnss_faults (f : GnssSt → GnssSt) (d : Dev) : (Dev.modGnss f d).faults = d.faults := rfl
@[simp] theorem Dev.modGnss_locket (f : GnssSt → GnssSt) (d : Dev) : (Dev.modGnss f d).locket = d.locket := rfl
@[simp] theorem Dev.modGnss_life (f : GnssSt → GnssSt) (d : Dev) : (Dev.modGnss f d).life = d.life := rfl
@[simp] theorem Dev.modGnss_hw (f : GnssSt → GnssSt) (d : Dev) : (Dev.modGnss f d).hw = d.hw := rfl
@[simp] theorem Dev.modGnss_nvm (f : GnssSt → GnssSt) (d : Dev) : (Dev.modGnss f d).nvm = d.nvm := rfl
@[simp] theorem Dev.modGnss_out (f : GnssSt → GnssSt) (d : Dev) : (Dev.modGnss f d).out = d.out := rfl
@[simp] theorem Dev.modGnss_free (f : GnssSt → GnssSt) (d : Dev) : (Dev.modGnss f d).free = d.free := rfl
@[simp] theorem Dev.modGnss_gnss (f : GnssSt → GnssSt) (d : Dev) : (Dev.modGnss f d).gnss = f d.gnss := rfl

/-! Dev.setChan -/

@[simp] theorem Dev.setChan_time (k : Nat) (x : Chan) (d : Dev) : (Dev.setChan k x d).time = d.time := rfl
@[simp] theorem Dev.setChan_pps (k : Nat) (x : Chan) (d : Dev) : (Dev.setChan k x d).pps = d.pps := rfl
@[simp] theorem Dev.setChan_frame (k : Nat) (x : Chan) (d : Dev) : (Dev.setChan k x d).frame = d.frame := rfl
@[simp] theorem Dev.setChan_cmd (k : Nat) (x : Chan) (d : Dev) : (Dev.setChan k x d).cmd = d.cmd := rfl
@[simp] theorem Dev.setChan_cfg (k : Nat) (x : Chan) (d : Dev) : (Dev.setChan k x d).cfg = d.cfg := rfl
@[simp] theorem Dev.setChan_image (k : Nat) (x : Chan) (d : Dev) : (Dev.setChan k x d).image = d.image := rfl
@[simp] theorem Dev.setChan_flows (k : Nat) (x : Chan) (d : Dev) : (Dev.setChan k x d).flows = d.flows := rfl
@[simp] theorem Dev.setChan_acq (k : Nat) (x : Chan) (d : Dev) : (Dev.setChan k x d).acq = d.acq := rfl
@[simp] theorem Dev.setChan_fusion (k : Nat) (x : Chan) (d : Dev) : (Dev.setChan k x d).fusion = d.fusion := rfl
@[simp] theorem Dev.setChan_solver (k : Nat) (x : Chan) (d : Dev) : (Dev.setChan k x d).solver = d.solver := rfl
@[simp] theorem Dev.setChan_conseq (k : Nat) (x : Chan) (d : Dev) : (Dev.setChan k x d).conseq = d.conseq := rfl
@[simp] theorem Dev.setChan_engine (k : Nat) (x : Chan) (d : Dev) : (Dev.setChan k x d).engine = d.engine := rfl
@[simp] theorem Dev.setChan_probes (k : Nat) (x : Chan) (d : Dev) : (Dev.setChan k x d).probes = d.probes := rfl
@[simp] theorem Dev.setChan_plant (k : Nat) (x : Chan) (d : Dev) : (Dev.setChan k x d).plant = d.plant := rfl
@[simp] theorem Dev.setChan_net (k : Nat) (x : Chan) (d : Dev) : (Dev.setChan k x d).net = d.net := rfl
@[simp] theorem Dev.setChan_can (k : Nat) (x : Chan) (d : Dev) : (Dev.setChan k x d).can = d.can := rfl
@[simp] theorem Dev.setChan_clasp (k : Nat) (x : Chan) (d : Dev) : (Dev.setChan k x d).clasp = d.clasp := rfl
@[simp] theorem Dev.setChan_island (k : Nat) (x : Chan) (d : Dev) : (Dev.setChan k x d).island = d.island := rfl
@[simp] theorem Dev.setChan_health (k : Nat) (x : Chan) (d : Dev) : (Dev.setChan k x d).health = d.health := rfl
@[simp] theorem Dev.setChan_faults (k : Nat) (x : Chan) (d : Dev) : (Dev.setChan k x d).faults = d.faults := rfl
@[simp] theorem Dev.setChan_locket (k : Nat) (x : Chan) (d : Dev) : (Dev.setChan k x d).locket = d.locket := rfl
@[simp] theorem Dev.setChan_life (k : Nat) (x : Chan) (d : Dev) : (Dev.setChan k x d).life = d.life := rfl
@[simp] theorem Dev.setChan_hw (k : Nat) (x : Chan) (d : Dev) : (Dev.setChan k x d).hw = d.hw := rfl
@[simp] theorem Dev.setChan_nvm (k : Nat) (x : Chan) (d : Dev) : (Dev.setChan k x d).nvm = d.nvm := rfl
@[simp] theorem Dev.setChan_out (k : Nat) (x : Chan) (d : Dev) : (Dev.setChan k x d).out = d.out := rfl
@[simp] theorem Dev.setChan_free (k : Nat) (x : Chan) (d : Dev) : (Dev.setChan k x d).free = d.free := rfl

/-! Dev.modFusion -/

@[simp] theorem Dev.modFusion_time (f : FusionSt → FusionSt) (d : Dev) : (Dev.modFusion f d).time = d.time := rfl
@[simp] theorem Dev.modFusion_pps (f : FusionSt → FusionSt) (d : Dev) : (Dev.modFusion f d).pps = d.pps := rfl
@[simp] theorem Dev.modFusion_frame (f : FusionSt → FusionSt) (d : Dev) : (Dev.modFusion f d).frame = d.frame := rfl
@[simp] theorem Dev.modFusion_cmd (f : FusionSt → FusionSt) (d : Dev) : (Dev.modFusion f d).cmd = d.cmd := rfl
@[simp] theorem Dev.modFusion_cfg (f : FusionSt → FusionSt) (d : Dev) : (Dev.modFusion f d).cfg = d.cfg := rfl
@[simp] theorem Dev.modFusion_image (f : FusionSt → FusionSt) (d : Dev) : (Dev.modFusion f d).image = d.image := rfl
@[simp] theorem Dev.modFusion_flows (f : FusionSt → FusionSt) (d : Dev) : (Dev.modFusion f d).flows = d.flows := rfl
@[simp] theorem Dev.modFusion_acq (f : FusionSt → FusionSt) (d : Dev) : (Dev.modFusion f d).acq = d.acq := rfl
@[simp] theorem Dev.modFusion_gnss (f : FusionSt → FusionSt) (d : Dev) : (Dev.modFusion f d).gnss = d.gnss := rfl
@[simp] theorem Dev.modFusion_solver (f : FusionSt → FusionSt) (d : Dev) : (Dev.modFusion f d).solver = d.solver := rfl
@[simp] theorem Dev.modFusion_conseq (f : FusionSt → FusionSt) (d : Dev) : (Dev.modFusion f d).conseq = d.conseq := rfl
@[simp] theorem Dev.modFusion_engine (f : FusionSt → FusionSt) (d : Dev) : (Dev.modFusion f d).engine = d.engine := rfl
@[simp] theorem Dev.modFusion_probes (f : FusionSt → FusionSt) (d : Dev) : (Dev.modFusion f d).probes = d.probes := rfl
@[simp] theorem Dev.modFusion_plant (f : FusionSt → FusionSt) (d : Dev) : (Dev.modFusion f d).plant = d.plant := rfl
@[simp] theorem Dev.modFusion_net (f : FusionSt → FusionSt) (d : Dev) : (Dev.modFusion f d).net = d.net := rfl
@[simp] theorem Dev.modFusion_can (f : FusionSt → FusionSt) (d : Dev) : (Dev.modFusion f d).can = d.can := rfl
@[simp] theorem Dev.modFusion_clasp (f : FusionSt → FusionSt) (d : Dev) : (Dev.modFusion f d).clasp = d.clasp := rfl
@[simp] theorem Dev.modFusion_island (f : FusionSt → FusionSt) (d : Dev) : (Dev.modFusion f d).island = d.island := rfl
@[simp] theorem Dev.modFusion_health (f : FusionSt → FusionSt) (d : Dev) : (Dev.modFusion f d).health = d.health := rfl
@[simp] theorem Dev.modFusion_faults (f : FusionSt → FusionSt) (d : Dev) : (Dev.modFusion f d).faults = d.faults := rfl
@[simp] theorem Dev.modFusion_locket (f : FusionSt → FusionSt) (d : Dev) : (Dev.modFusion f d).locket = d.locket := rfl
@[simp] theorem Dev.modFusion_life (f : FusionSt → FusionSt) (d : Dev) : (Dev.modFusion f d).life = d.life := rfl
@[simp] theorem Dev.modFusion_hw (f : FusionSt → FusionSt) (d : Dev) : (Dev.modFusion f d).hw = d.hw := rfl
@[simp] theorem Dev.modFusion_nvm (f : FusionSt → FusionSt) (d : Dev) : (Dev.modFusion f d).nvm = d.nvm := rfl
@[simp] theorem Dev.modFusion_out (f : FusionSt → FusionSt) (d : Dev) : (Dev.modFusion f d).out = d.out := rfl
@[simp] theorem Dev.modFusion_free (f : FusionSt → FusionSt) (d : Dev) : (Dev.modFusion f d).free = d.free := rfl
@[simp] theorem Dev.modFusion_fusion (f : FusionSt → FusionSt) (d : Dev) : (Dev.modFusion f d).fusion = f d.fusion := rfl

/-! Dev.modRef -/

@[simp] theorem Dev.modRef_time (r : Nat) (f : Ref → Ref) (d : Dev) : (Dev.modRef r f d).time = d.time := rfl
@[simp] theorem Dev.modRef_pps (r : Nat) (f : Ref → Ref) (d : Dev) : (Dev.modRef r f d).pps = d.pps := rfl
@[simp] theorem Dev.modRef_frame (r : Nat) (f : Ref → Ref) (d : Dev) : (Dev.modRef r f d).frame = d.frame := rfl
@[simp] theorem Dev.modRef_cmd (r : Nat) (f : Ref → Ref) (d : Dev) : (Dev.modRef r f d).cmd = d.cmd := rfl
@[simp] theorem Dev.modRef_cfg (r : Nat) (f : Ref → Ref) (d : Dev) : (Dev.modRef r f d).cfg = d.cfg := rfl
@[simp] theorem Dev.modRef_image (r : Nat) (f : Ref → Ref) (d : Dev) : (Dev.modRef r f d).image = d.image := rfl
@[simp] theorem Dev.modRef_flows (r : Nat) (f : Ref → Ref) (d : Dev) : (Dev.modRef r f d).flows = d.flows := rfl
@[simp] theorem Dev.modRef_acq (r : Nat) (f : Ref → Ref) (d : Dev) : (Dev.modRef r f d).acq = d.acq := rfl
@[simp] theorem Dev.modRef_gnss (r : Nat) (f : Ref → Ref) (d : Dev) : (Dev.modRef r f d).gnss = d.gnss := rfl
@[simp] theorem Dev.modRef_solver (r : Nat) (f : Ref → Ref) (d : Dev) : (Dev.modRef r f d).solver = d.solver := rfl
@[simp] theorem Dev.modRef_conseq (r : Nat) (f : Ref → Ref) (d : Dev) : (Dev.modRef r f d).conseq = d.conseq := rfl
@[simp] theorem Dev.modRef_engine (r : Nat) (f : Ref → Ref) (d : Dev) : (Dev.modRef r f d).engine = d.engine := rfl
@[simp] theorem Dev.modRef_probes (r : Nat) (f : Ref → Ref) (d : Dev) : (Dev.modRef r f d).probes = d.probes := rfl
@[simp] theorem Dev.modRef_plant (r : Nat) (f : Ref → Ref) (d : Dev) : (Dev.modRef r f d).plant = d.plant := rfl
@[simp] theorem Dev.modRef_net (r : Nat) (f : Ref → Ref) (d : Dev) : (Dev.modRef r f d).net = d.net := rfl
@[simp] theorem Dev.modRef_can (r : Nat) (f : Ref → Ref) (d : Dev) : (Dev.modRef r f d).can = d.can := rfl
@[simp] theorem Dev.modRef_clasp (r : Nat) (f : Ref → Ref) (d : Dev) : (Dev.modRef r f d).clasp = d.clasp := rfl
@[simp] theorem Dev.modRef_island (r : Nat) (f : Ref → Ref) (d : Dev) : (Dev.modRef r f d).island = d.island := rfl
@[simp] theorem Dev.modRef_health (r : Nat) (f : Ref → Ref) (d : Dev) : (Dev.modRef r f d).health = d.health := rfl
@[simp] theorem Dev.modRef_faults (r : Nat) (f : Ref → Ref) (d : Dev) : (Dev.modRef r f d).faults = d.faults := rfl
@[simp] theorem Dev.modRef_locket (r : Nat) (f : Ref → Ref) (d : Dev) : (Dev.modRef r f d).locket = d.locket := rfl
@[simp] theorem Dev.modRef_life (r : Nat) (f : Ref → Ref) (d : Dev) : (Dev.modRef r f d).life = d.life := rfl
@[simp] theorem Dev.modRef_hw (r : Nat) (f : Ref → Ref) (d : Dev) : (Dev.modRef r f d).hw = d.hw := rfl
@[simp] theorem Dev.modRef_nvm (r : Nat) (f : Ref → Ref) (d : Dev) : (Dev.modRef r f d).nvm = d.nvm := rfl
@[simp] theorem Dev.modRef_out (r : Nat) (f : Ref → Ref) (d : Dev) : (Dev.modRef r f d).out = d.out := rfl
@[simp] theorem Dev.modRef_free (r : Nat) (f : Ref → Ref) (d : Dev) : (Dev.modRef r f d).free = d.free := rfl

/-! Dev.modCls -/

@[simp] theorem Dev.modCls_time (c : Nat) (f : RefClass → RefClass) (d : Dev) : (Dev.modCls c f d).time = d.time := rfl
@[simp] theorem Dev.modCls_pps (c : Nat) (f : RefClass → RefClass) (d : Dev) : (Dev.modCls c f d).pps = d.pps := rfl
@[simp] theorem Dev.modCls_frame (c : Nat) (f : RefClass → RefClass) (d : Dev) : (Dev.modCls c f d).frame = d.frame := rfl
@[simp] theorem Dev.modCls_cmd (c : Nat) (f : RefClass → RefClass) (d : Dev) : (Dev.modCls c f d).cmd = d.cmd := rfl
@[simp] theorem Dev.modCls_cfg (c : Nat) (f : RefClass → RefClass) (d : Dev) : (Dev.modCls c f d).cfg = d.cfg := rfl
@[simp] theorem Dev.modCls_image (c : Nat) (f : RefClass → RefClass) (d : Dev) : (Dev.modCls c f d).image = d.image := rfl
@[simp] theorem Dev.modCls_flows (c : Nat) (f : RefClass → RefClass) (d : Dev) : (Dev.modCls c f d).flows = d.flows := rfl
@[simp] theorem Dev.modCls_acq (c : Nat) (f : RefClass → RefClass) (d : Dev) : (Dev.modCls c f d).acq = d.acq := rfl
@[simp] theorem Dev.modCls_gnss (c : Nat) (f : RefClass → RefClass) (d : Dev) : (Dev.modCls c f d).gnss = d.gnss := rfl
@[simp] theorem Dev.modCls_solver (c : Nat) (f : RefClass → RefClass) (d : Dev) : (Dev.modCls c f d).solver = d.solver := rfl
@[simp] theorem Dev.modCls_conseq (c : Nat) (f : RefClass → RefClass) (d : Dev) : (Dev.modCls c f d).conseq = d.conseq := rfl
@[simp] theorem Dev.modCls_engine (c : Nat) (f : RefClass → RefClass) (d : Dev) : (Dev.modCls c f d).engine = d.engine := rfl
@[simp] theorem Dev.modCls_probes (c : Nat) (f : RefClass → RefClass) (d : Dev) : (Dev.modCls c f d).probes = d.probes := rfl
@[simp] theorem Dev.modCls_plant (c : Nat) (f : RefClass → RefClass) (d : Dev) : (Dev.modCls c f d).plant = d.plant := rfl
@[simp] theorem Dev.modCls_net (c : Nat) (f : RefClass → RefClass) (d : Dev) : (Dev.modCls c f d).net = d.net := rfl
@[simp] theorem Dev.modCls_can (c : Nat) (f : RefClass → RefClass) (d : Dev) : (Dev.modCls c f d).can = d.can := rfl
@[simp] theorem Dev.modCls_clasp (c : Nat) (f : RefClass → RefClass) (d : Dev) : (Dev.modCls c f d).clasp = d.clasp := rfl
@[simp] theorem Dev.modCls_island (c : Nat) (f : RefClass → RefClass) (d : Dev) : (Dev.modCls c f d).island = d.island := rfl
@[simp] theorem Dev.modCls_health (c : Nat) (f : RefClass → RefClass) (d : Dev) : (Dev.modCls c f d).health = d.health := rfl
@[simp] theorem Dev.modCls_faults (c : Nat) (f : RefClass → RefClass) (d : Dev) : (Dev.modCls c f d).faults = d.faults := rfl
@[simp] theorem Dev.modCls_locket (c : Nat) (f : RefClass → RefClass) (d : Dev) : (Dev.modCls c f d).locket = d.locket := rfl
@[simp] theorem Dev.modCls_life (c : Nat) (f : RefClass → RefClass) (d : Dev) : (Dev.modCls c f d).life = d.life := rfl
@[simp] theorem Dev.modCls_hw (c : Nat) (f : RefClass → RefClass) (d : Dev) : (Dev.modCls c f d).hw = d.hw := rfl
@[simp] theorem Dev.modCls_nvm (c : Nat) (f : RefClass → RefClass) (d : Dev) : (Dev.modCls c f d).nvm = d.nvm := rfl
@[simp] theorem Dev.modCls_out (c : Nat) (f : RefClass → RefClass) (d : Dev) : (Dev.modCls c f d).out = d.out := rfl
@[simp] theorem Dev.modCls_free (c : Nat) (f : RefClass → RefClass) (d : Dev) : (Dev.modCls c f d).free = d.free := rfl

/-! Dev.modSolver -/

@[simp] theorem Dev.modSolver_time (f : SolverSt → SolverSt) (d : Dev) : (Dev.modSolver f d).time = d.time := rfl
@[simp] theorem Dev.modSolver_pps (f : SolverSt → SolverSt) (d : Dev) : (Dev.modSolver f d).pps = d.pps := rfl
@[simp] theorem Dev.modSolver_frame (f : SolverSt → SolverSt) (d : Dev) : (Dev.modSolver f d).frame = d.frame := rfl
@[simp] theorem Dev.modSolver_cmd (f : SolverSt → SolverSt) (d : Dev) : (Dev.modSolver f d).cmd = d.cmd := rfl
@[simp] theorem Dev.modSolver_cfg (f : SolverSt → SolverSt) (d : Dev) : (Dev.modSolver f d).cfg = d.cfg := rfl
@[simp] theorem Dev.modSolver_image (f : SolverSt → SolverSt) (d : Dev) : (Dev.modSolver f d).image = d.image := rfl
@[simp] theorem Dev.modSolver_flows (f : SolverSt → SolverSt) (d : Dev) : (Dev.modSolver f d).flows = d.flows := rfl
@[simp] theorem Dev.modSolver_acq (f : SolverSt → SolverSt) (d : Dev) : (Dev.modSolver f d).acq = d.acq := rfl
@[simp] theorem Dev.modSolver_gnss (f : SolverSt → SolverSt) (d : Dev) : (Dev.modSolver f d).gnss = d.gnss := rfl
@[simp] theorem Dev.modSolver_fusion (f : SolverSt → SolverSt) (d : Dev) : (Dev.modSolver f d).fusion = d.fusion := rfl
@[simp] theorem Dev.modSolver_conseq (f : SolverSt → SolverSt) (d : Dev) : (Dev.modSolver f d).conseq = d.conseq := rfl
@[simp] theorem Dev.modSolver_engine (f : SolverSt → SolverSt) (d : Dev) : (Dev.modSolver f d).engine = d.engine := rfl
@[simp] theorem Dev.modSolver_probes (f : SolverSt → SolverSt) (d : Dev) : (Dev.modSolver f d).probes = d.probes := rfl
@[simp] theorem Dev.modSolver_plant (f : SolverSt → SolverSt) (d : Dev) : (Dev.modSolver f d).plant = d.plant := rfl
@[simp] theorem Dev.modSolver_net (f : SolverSt → SolverSt) (d : Dev) : (Dev.modSolver f d).net = d.net := rfl
@[simp] theorem Dev.modSolver_can (f : SolverSt → SolverSt) (d : Dev) : (Dev.modSolver f d).can = d.can := rfl
@[simp] theorem Dev.modSolver_clasp (f : SolverSt → SolverSt) (d : Dev) : (Dev.modSolver f d).clasp = d.clasp := rfl
@[simp] theorem Dev.modSolver_island (f : SolverSt → SolverSt) (d : Dev) : (Dev.modSolver f d).island = d.island := rfl
@[simp] theorem Dev.modSolver_health (f : SolverSt → SolverSt) (d : Dev) : (Dev.modSolver f d).health = d.health := rfl
@[simp] theorem Dev.modSolver_faults (f : SolverSt → SolverSt) (d : Dev) : (Dev.modSolver f d).faults = d.faults := rfl
@[simp] theorem Dev.modSolver_locket (f : SolverSt → SolverSt) (d : Dev) : (Dev.modSolver f d).locket = d.locket := rfl
@[simp] theorem Dev.modSolver_life (f : SolverSt → SolverSt) (d : Dev) : (Dev.modSolver f d).life = d.life := rfl
@[simp] theorem Dev.modSolver_hw (f : SolverSt → SolverSt) (d : Dev) : (Dev.modSolver f d).hw = d.hw := rfl
@[simp] theorem Dev.modSolver_nvm (f : SolverSt → SolverSt) (d : Dev) : (Dev.modSolver f d).nvm = d.nvm := rfl
@[simp] theorem Dev.modSolver_out (f : SolverSt → SolverSt) (d : Dev) : (Dev.modSolver f d).out = d.out := rfl
@[simp] theorem Dev.modSolver_free (f : SolverSt → SolverSt) (d : Dev) : (Dev.modSolver f d).free = d.free := rfl
@[simp] theorem Dev.modSolver_solver (f : SolverSt → SolverSt) (d : Dev) : (Dev.modSolver f d).solver = f d.solver := rfl

/-! Dev.modConseq -/

@[simp] theorem Dev.modConseq_time (f : ConseqSt → ConseqSt) (d : Dev) : (Dev.modConseq f d).time = d.time := rfl
@[simp] theorem Dev.modConseq_pps (f : ConseqSt → ConseqSt) (d : Dev) : (Dev.modConseq f d).pps = d.pps := rfl
@[simp] theorem Dev.modConseq_frame (f : ConseqSt → ConseqSt) (d : Dev) : (Dev.modConseq f d).frame = d.frame := rfl
@[simp] theorem Dev.modConseq_cmd (f : ConseqSt → ConseqSt) (d : Dev) : (Dev.modConseq f d).cmd = d.cmd := rfl
@[simp] theorem Dev.modConseq_cfg (f : ConseqSt → ConseqSt) (d : Dev) : (Dev.modConseq f d).cfg = d.cfg := rfl
@[simp] theorem Dev.modConseq_image (f : ConseqSt → ConseqSt) (d : Dev) : (Dev.modConseq f d).image = d.image := rfl
@[simp] theorem Dev.modConseq_flows (f : ConseqSt → ConseqSt) (d : Dev) : (Dev.modConseq f d).flows = d.flows := rfl
@[simp] theorem Dev.modConseq_acq (f : ConseqSt → ConseqSt) (d : Dev) : (Dev.modConseq f d).acq = d.acq := rfl
@[simp] theorem Dev.modConseq_gnss (f : ConseqSt → ConseqSt) (d : Dev) : (Dev.modConseq f d).gnss = d.gnss := rfl
@[simp] theorem Dev.modConseq_fusion (f : ConseqSt → ConseqSt) (d : Dev) : (Dev.modConseq f d).fusion = d.fusion := rfl
@[simp] theorem Dev.modConseq_solver (f : ConseqSt → ConseqSt) (d : Dev) : (Dev.modConseq f d).solver = d.solver := rfl
@[simp] theorem Dev.modConseq_engine (f : ConseqSt → ConseqSt) (d : Dev) : (Dev.modConseq f d).engine = d.engine := rfl
@[simp] theorem Dev.modConseq_probes (f : ConseqSt → ConseqSt) (d : Dev) : (Dev.modConseq f d).probes = d.probes := rfl
@[simp] theorem Dev.modConseq_plant (f : ConseqSt → ConseqSt) (d : Dev) : (Dev.modConseq f d).plant = d.plant := rfl
@[simp] theorem Dev.modConseq_net (f : ConseqSt → ConseqSt) (d : Dev) : (Dev.modConseq f d).net = d.net := rfl
@[simp] theorem Dev.modConseq_can (f : ConseqSt → ConseqSt) (d : Dev) : (Dev.modConseq f d).can = d.can := rfl
@[simp] theorem Dev.modConseq_clasp (f : ConseqSt → ConseqSt) (d : Dev) : (Dev.modConseq f d).clasp = d.clasp := rfl
@[simp] theorem Dev.modConseq_island (f : ConseqSt → ConseqSt) (d : Dev) : (Dev.modConseq f d).island = d.island := rfl
@[simp] theorem Dev.modConseq_health (f : ConseqSt → ConseqSt) (d : Dev) : (Dev.modConseq f d).health = d.health := rfl
@[simp] theorem Dev.modConseq_faults (f : ConseqSt → ConseqSt) (d : Dev) : (Dev.modConseq f d).faults = d.faults := rfl
@[simp] theorem Dev.modConseq_locket (f : ConseqSt → ConseqSt) (d : Dev) : (Dev.modConseq f d).locket = d.locket := rfl
@[simp] theorem Dev.modConseq_life (f : ConseqSt → ConseqSt) (d : Dev) : (Dev.modConseq f d).life = d.life := rfl
@[simp] theorem Dev.modConseq_hw (f : ConseqSt → ConseqSt) (d : Dev) : (Dev.modConseq f d).hw = d.hw := rfl
@[simp] theorem Dev.modConseq_nvm (f : ConseqSt → ConseqSt) (d : Dev) : (Dev.modConseq f d).nvm = d.nvm := rfl
@[simp] theorem Dev.modConseq_out (f : ConseqSt → ConseqSt) (d : Dev) : (Dev.modConseq f d).out = d.out := rfl
@[simp] theorem Dev.modConseq_free (f : ConseqSt → ConseqSt) (d : Dev) : (Dev.modConseq f d).free = d.free := rfl
@[simp] theorem Dev.modConseq_conseq (f : ConseqSt → ConseqSt) (d : Dev) : (Dev.modConseq f d).conseq = f d.conseq := rfl

/-! Dev.modGroup -/

@[simp] theorem Dev.modGroup_time (g : Nat) (f : Group → Group) (d : Dev) : (Dev.modGroup g f d).time = d.time := rfl
@[simp] theorem Dev.modGroup_pps (g : Nat) (f : Group → Group) (d : Dev) : (Dev.modGroup g f d).pps = d.pps := rfl
@[simp] theorem Dev.modGroup_frame (g : Nat) (f : Group → Group) (d : Dev) : (Dev.modGroup g f d).frame = d.frame := rfl
@[simp] theorem Dev.modGroup_cmd (g : Nat) (f : Group → Group) (d : Dev) : (Dev.modGroup g f d).cmd = d.cmd := rfl
@[simp] theorem Dev.modGroup_cfg (g : Nat) (f : Group → Group) (d : Dev) : (Dev.modGroup g f d).cfg = d.cfg := rfl
@[simp] theorem Dev.modGroup_image (g : Nat) (f : Group → Group) (d : Dev) : (Dev.modGroup g f d).image = d.image := rfl
@[simp] theorem Dev.modGroup_flows (g : Nat) (f : Group → Group) (d : Dev) : (Dev.modGroup g f d).flows = d.flows := rfl
@[simp] theorem Dev.modGroup_acq (g : Nat) (f : Group → Group) (d : Dev) : (Dev.modGroup g f d).acq = d.acq := rfl
@[simp] theorem Dev.modGroup_gnss (g : Nat) (f : Group → Group) (d : Dev) : (Dev.modGroup g f d).gnss = d.gnss := rfl
@[simp] theorem Dev.modGroup_fusion (g : Nat) (f : Group → Group) (d : Dev) : (Dev.modGroup g f d).fusion = d.fusion := rfl
@[simp] theorem Dev.modGroup_solver (g : Nat) (f : Group → Group) (d : Dev) : (Dev.modGroup g f d).solver = d.solver := rfl
@[simp] theorem Dev.modGroup_engine (g : Nat) (f : Group → Group) (d : Dev) : (Dev.modGroup g f d).engine = d.engine := rfl
@[simp] theorem Dev.modGroup_probes (g : Nat) (f : Group → Group) (d : Dev) : (Dev.modGroup g f d).probes = d.probes := rfl
@[simp] theorem Dev.modGroup_plant (g : Nat) (f : Group → Group) (d : Dev) : (Dev.modGroup g f d).plant = d.plant := rfl
@[simp] theorem Dev.modGroup_net (g : Nat) (f : Group → Group) (d : Dev) : (Dev.modGroup g f d).net = d.net := rfl
@[simp] theorem Dev.modGroup_can (g : Nat) (f : Group → Group) (d : Dev) : (Dev.modGroup g f d).can = d.can := rfl
@[simp] theorem Dev.modGroup_clasp (g : Nat) (f : Group → Group) (d : Dev) : (Dev.modGroup g f d).clasp = d.clasp := rfl
@[simp] theorem Dev.modGroup_island (g : Nat) (f : Group → Group) (d : Dev) : (Dev.modGroup g f d).island = d.island := rfl
@[simp] theorem Dev.modGroup_health (g : Nat) (f : Group → Group) (d : Dev) : (Dev.modGroup g f d).health = d.health := rfl
@[simp] theorem Dev.modGroup_faults (g : Nat) (f : Group → Group) (d : Dev) : (Dev.modGroup g f d).faults = d.faults := rfl
@[simp] theorem Dev.modGroup_locket (g : Nat) (f : Group → Group) (d : Dev) : (Dev.modGroup g f d).locket = d.locket := rfl
@[simp] theorem Dev.modGroup_life (g : Nat) (f : Group → Group) (d : Dev) : (Dev.modGroup g f d).life = d.life := rfl
@[simp] theorem Dev.modGroup_hw (g : Nat) (f : Group → Group) (d : Dev) : (Dev.modGroup g f d).hw = d.hw := rfl
@[simp] theorem Dev.modGroup_nvm (g : Nat) (f : Group → Group) (d : Dev) : (Dev.modGroup g f d).nvm = d.nvm := rfl
@[simp] theorem Dev.modGroup_out (g : Nat) (f : Group → Group) (d : Dev) : (Dev.modGroup g f d).out = d.out := rfl
@[simp] theorem Dev.modGroup_free (g : Nat) (f : Group → Group) (d : Dev) : (Dev.modGroup g f d).free = d.free := rfl

/-! Dev.setLoop -/

@[simp] theorem Dev.setLoop_time (i : Nat) (x : LoopSt) (d : Dev) : (Dev.setLoop i x d).time = d.time := rfl
@[simp] theorem Dev.setLoop_pps (i : Nat) (x : LoopSt) (d : Dev) : (Dev.setLoop i x d).pps = d.pps := rfl
@[simp] theorem Dev.setLoop_frame (i : Nat) (x : LoopSt) (d : Dev) : (Dev.setLoop i x d).frame = d.frame := rfl
@[simp] theorem Dev.setLoop_cmd (i : Nat) (x : LoopSt) (d : Dev) : (Dev.setLoop i x d).cmd = d.cmd := rfl
@[simp] theorem Dev.setLoop_cfg (i : Nat) (x : LoopSt) (d : Dev) : (Dev.setLoop i x d).cfg = d.cfg := rfl
@[simp] theorem Dev.setLoop_image (i : Nat) (x : LoopSt) (d : Dev) : (Dev.setLoop i x d).image = d.image := rfl
@[simp] theorem Dev.setLoop_flows (i : Nat) (x : LoopSt) (d : Dev) : (Dev.setLoop i x d).flows = d.flows := rfl
@[simp] theorem Dev.setLoop_acq (i : Nat) (x : LoopSt) (d : Dev) : (Dev.setLoop i x d).acq = d.acq := rfl
@[simp] theorem Dev.setLoop_gnss (i : Nat) (x : LoopSt) (d : Dev) : (Dev.setLoop i x d).gnss = d.gnss := rfl
@[simp] theorem Dev.setLoop_fusion (i : Nat) (x : LoopSt) (d : Dev) : (Dev.setLoop i x d).fusion = d.fusion := rfl
@[simp] theorem Dev.setLoop_solver (i : Nat) (x : LoopSt) (d : Dev) : (Dev.setLoop i x d).solver = d.solver := rfl
@[simp] theorem Dev.setLoop_conseq (i : Nat) (x : LoopSt) (d : Dev) : (Dev.setLoop i x d).conseq = d.conseq := rfl
@[simp] theorem Dev.setLoop_probes (i : Nat) (x : LoopSt) (d : Dev) : (Dev.setLoop i x d).probes = d.probes := rfl
@[simp] theorem Dev.setLoop_plant (i : Nat) (x : LoopSt) (d : Dev) : (Dev.setLoop i x d).plant = d.plant := rfl
@[simp] theorem Dev.setLoop_net (i : Nat) (x : LoopSt) (d : Dev) : (Dev.setLoop i x d).net = d.net := rfl
@[simp] theorem Dev.setLoop_can (i : Nat) (x : LoopSt) (d : Dev) : (Dev.setLoop i x d).can = d.can := rfl
@[simp] theorem Dev.setLoop_clasp (i : Nat) (x : LoopSt) (d : Dev) : (Dev.setLoop i x d).clasp = d.clasp := rfl
@[simp] theorem Dev.setLoop_island (i : Nat) (x : LoopSt) (d : Dev) : (Dev.setLoop i x d).island = d.island := rfl
@[simp] theorem Dev.setLoop_health (i : Nat) (x : LoopSt) (d : Dev) : (Dev.setLoop i x d).health = d.health := rfl
@[simp] theorem Dev.setLoop_faults (i : Nat) (x : LoopSt) (d : Dev) : (Dev.setLoop i x d).faults = d.faults := rfl
@[simp] theorem Dev.setLoop_locket (i : Nat) (x : LoopSt) (d : Dev) : (Dev.setLoop i x d).locket = d.locket := rfl
@[simp] theorem Dev.setLoop_life (i : Nat) (x : LoopSt) (d : Dev) : (Dev.setLoop i x d).life = d.life := rfl
@[simp] theorem Dev.setLoop_hw (i : Nat) (x : LoopSt) (d : Dev) : (Dev.setLoop i x d).hw = d.hw := rfl
@[simp] theorem Dev.setLoop_nvm (i : Nat) (x : LoopSt) (d : Dev) : (Dev.setLoop i x d).nvm = d.nvm := rfl
@[simp] theorem Dev.setLoop_out (i : Nat) (x : LoopSt) (d : Dev) : (Dev.setLoop i x d).out = d.out := rfl
@[simp] theorem Dev.setLoop_free (i : Nat) (x : LoopSt) (d : Dev) : (Dev.setLoop i x d).free = d.free := rfl

/-! Dev.setSec -/

@[simp] theorem Dev.setSec_time (i : Nat) (x : Sec) (d : Dev) : (Dev.setSec i x d).time = d.time := rfl
@[simp] theorem Dev.setSec_pps (i : Nat) (x : Sec) (d : Dev) : (Dev.setSec i x d).pps = d.pps := rfl
@[simp] theorem Dev.setSec_frame (i : Nat) (x : Sec) (d : Dev) : (Dev.setSec i x d).frame = d.frame := rfl
@[simp] theorem Dev.setSec_cmd (i : Nat) (x : Sec) (d : Dev) : (Dev.setSec i x d).cmd = d.cmd := rfl
@[simp] theorem Dev.setSec_cfg (i : Nat) (x : Sec) (d : Dev) : (Dev.setSec i x d).cfg = d.cfg := rfl
@[simp] theorem Dev.setSec_image (i : Nat) (x : Sec) (d : Dev) : (Dev.setSec i x d).image = d.image := rfl
@[simp] theorem Dev.setSec_flows (i : Nat) (x : Sec) (d : Dev) : (Dev.setSec i x d).flows = d.flows := rfl
@[simp] theorem Dev.setSec_acq (i : Nat) (x : Sec) (d : Dev) : (Dev.setSec i x d).acq = d.acq := rfl
@[simp] theorem Dev.setSec_gnss (i : Nat) (x : Sec) (d : Dev) : (Dev.setSec i x d).gnss = d.gnss := rfl
@[simp] theorem Dev.setSec_fusion (i : Nat) (x : Sec) (d : Dev) : (Dev.setSec i x d).fusion = d.fusion := rfl
@[simp] theorem Dev.setSec_solver (i : Nat) (x : Sec) (d : Dev) : (Dev.setSec i x d).solver = d.solver := rfl
@[simp] theorem Dev.setSec_conseq (i : Nat) (x : Sec) (d : Dev) : (Dev.setSec i x d).conseq = d.conseq := rfl
@[simp] theorem Dev.setSec_probes (i : Nat) (x : Sec) (d : Dev) : (Dev.setSec i x d).probes = d.probes := rfl
@[simp] theorem Dev.setSec_plant (i : Nat) (x : Sec) (d : Dev) : (Dev.setSec i x d).plant = d.plant := rfl
@[simp] theorem Dev.setSec_net (i : Nat) (x : Sec) (d : Dev) : (Dev.setSec i x d).net = d.net := rfl
@[simp] theorem Dev.setSec_can (i : Nat) (x : Sec) (d : Dev) : (Dev.setSec i x d).can = d.can := rfl
@[simp] theorem Dev.setSec_clasp (i : Nat) (x : Sec) (d : Dev) : (Dev.setSec i x d).clasp = d.clasp := rfl
@[simp] theorem Dev.setSec_island (i : Nat) (x : Sec) (d : Dev) : (Dev.setSec i x d).island = d.island := rfl
@[simp] theorem Dev.setSec_health (i : Nat) (x : Sec) (d : Dev) : (Dev.setSec i x d).health = d.health := rfl
@[simp] theorem Dev.setSec_faults (i : Nat) (x : Sec) (d : Dev) : (Dev.setSec i x d).faults = d.faults := rfl
@[simp] theorem Dev.setSec_locket (i : Nat) (x : Sec) (d : Dev) : (Dev.setSec i x d).locket = d.locket := rfl
@[simp] theorem Dev.setSec_life (i : Nat) (x : Sec) (d : Dev) : (Dev.setSec i x d).life = d.life := rfl
@[simp] theorem Dev.setSec_hw (i : Nat) (x : Sec) (d : Dev) : (Dev.setSec i x d).hw = d.hw := rfl
@[simp] theorem Dev.setSec_nvm (i : Nat) (x : Sec) (d : Dev) : (Dev.setSec i x d).nvm = d.nvm := rfl
@[simp] theorem Dev.setSec_out (i : Nat) (x : Sec) (d : Dev) : (Dev.setSec i x d).out = d.out := rfl
@[simp] theorem Dev.setSec_free (i : Nat) (x : Sec) (d : Dev) : (Dev.setSec i x d).free = d.free := rfl

/-! Dev.modProbe -/

@[simp] theorem Dev.modProbe_time (n : Nat) (f : Probe → Probe) (d : Dev) : (Dev.modProbe n f d).time = d.time := rfl
@[simp] theorem Dev.modProbe_pps (n : Nat) (f : Probe → Probe) (d : Dev) : (Dev.modProbe n f d).pps = d.pps := rfl
@[simp] theorem Dev.modProbe_frame (n : Nat) (f : Probe → Probe) (d : Dev) : (Dev.modProbe n f d).frame = d.frame := rfl
@[simp] theorem Dev.modProbe_cmd (n : Nat) (f : Probe → Probe) (d : Dev) : (Dev.modProbe n f d).cmd = d.cmd := rfl
@[simp] theorem Dev.modProbe_cfg (n : Nat) (f : Probe → Probe) (d : Dev) : (Dev.modProbe n f d).cfg = d.cfg := rfl
@[simp] theorem Dev.modProbe_image (n : Nat) (f : Probe → Probe) (d : Dev) : (Dev.modProbe n f d).image = d.image := rfl
@[simp] theorem Dev.modProbe_flows (n : Nat) (f : Probe → Probe) (d : Dev) : (Dev.modProbe n f d).flows = d.flows := rfl
@[simp] theorem Dev.modProbe_acq (n : Nat) (f : Probe → Probe) (d : Dev) : (Dev.modProbe n f d).acq = d.acq := rfl
@[simp] theorem Dev.modProbe_gnss (n : Nat) (f : Probe → Probe) (d : Dev) : (Dev.modProbe n f d).gnss = d.gnss := rfl
@[simp] theorem Dev.modProbe_fusion (n : Nat) (f : Probe → Probe) (d : Dev) : (Dev.modProbe n f d).fusion = d.fusion := rfl
@[simp] theorem Dev.modProbe_solver (n : Nat) (f : Probe → Probe) (d : Dev) : (Dev.modProbe n f d).solver = d.solver := rfl
@[simp] theorem Dev.modProbe_conseq (n : Nat) (f : Probe → Probe) (d : Dev) : (Dev.modProbe n f d).conseq = d.conseq := rfl
@[simp] theorem Dev.modProbe_engine (n : Nat) (f : Probe → Probe) (d : Dev) : (Dev.modProbe n f d).engine = d.engine := rfl
@[simp] theorem Dev.modProbe_plant (n : Nat) (f : Probe → Probe) (d : Dev) : (Dev.modProbe n f d).plant = d.plant := rfl
@[simp] theorem Dev.modProbe_net (n : Nat) (f : Probe → Probe) (d : Dev) : (Dev.modProbe n f d).net = d.net := rfl
@[simp] theorem Dev.modProbe_can (n : Nat) (f : Probe → Probe) (d : Dev) : (Dev.modProbe n f d).can = d.can := rfl
@[simp] theorem Dev.modProbe_clasp (n : Nat) (f : Probe → Probe) (d : Dev) : (Dev.modProbe n f d).clasp = d.clasp := rfl
@[simp] theorem Dev.modProbe_island (n : Nat) (f : Probe → Probe) (d : Dev) : (Dev.modProbe n f d).island = d.island := rfl
@[simp] theorem Dev.modProbe_health (n : Nat) (f : Probe → Probe) (d : Dev) : (Dev.modProbe n f d).health = d.health := rfl
@[simp] theorem Dev.modProbe_faults (n : Nat) (f : Probe → Probe) (d : Dev) : (Dev.modProbe n f d).faults = d.faults := rfl
@[simp] theorem Dev.modProbe_locket (n : Nat) (f : Probe → Probe) (d : Dev) : (Dev.modProbe n f d).locket = d.locket := rfl
@[simp] theorem Dev.modProbe_life (n : Nat) (f : Probe → Probe) (d : Dev) : (Dev.modProbe n f d).life = d.life := rfl
@[simp] theorem Dev.modProbe_hw (n : Nat) (f : Probe → Probe) (d : Dev) : (Dev.modProbe n f d).hw = d.hw := rfl
@[simp] theorem Dev.modProbe_nvm (n : Nat) (f : Probe → Probe) (d : Dev) : (Dev.modProbe n f d).nvm = d.nvm := rfl
@[simp] theorem Dev.modProbe_out (n : Nat) (f : Probe → Probe) (d : Dev) : (Dev.modProbe n f d).out = d.out := rfl
@[simp] theorem Dev.modProbe_free (n : Nat) (f : Probe → Probe) (d : Dev) : (Dev.modProbe n f d).free = d.free := rfl
@[simp] theorem Dev.modProbe_probes (n : Nat) (f : Probe → Probe) (d : Dev) : (Dev.modProbe n f d).probes = Bits.modAt d.probes n f := rfl

/-! Dev.modSect -/

@[simp] theorem Dev.modSect_time (b : Nat) (f : Section → Section) (d : Dev) : (Dev.modSect b f d).time = d.time := rfl
@[simp] theorem Dev.modSect_pps (b : Nat) (f : Section → Section) (d : Dev) : (Dev.modSect b f d).pps = d.pps := rfl
@[simp] theorem Dev.modSect_frame (b : Nat) (f : Section → Section) (d : Dev) : (Dev.modSect b f d).frame = d.frame := rfl
@[simp] theorem Dev.modSect_cmd (b : Nat) (f : Section → Section) (d : Dev) : (Dev.modSect b f d).cmd = d.cmd := rfl
@[simp] theorem Dev.modSect_cfg (b : Nat) (f : Section → Section) (d : Dev) : (Dev.modSect b f d).cfg = d.cfg := rfl
@[simp] theorem Dev.modSect_image (b : Nat) (f : Section → Section) (d : Dev) : (Dev.modSect b f d).image = d.image := rfl
@[simp] theorem Dev.modSect_flows (b : Nat) (f : Section → Section) (d : Dev) : (Dev.modSect b f d).flows = d.flows := rfl
@[simp] theorem Dev.modSect_acq (b : Nat) (f : Section → Section) (d : Dev) : (Dev.modSect b f d).acq = d.acq := rfl
@[simp] theorem Dev.modSect_gnss (b : Nat) (f : Section → Section) (d : Dev) : (Dev.modSect b f d).gnss = d.gnss := rfl
@[simp] theorem Dev.modSect_fusion (b : Nat) (f : Section → Section) (d : Dev) : (Dev.modSect b f d).fusion = d.fusion := rfl
@[simp] theorem Dev.modSect_solver (b : Nat) (f : Section → Section) (d : Dev) : (Dev.modSect b f d).solver = d.solver := rfl
@[simp] theorem Dev.modSect_conseq (b : Nat) (f : Section → Section) (d : Dev) : (Dev.modSect b f d).conseq = d.conseq := rfl
@[simp] theorem Dev.modSect_engine (b : Nat) (f : Section → Section) (d : Dev) : (Dev.modSect b f d).engine = d.engine := rfl
@[simp] theorem Dev.modSect_probes (b : Nat) (f : Section → Section) (d : Dev) : (Dev.modSect b f d).probes = d.probes := rfl
@[simp] theorem Dev.modSect_net (b : Nat) (f : Section → Section) (d : Dev) : (Dev.modSect b f d).net = d.net := rfl
@[simp] theorem Dev.modSect_can (b : Nat) (f : Section → Section) (d : Dev) : (Dev.modSect b f d).can = d.can := rfl
@[simp] theorem Dev.modSect_clasp (b : Nat) (f : Section → Section) (d : Dev) : (Dev.modSect b f d).clasp = d.clasp := rfl
@[simp] theorem Dev.modSect_island (b : Nat) (f : Section → Section) (d : Dev) : (Dev.modSect b f d).island = d.island := rfl
@[simp] theorem Dev.modSect_health (b : Nat) (f : Section → Section) (d : Dev) : (Dev.modSect b f d).health = d.health := rfl
@[simp] theorem Dev.modSect_faults (b : Nat) (f : Section → Section) (d : Dev) : (Dev.modSect b f d).faults = d.faults := rfl
@[simp] theorem Dev.modSect_locket (b : Nat) (f : Section → Section) (d : Dev) : (Dev.modSect b f d).locket = d.locket := rfl
@[simp] theorem Dev.modSect_life (b : Nat) (f : Section → Section) (d : Dev) : (Dev.modSect b f d).life = d.life := rfl
@[simp] theorem Dev.modSect_hw (b : Nat) (f : Section → Section) (d : Dev) : (Dev.modSect b f d).hw = d.hw := rfl
@[simp] theorem Dev.modSect_nvm (b : Nat) (f : Section → Section) (d : Dev) : (Dev.modSect b f d).nvm = d.nvm := rfl
@[simp] theorem Dev.modSect_out (b : Nat) (f : Section → Section) (d : Dev) : (Dev.modSect b f d).out = d.out := rfl
@[simp] theorem Dev.modSect_free (b : Nat) (f : Section → Section) (d : Dev) : (Dev.modSect b f d).free = d.free := rfl

/-! Dev.modGen -/

@[simp] theorem Dev.modGen_time (g : Nat) (f : Gen → Gen) (d : Dev) : (Dev.modGen g f d).time = d.time := rfl
@[simp] theorem Dev.modGen_pps (g : Nat) (f : Gen → Gen) (d : Dev) : (Dev.modGen g f d).pps = d.pps := rfl
@[simp] theorem Dev.modGen_frame (g : Nat) (f : Gen → Gen) (d : Dev) : (Dev.modGen g f d).frame = d.frame := rfl
@[simp] theorem Dev.modGen_cmd (g : Nat) (f : Gen → Gen) (d : Dev) : (Dev.modGen g f d).cmd = d.cmd := rfl
@[simp] theorem Dev.modGen_cfg (g : Nat) (f : Gen → Gen) (d : Dev) : (Dev.modGen g f d).cfg = d.cfg := rfl
@[simp] theorem Dev.modGen_image (g : Nat) (f : Gen → Gen) (d : Dev) : (Dev.modGen g f d).image = d.image := rfl
@[simp] theorem Dev.modGen_flows (g : Nat) (f : Gen → Gen) (d : Dev) : (Dev.modGen g f d).flows = d.flows := rfl
@[simp] theorem Dev.modGen_acq (g : Nat) (f : Gen → Gen) (d : Dev) : (Dev.modGen g f d).acq = d.acq := rfl
@[simp] theorem Dev.modGen_gnss (g : Nat) (f : Gen → Gen) (d : Dev) : (Dev.modGen g f d).gnss = d.gnss := rfl
@[simp] theorem Dev.modGen_fusion (g : Nat) (f : Gen → Gen) (d : Dev) : (Dev.modGen g f d).fusion = d.fusion := rfl
@[simp] theorem Dev.modGen_solver (g : Nat) (f : Gen → Gen) (d : Dev) : (Dev.modGen g f d).solver = d.solver := rfl
@[simp] theorem Dev.modGen_conseq (g : Nat) (f : Gen → Gen) (d : Dev) : (Dev.modGen g f d).conseq = d.conseq := rfl
@[simp] theorem Dev.modGen_engine (g : Nat) (f : Gen → Gen) (d : Dev) : (Dev.modGen g f d).engine = d.engine := rfl
@[simp] theorem Dev.modGen_probes (g : Nat) (f : Gen → Gen) (d : Dev) : (Dev.modGen g f d).probes = d.probes := rfl
@[simp] theorem Dev.modGen_net (g : Nat) (f : Gen → Gen) (d : Dev) : (Dev.modGen g f d).net = d.net := rfl
@[simp] theorem Dev.modGen_can (g : Nat) (f : Gen → Gen) (d : Dev) : (Dev.modGen g f d).can = d.can := rfl
@[simp] theorem Dev.modGen_clasp (g : Nat) (f : Gen → Gen) (d : Dev) : (Dev.modGen g f d).clasp = d.clasp := rfl
@[simp] theorem Dev.modGen_island (g : Nat) (f : Gen → Gen) (d : Dev) : (Dev.modGen g f d).island = d.island := rfl
@[simp] theorem Dev.modGen_health (g : Nat) (f : Gen → Gen) (d : Dev) : (Dev.modGen g f d).health = d.health := rfl
@[simp] theorem Dev.modGen_faults (g : Nat) (f : Gen → Gen) (d : Dev) : (Dev.modGen g f d).faults = d.faults := rfl
@[simp] theorem Dev.modGen_locket (g : Nat) (f : Gen → Gen) (d : Dev) : (Dev.modGen g f d).locket = d.locket := rfl
@[simp] theorem Dev.modGen_life (g : Nat) (f : Gen → Gen) (d : Dev) : (Dev.modGen g f d).life = d.life := rfl
@[simp] theorem Dev.modGen_hw (g : Nat) (f : Gen → Gen) (d : Dev) : (Dev.modGen g f d).hw = d.hw := rfl
@[simp] theorem Dev.modGen_nvm (g : Nat) (f : Gen → Gen) (d : Dev) : (Dev.modGen g f d).nvm = d.nvm := rfl
@[simp] theorem Dev.modGen_out (g : Nat) (f : Gen → Gen) (d : Dev) : (Dev.modGen g f d).out = d.out := rfl
@[simp] theorem Dev.modGen_free (g : Nat) (f : Gen → Gen) (d : Dev) : (Dev.modGen g f d).free = d.free := rfl

/-! Dev.modIsl -/

@[simp] theorem Dev.modIsl_time (i : Nat) (f : PIsland → PIsland) (d : Dev) : (Dev.modIsl i f d).time = d.time := rfl
@[simp] theorem Dev.modIsl_pps (i : Nat) (f : PIsland → PIsland) (d : Dev) : (Dev.modIsl i f d).pps = d.pps := rfl
@[simp] theorem Dev.modIsl_frame (i : Nat) (f : PIsland → PIsland) (d : Dev) : (Dev.modIsl i f d).frame = d.frame := rfl
@[simp] theorem Dev.modIsl_cmd (i : Nat) (f : PIsland → PIsland) (d : Dev) : (Dev.modIsl i f d).cmd = d.cmd := rfl
@[simp] theorem Dev.modIsl_cfg (i : Nat) (f : PIsland → PIsland) (d : Dev) : (Dev.modIsl i f d).cfg = d.cfg := rfl
@[simp] theorem Dev.modIsl_image (i : Nat) (f : PIsland → PIsland) (d : Dev) : (Dev.modIsl i f d).image = d.image := rfl
@[simp] theorem Dev.modIsl_flows (i : Nat) (f : PIsland → PIsland) (d : Dev) : (Dev.modIsl i f d).flows = d.flows := rfl
@[simp] theorem Dev.modIsl_acq (i : Nat) (f : PIsland → PIsland) (d : Dev) : (Dev.modIsl i f d).acq = d.acq := rfl
@[simp] theorem Dev.modIsl_gnss (i : Nat) (f : PIsland → PIsland) (d : Dev) : (Dev.modIsl i f d).gnss = d.gnss := rfl
@[simp] theorem Dev.modIsl_fusion (i : Nat) (f : PIsland → PIsland) (d : Dev) : (Dev.modIsl i f d).fusion = d.fusion := rfl
@[simp] theorem Dev.modIsl_solver (i : Nat) (f : PIsland → PIsland) (d : Dev) : (Dev.modIsl i f d).solver = d.solver := rfl
@[simp] theorem Dev.modIsl_conseq (i : Nat) (f : PIsland → PIsland) (d : Dev) : (Dev.modIsl i f d).conseq = d.conseq := rfl
@[simp] theorem Dev.modIsl_engine (i : Nat) (f : PIsland → PIsland) (d : Dev) : (Dev.modIsl i f d).engine = d.engine := rfl
@[simp] theorem Dev.modIsl_probes (i : Nat) (f : PIsland → PIsland) (d : Dev) : (Dev.modIsl i f d).probes = d.probes := rfl
@[simp] theorem Dev.modIsl_net (i : Nat) (f : PIsland → PIsland) (d : Dev) : (Dev.modIsl i f d).net = d.net := rfl
@[simp] theorem Dev.modIsl_can (i : Nat) (f : PIsland → PIsland) (d : Dev) : (Dev.modIsl i f d).can = d.can := rfl
@[simp] theorem Dev.modIsl_clasp (i : Nat) (f : PIsland → PIsland) (d : Dev) : (Dev.modIsl i f d).clasp = d.clasp := rfl
@[simp] theorem Dev.modIsl_island (i : Nat) (f : PIsland → PIsland) (d : Dev) : (Dev.modIsl i f d).island = d.island := rfl
@[simp] theorem Dev.modIsl_health (i : Nat) (f : PIsland → PIsland) (d : Dev) : (Dev.modIsl i f d).health = d.health := rfl
@[simp] theorem Dev.modIsl_faults (i : Nat) (f : PIsland → PIsland) (d : Dev) : (Dev.modIsl i f d).faults = d.faults := rfl
@[simp] theorem Dev.modIsl_locket (i : Nat) (f : PIsland → PIsland) (d : Dev) : (Dev.modIsl i f d).locket = d.locket := rfl
@[simp] theorem Dev.modIsl_life (i : Nat) (f : PIsland → PIsland) (d : Dev) : (Dev.modIsl i f d).life = d.life := rfl
@[simp] theorem Dev.modIsl_hw (i : Nat) (f : PIsland → PIsland) (d : Dev) : (Dev.modIsl i f d).hw = d.hw := rfl
@[simp] theorem Dev.modIsl_nvm (i : Nat) (f : PIsland → PIsland) (d : Dev) : (Dev.modIsl i f d).nvm = d.nvm := rfl
@[simp] theorem Dev.modIsl_out (i : Nat) (f : PIsland → PIsland) (d : Dev) : (Dev.modIsl i f d).out = d.out := rfl
@[simp] theorem Dev.modIsl_free (i : Nat) (f : PIsland → PIsland) (d : Dev) : (Dev.modIsl i f d).free = d.free := rfl

/-! Dev.modPb -/

@[simp] theorem Dev.modPb_time (j : Nat) (f : PbThr → PbThr) (d : Dev) : (Dev.modPb j f d).time = d.time := rfl
@[simp] theorem Dev.modPb_pps (j : Nat) (f : PbThr → PbThr) (d : Dev) : (Dev.modPb j f d).pps = d.pps := rfl
@[simp] theorem Dev.modPb_frame (j : Nat) (f : PbThr → PbThr) (d : Dev) : (Dev.modPb j f d).frame = d.frame := rfl
@[simp] theorem Dev.modPb_cmd (j : Nat) (f : PbThr → PbThr) (d : Dev) : (Dev.modPb j f d).cmd = d.cmd := rfl
@[simp] theorem Dev.modPb_cfg (j : Nat) (f : PbThr → PbThr) (d : Dev) : (Dev.modPb j f d).cfg = d.cfg := rfl
@[simp] theorem Dev.modPb_image (j : Nat) (f : PbThr → PbThr) (d : Dev) : (Dev.modPb j f d).image = d.image := rfl
@[simp] theorem Dev.modPb_flows (j : Nat) (f : PbThr → PbThr) (d : Dev) : (Dev.modPb j f d).flows = d.flows := rfl
@[simp] theorem Dev.modPb_acq (j : Nat) (f : PbThr → PbThr) (d : Dev) : (Dev.modPb j f d).acq = d.acq := rfl
@[simp] theorem Dev.modPb_gnss (j : Nat) (f : PbThr → PbThr) (d : Dev) : (Dev.modPb j f d).gnss = d.gnss := rfl
@[simp] theorem Dev.modPb_fusion (j : Nat) (f : PbThr → PbThr) (d : Dev) : (Dev.modPb j f d).fusion = d.fusion := rfl
@[simp] theorem Dev.modPb_solver (j : Nat) (f : PbThr → PbThr) (d : Dev) : (Dev.modPb j f d).solver = d.solver := rfl
@[simp] theorem Dev.modPb_conseq (j : Nat) (f : PbThr → PbThr) (d : Dev) : (Dev.modPb j f d).conseq = d.conseq := rfl
@[simp] theorem Dev.modPb_engine (j : Nat) (f : PbThr → PbThr) (d : Dev) : (Dev.modPb j f d).engine = d.engine := rfl
@[simp] theorem Dev.modPb_probes (j : Nat) (f : PbThr → PbThr) (d : Dev) : (Dev.modPb j f d).probes = d.probes := rfl
@[simp] theorem Dev.modPb_net (j : Nat) (f : PbThr → PbThr) (d : Dev) : (Dev.modPb j f d).net = d.net := rfl
@[simp] theorem Dev.modPb_can (j : Nat) (f : PbThr → PbThr) (d : Dev) : (Dev.modPb j f d).can = d.can := rfl
@[simp] theorem Dev.modPb_clasp (j : Nat) (f : PbThr → PbThr) (d : Dev) : (Dev.modPb j f d).clasp = d.clasp := rfl
@[simp] theorem Dev.modPb_island (j : Nat) (f : PbThr → PbThr) (d : Dev) : (Dev.modPb j f d).island = d.island := rfl
@[simp] theorem Dev.modPb_health (j : Nat) (f : PbThr → PbThr) (d : Dev) : (Dev.modPb j f d).health = d.health := rfl
@[simp] theorem Dev.modPb_faults (j : Nat) (f : PbThr → PbThr) (d : Dev) : (Dev.modPb j f d).faults = d.faults := rfl
@[simp] theorem Dev.modPb_locket (j : Nat) (f : PbThr → PbThr) (d : Dev) : (Dev.modPb j f d).locket = d.locket := rfl
@[simp] theorem Dev.modPb_life (j : Nat) (f : PbThr → PbThr) (d : Dev) : (Dev.modPb j f d).life = d.life := rfl
@[simp] theorem Dev.modPb_hw (j : Nat) (f : PbThr → PbThr) (d : Dev) : (Dev.modPb j f d).hw = d.hw := rfl
@[simp] theorem Dev.modPb_nvm (j : Nat) (f : PbThr → PbThr) (d : Dev) : (Dev.modPb j f d).nvm = d.nvm := rfl
@[simp] theorem Dev.modPb_out (j : Nat) (f : PbThr → PbThr) (d : Dev) : (Dev.modPb j f d).out = d.out := rfl
@[simp] theorem Dev.modPb_free (j : Nat) (f : PbThr → PbThr) (d : Dev) : (Dev.modPb j f d).free = d.free := rfl

/-! Dev.modPort -/

@[simp] theorem Dev.modPort_time (p : Nat) (f : PortSt → PortSt) (d : Dev) : (Dev.modPort p f d).time = d.time := rfl
@[simp] theorem Dev.modPort_pps (p : Nat) (f : PortSt → PortSt) (d : Dev) : (Dev.modPort p f d).pps = d.pps := rfl
@[simp] theorem Dev.modPort_frame (p : Nat) (f : PortSt → PortSt) (d : Dev) : (Dev.modPort p f d).frame = d.frame := rfl
@[simp] theorem Dev.modPort_cmd (p : Nat) (f : PortSt → PortSt) (d : Dev) : (Dev.modPort p f d).cmd = d.cmd := rfl
@[simp] theorem Dev.modPort_cfg (p : Nat) (f : PortSt → PortSt) (d : Dev) : (Dev.modPort p f d).cfg = d.cfg := rfl
@[simp] theorem Dev.modPort_image (p : Nat) (f : PortSt → PortSt) (d : Dev) : (Dev.modPort p f d).image = d.image := rfl
@[simp] theorem Dev.modPort_flows (p : Nat) (f : PortSt → PortSt) (d : Dev) : (Dev.modPort p f d).flows = d.flows := rfl
@[simp] theorem Dev.modPort_acq (p : Nat) (f : PortSt → PortSt) (d : Dev) : (Dev.modPort p f d).acq = d.acq := rfl
@[simp] theorem Dev.modPort_gnss (p : Nat) (f : PortSt → PortSt) (d : Dev) : (Dev.modPort p f d).gnss = d.gnss := rfl
@[simp] theorem Dev.modPort_fusion (p : Nat) (f : PortSt → PortSt) (d : Dev) : (Dev.modPort p f d).fusion = d.fusion := rfl
@[simp] theorem Dev.modPort_solver (p : Nat) (f : PortSt → PortSt) (d : Dev) : (Dev.modPort p f d).solver = d.solver := rfl
@[simp] theorem Dev.modPort_conseq (p : Nat) (f : PortSt → PortSt) (d : Dev) : (Dev.modPort p f d).conseq = d.conseq := rfl
@[simp] theorem Dev.modPort_engine (p : Nat) (f : PortSt → PortSt) (d : Dev) : (Dev.modPort p f d).engine = d.engine := rfl
@[simp] theorem Dev.modPort_probes (p : Nat) (f : PortSt → PortSt) (d : Dev) : (Dev.modPort p f d).probes = d.probes := rfl
@[simp] theorem Dev.modPort_plant (p : Nat) (f : PortSt → PortSt) (d : Dev) : (Dev.modPort p f d).plant = d.plant := rfl
@[simp] theorem Dev.modPort_can (p : Nat) (f : PortSt → PortSt) (d : Dev) : (Dev.modPort p f d).can = d.can := rfl
@[simp] theorem Dev.modPort_clasp (p : Nat) (f : PortSt → PortSt) (d : Dev) : (Dev.modPort p f d).clasp = d.clasp := rfl
@[simp] theorem Dev.modPort_island (p : Nat) (f : PortSt → PortSt) (d : Dev) : (Dev.modPort p f d).island = d.island := rfl
@[simp] theorem Dev.modPort_health (p : Nat) (f : PortSt → PortSt) (d : Dev) : (Dev.modPort p f d).health = d.health := rfl
@[simp] theorem Dev.modPort_faults (p : Nat) (f : PortSt → PortSt) (d : Dev) : (Dev.modPort p f d).faults = d.faults := rfl
@[simp] theorem Dev.modPort_locket (p : Nat) (f : PortSt → PortSt) (d : Dev) : (Dev.modPort p f d).locket = d.locket := rfl
@[simp] theorem Dev.modPort_life (p : Nat) (f : PortSt → PortSt) (d : Dev) : (Dev.modPort p f d).life = d.life := rfl
@[simp] theorem Dev.modPort_hw (p : Nat) (f : PortSt → PortSt) (d : Dev) : (Dev.modPort p f d).hw = d.hw := rfl
@[simp] theorem Dev.modPort_nvm (p : Nat) (f : PortSt → PortSt) (d : Dev) : (Dev.modPort p f d).nvm = d.nvm := rfl
@[simp] theorem Dev.modPort_out (p : Nat) (f : PortSt → PortSt) (d : Dev) : (Dev.modPort p f d).out = d.out := rfl
@[simp] theorem Dev.modPort_free (p : Nat) (f : PortSt → PortSt) (d : Dev) : (Dev.modPort p f d).free = d.free := rfl

/-! Dev.setPtp -/


/-! Dev.modCtrl -/

@[simp] theorem Dev.modCtrl_time (c : Nat) (f : CanCtrl → CanCtrl) (d : Dev) : (Dev.modCtrl c f d).time = d.time := rfl
@[simp] theorem Dev.modCtrl_pps (c : Nat) (f : CanCtrl → CanCtrl) (d : Dev) : (Dev.modCtrl c f d).pps = d.pps := rfl
@[simp] theorem Dev.modCtrl_frame (c : Nat) (f : CanCtrl → CanCtrl) (d : Dev) : (Dev.modCtrl c f d).frame = d.frame := rfl
@[simp] theorem Dev.modCtrl_cmd (c : Nat) (f : CanCtrl → CanCtrl) (d : Dev) : (Dev.modCtrl c f d).cmd = d.cmd := rfl
@[simp] theorem Dev.modCtrl_cfg (c : Nat) (f : CanCtrl → CanCtrl) (d : Dev) : (Dev.modCtrl c f d).cfg = d.cfg := rfl
@[simp] theorem Dev.modCtrl_image (c : Nat) (f : CanCtrl → CanCtrl) (d : Dev) : (Dev.modCtrl c f d).image = d.image := rfl
@[simp] theorem Dev.modCtrl_flows (c : Nat) (f : CanCtrl → CanCtrl) (d : Dev) : (Dev.modCtrl c f d).flows = d.flows := rfl
@[simp] theorem Dev.modCtrl_acq (c : Nat) (f : CanCtrl → CanCtrl) (d : Dev) : (Dev.modCtrl c f d).acq = d.acq := rfl
@[simp] theorem Dev.modCtrl_gnss (c : Nat) (f : CanCtrl → CanCtrl) (d : Dev) : (Dev.modCtrl c f d).gnss = d.gnss := rfl
@[simp] theorem Dev.modCtrl_fusion (c : Nat) (f : CanCtrl → CanCtrl) (d : Dev) : (Dev.modCtrl c f d).fusion = d.fusion := rfl
@[simp] theorem Dev.modCtrl_solver (c : Nat) (f : CanCtrl → CanCtrl) (d : Dev) : (Dev.modCtrl c f d).solver = d.solver := rfl
@[simp] theorem Dev.modCtrl_conseq (c : Nat) (f : CanCtrl → CanCtrl) (d : Dev) : (Dev.modCtrl c f d).conseq = d.conseq := rfl
@[simp] theorem Dev.modCtrl_engine (c : Nat) (f : CanCtrl → CanCtrl) (d : Dev) : (Dev.modCtrl c f d).engine = d.engine := rfl
@[simp] theorem Dev.modCtrl_probes (c : Nat) (f : CanCtrl → CanCtrl) (d : Dev) : (Dev.modCtrl c f d).probes = d.probes := rfl
@[simp] theorem Dev.modCtrl_plant (c : Nat) (f : CanCtrl → CanCtrl) (d : Dev) : (Dev.modCtrl c f d).plant = d.plant := rfl
@[simp] theorem Dev.modCtrl_net (c : Nat) (f : CanCtrl → CanCtrl) (d : Dev) : (Dev.modCtrl c f d).net = d.net := rfl
@[simp] theorem Dev.modCtrl_clasp (c : Nat) (f : CanCtrl → CanCtrl) (d : Dev) : (Dev.modCtrl c f d).clasp = d.clasp := rfl
@[simp] theorem Dev.modCtrl_island (c : Nat) (f : CanCtrl → CanCtrl) (d : Dev) : (Dev.modCtrl c f d).island = d.island := rfl
@[simp] theorem Dev.modCtrl_health (c : Nat) (f : CanCtrl → CanCtrl) (d : Dev) : (Dev.modCtrl c f d).health = d.health := rfl
@[simp] theorem Dev.modCtrl_faults (c : Nat) (f : CanCtrl → CanCtrl) (d : Dev) : (Dev.modCtrl c f d).faults = d.faults := rfl
@[simp] theorem Dev.modCtrl_locket (c : Nat) (f : CanCtrl → CanCtrl) (d : Dev) : (Dev.modCtrl c f d).locket = d.locket := rfl
@[simp] theorem Dev.modCtrl_life (c : Nat) (f : CanCtrl → CanCtrl) (d : Dev) : (Dev.modCtrl c f d).life = d.life := rfl
@[simp] theorem Dev.modCtrl_hw (c : Nat) (f : CanCtrl → CanCtrl) (d : Dev) : (Dev.modCtrl c f d).hw = d.hw := rfl
@[simp] theorem Dev.modCtrl_nvm (c : Nat) (f : CanCtrl → CanCtrl) (d : Dev) : (Dev.modCtrl c f d).nvm = d.nvm := rfl
@[simp] theorem Dev.modCtrl_out (c : Nat) (f : CanCtrl → CanCtrl) (d : Dev) : (Dev.modCtrl c f d).out = d.out := rfl
@[simp] theorem Dev.modCtrl_free (c : Nat) (f : CanCtrl → CanCtrl) (d : Dev) : (Dev.modCtrl c f d).free = d.free := rfl

/-! Dev.modThr -/

@[simp] theorem Dev.modThr_time (j : Nat) (f : ThrSt → ThrSt) (d : Dev) : (Dev.modThr j f d).time = d.time := rfl
@[simp] theorem Dev.modThr_pps (j : Nat) (f : ThrSt → ThrSt) (d : Dev) : (Dev.modThr j f d).pps = d.pps := rfl
@[simp] theorem Dev.modThr_frame (j : Nat) (f : ThrSt → ThrSt) (d : Dev) : (Dev.modThr j f d).frame = d.frame := rfl
@[simp] theorem Dev.modThr_cmd (j : Nat) (f : ThrSt → ThrSt) (d : Dev) : (Dev.modThr j f d).cmd = d.cmd := rfl
@[simp] theorem Dev.modThr_cfg (j : Nat) (f : ThrSt → ThrSt) (d : Dev) : (Dev.modThr j f d).cfg = d.cfg := rfl
@[simp] theorem Dev.modThr_image (j : Nat) (f : ThrSt → ThrSt) (d : Dev) : (Dev.modThr j f d).image = d.image := rfl
@[simp] theorem Dev.modThr_flows (j : Nat) (f : ThrSt → ThrSt) (d : Dev) : (Dev.modThr j f d).flows = d.flows := rfl
@[simp] theorem Dev.modThr_acq (j : Nat) (f : ThrSt → ThrSt) (d : Dev) : (Dev.modThr j f d).acq = d.acq := rfl
@[simp] theorem Dev.modThr_gnss (j : Nat) (f : ThrSt → ThrSt) (d : Dev) : (Dev.modThr j f d).gnss = d.gnss := rfl
@[simp] theorem Dev.modThr_fusion (j : Nat) (f : ThrSt → ThrSt) (d : Dev) : (Dev.modThr j f d).fusion = d.fusion := rfl
@[simp] theorem Dev.modThr_solver (j : Nat) (f : ThrSt → ThrSt) (d : Dev) : (Dev.modThr j f d).solver = d.solver := rfl
@[simp] theorem Dev.modThr_conseq (j : Nat) (f : ThrSt → ThrSt) (d : Dev) : (Dev.modThr j f d).conseq = d.conseq := rfl
@[simp] theorem Dev.modThr_engine (j : Nat) (f : ThrSt → ThrSt) (d : Dev) : (Dev.modThr j f d).engine = d.engine := rfl
@[simp] theorem Dev.modThr_probes (j : Nat) (f : ThrSt → ThrSt) (d : Dev) : (Dev.modThr j f d).probes = d.probes := rfl
@[simp] theorem Dev.modThr_plant (j : Nat) (f : ThrSt → ThrSt) (d : Dev) : (Dev.modThr j f d).plant = d.plant := rfl
@[simp] theorem Dev.modThr_net (j : Nat) (f : ThrSt → ThrSt) (d : Dev) : (Dev.modThr j f d).net = d.net := rfl
@[simp] theorem Dev.modThr_clasp (j : Nat) (f : ThrSt → ThrSt) (d : Dev) : (Dev.modThr j f d).clasp = d.clasp := rfl
@[simp] theorem Dev.modThr_island (j : Nat) (f : ThrSt → ThrSt) (d : Dev) : (Dev.modThr j f d).island = d.island := rfl
@[simp] theorem Dev.modThr_health (j : Nat) (f : ThrSt → ThrSt) (d : Dev) : (Dev.modThr j f d).health = d.health := rfl
@[simp] theorem Dev.modThr_faults (j : Nat) (f : ThrSt → ThrSt) (d : Dev) : (Dev.modThr j f d).faults = d.faults := rfl
@[simp] theorem Dev.modThr_locket (j : Nat) (f : ThrSt → ThrSt) (d : Dev) : (Dev.modThr j f d).locket = d.locket := rfl
@[simp] theorem Dev.modThr_life (j : Nat) (f : ThrSt → ThrSt) (d : Dev) : (Dev.modThr j f d).life = d.life := rfl
@[simp] theorem Dev.modThr_hw (j : Nat) (f : ThrSt → ThrSt) (d : Dev) : (Dev.modThr j f d).hw = d.hw := rfl
@[simp] theorem Dev.modThr_nvm (j : Nat) (f : ThrSt → ThrSt) (d : Dev) : (Dev.modThr j f d).nvm = d.nvm := rfl
@[simp] theorem Dev.modThr_out (j : Nat) (f : ThrSt → ThrSt) (d : Dev) : (Dev.modThr j f d).out = d.out := rfl
@[simp] theorem Dev.modThr_free (j : Nat) (f : ThrSt → ThrSt) (d : Dev) : (Dev.modThr j f d).free = d.free := rfl

/-! Dev.setRxMap -/

@[simp] theorem Dev.setRxMap_time (e : Nat) (m : RxMapSt) (d : Dev) : (Dev.setRxMap e m d).time = d.time := rfl
@[simp] theorem Dev.setRxMap_pps (e : Nat) (m : RxMapSt) (d : Dev) : (Dev.setRxMap e m d).pps = d.pps := rfl
@[simp] theorem Dev.setRxMap_frame (e : Nat) (m : RxMapSt) (d : Dev) : (Dev.setRxMap e m d).frame = d.frame := rfl
@[simp] theorem Dev.setRxMap_cmd (e : Nat) (m : RxMapSt) (d : Dev) : (Dev.setRxMap e m d).cmd = d.cmd := rfl
@[simp] theorem Dev.setRxMap_cfg (e : Nat) (m : RxMapSt) (d : Dev) : (Dev.setRxMap e m d).cfg = d.cfg := rfl
@[simp] theorem Dev.setRxMap_image (e : Nat) (m : RxMapSt) (d : Dev) : (Dev.setRxMap e m d).image = d.image := rfl
@[simp] theorem Dev.setRxMap_flows (e : Nat) (m : RxMapSt) (d : Dev) : (Dev.setRxMap e m d).flows = d.flows := rfl
@[simp] theorem Dev.setRxMap_acq (e : Nat) (m : RxMapSt) (d : Dev) : (Dev.setRxMap e m d).acq = d.acq := rfl
@[simp] theorem Dev.setRxMap_gnss (e : Nat) (m : RxMapSt) (d : Dev) : (Dev.setRxMap e m d).gnss = d.gnss := rfl
@[simp] theorem Dev.setRxMap_fusion (e : Nat) (m : RxMapSt) (d : Dev) : (Dev.setRxMap e m d).fusion = d.fusion := rfl
@[simp] theorem Dev.setRxMap_solver (e : Nat) (m : RxMapSt) (d : Dev) : (Dev.setRxMap e m d).solver = d.solver := rfl
@[simp] theorem Dev.setRxMap_conseq (e : Nat) (m : RxMapSt) (d : Dev) : (Dev.setRxMap e m d).conseq = d.conseq := rfl
@[simp] theorem Dev.setRxMap_engine (e : Nat) (m : RxMapSt) (d : Dev) : (Dev.setRxMap e m d).engine = d.engine := rfl
@[simp] theorem Dev.setRxMap_probes (e : Nat) (m : RxMapSt) (d : Dev) : (Dev.setRxMap e m d).probes = d.probes := rfl
@[simp] theorem Dev.setRxMap_plant (e : Nat) (m : RxMapSt) (d : Dev) : (Dev.setRxMap e m d).plant = d.plant := rfl
@[simp] theorem Dev.setRxMap_net (e : Nat) (m : RxMapSt) (d : Dev) : (Dev.setRxMap e m d).net = d.net := rfl
@[simp] theorem Dev.setRxMap_clasp (e : Nat) (m : RxMapSt) (d : Dev) : (Dev.setRxMap e m d).clasp = d.clasp := rfl
@[simp] theorem Dev.setRxMap_island (e : Nat) (m : RxMapSt) (d : Dev) : (Dev.setRxMap e m d).island = d.island := rfl
@[simp] theorem Dev.setRxMap_health (e : Nat) (m : RxMapSt) (d : Dev) : (Dev.setRxMap e m d).health = d.health := rfl
@[simp] theorem Dev.setRxMap_faults (e : Nat) (m : RxMapSt) (d : Dev) : (Dev.setRxMap e m d).faults = d.faults := rfl
@[simp] theorem Dev.setRxMap_locket (e : Nat) (m : RxMapSt) (d : Dev) : (Dev.setRxMap e m d).locket = d.locket := rfl
@[simp] theorem Dev.setRxMap_life (e : Nat) (m : RxMapSt) (d : Dev) : (Dev.setRxMap e m d).life = d.life := rfl
@[simp] theorem Dev.setRxMap_hw (e : Nat) (m : RxMapSt) (d : Dev) : (Dev.setRxMap e m d).hw = d.hw := rfl
@[simp] theorem Dev.setRxMap_nvm (e : Nat) (m : RxMapSt) (d : Dev) : (Dev.setRxMap e m d).nvm = d.nvm := rfl
@[simp] theorem Dev.setRxMap_out (e : Nat) (m : RxMapSt) (d : Dev) : (Dev.setRxMap e m d).out = d.out := rfl
@[simp] theorem Dev.setRxMap_free (e : Nat) (m : RxMapSt) (d : Dev) : (Dev.setRxMap e m d).free = d.free := rfl

/-! Dev.modClasp -/

@[simp] theorem Dev.modClasp_time (f : ClaspSt → ClaspSt) (d : Dev) : (Dev.modClasp f d).time = d.time := rfl
@[simp] theorem Dev.modClasp_pps (f : ClaspSt → ClaspSt) (d : Dev) : (Dev.modClasp f d).pps = d.pps := rfl
@[simp] theorem Dev.modClasp_frame (f : ClaspSt → ClaspSt) (d : Dev) : (Dev.modClasp f d).frame = d.frame := rfl
@[simp] theorem Dev.modClasp_cmd (f : ClaspSt → ClaspSt) (d : Dev) : (Dev.modClasp f d).cmd = d.cmd := rfl
@[simp] theorem Dev.modClasp_cfg (f : ClaspSt → ClaspSt) (d : Dev) : (Dev.modClasp f d).cfg = d.cfg := rfl
@[simp] theorem Dev.modClasp_image (f : ClaspSt → ClaspSt) (d : Dev) : (Dev.modClasp f d).image = d.image := rfl
@[simp] theorem Dev.modClasp_flows (f : ClaspSt → ClaspSt) (d : Dev) : (Dev.modClasp f d).flows = d.flows := rfl
@[simp] theorem Dev.modClasp_acq (f : ClaspSt → ClaspSt) (d : Dev) : (Dev.modClasp f d).acq = d.acq := rfl
@[simp] theorem Dev.modClasp_gnss (f : ClaspSt → ClaspSt) (d : Dev) : (Dev.modClasp f d).gnss = d.gnss := rfl
@[simp] theorem Dev.modClasp_fusion (f : ClaspSt → ClaspSt) (d : Dev) : (Dev.modClasp f d).fusion = d.fusion := rfl
@[simp] theorem Dev.modClasp_solver (f : ClaspSt → ClaspSt) (d : Dev) : (Dev.modClasp f d).solver = d.solver := rfl
@[simp] theorem Dev.modClasp_conseq (f : ClaspSt → ClaspSt) (d : Dev) : (Dev.modClasp f d).conseq = d.conseq := rfl
@[simp] theorem Dev.modClasp_engine (f : ClaspSt → ClaspSt) (d : Dev) : (Dev.modClasp f d).engine = d.engine := rfl
@[simp] theorem Dev.modClasp_probes (f : ClaspSt → ClaspSt) (d : Dev) : (Dev.modClasp f d).probes = d.probes := rfl
@[simp] theorem Dev.modClasp_plant (f : ClaspSt → ClaspSt) (d : Dev) : (Dev.modClasp f d).plant = d.plant := rfl
@[simp] theorem Dev.modClasp_net (f : ClaspSt → ClaspSt) (d : Dev) : (Dev.modClasp f d).net = d.net := rfl
@[simp] theorem Dev.modClasp_can (f : ClaspSt → ClaspSt) (d : Dev) : (Dev.modClasp f d).can = d.can := rfl
@[simp] theorem Dev.modClasp_island (f : ClaspSt → ClaspSt) (d : Dev) : (Dev.modClasp f d).island = d.island := rfl
@[simp] theorem Dev.modClasp_health (f : ClaspSt → ClaspSt) (d : Dev) : (Dev.modClasp f d).health = d.health := rfl
@[simp] theorem Dev.modClasp_faults (f : ClaspSt → ClaspSt) (d : Dev) : (Dev.modClasp f d).faults = d.faults := rfl
@[simp] theorem Dev.modClasp_locket (f : ClaspSt → ClaspSt) (d : Dev) : (Dev.modClasp f d).locket = d.locket := rfl
@[simp] theorem Dev.modClasp_life (f : ClaspSt → ClaspSt) (d : Dev) : (Dev.modClasp f d).life = d.life := rfl
@[simp] theorem Dev.modClasp_hw (f : ClaspSt → ClaspSt) (d : Dev) : (Dev.modClasp f d).hw = d.hw := rfl
@[simp] theorem Dev.modClasp_nvm (f : ClaspSt → ClaspSt) (d : Dev) : (Dev.modClasp f d).nvm = d.nvm := rfl
@[simp] theorem Dev.modClasp_out (f : ClaspSt → ClaspSt) (d : Dev) : (Dev.modClasp f d).out = d.out := rfl
@[simp] theorem Dev.modClasp_free (f : ClaspSt → ClaspSt) (d : Dev) : (Dev.modClasp f d).free = d.free := rfl
@[simp] theorem Dev.modClasp_clasp (f : ClaspSt → ClaspSt) (d : Dev) : (Dev.modClasp f d).clasp = f d.clasp := rfl

/-! Dev.setFeed -/

@[simp] theorem Dev.setFeed_time (f v : Nat) (b : Bool) (d : Dev) : (Dev.setFeed f v b d).time = d.time := rfl
@[simp] theorem Dev.setFeed_pps (f v : Nat) (b : Bool) (d : Dev) : (Dev.setFeed f v b d).pps = d.pps := rfl
@[simp] theorem Dev.setFeed_frame (f v : Nat) (b : Bool) (d : Dev) : (Dev.setFeed f v b d).frame = d.frame := rfl
@[simp] theorem Dev.setFeed_cmd (f v : Nat) (b : Bool) (d : Dev) : (Dev.setFeed f v b d).cmd = d.cmd := rfl
@[simp] theorem Dev.setFeed_cfg (f v : Nat) (b : Bool) (d : Dev) : (Dev.setFeed f v b d).cfg = d.cfg := rfl
@[simp] theorem Dev.setFeed_image (f v : Nat) (b : Bool) (d : Dev) : (Dev.setFeed f v b d).image = d.image := rfl
@[simp] theorem Dev.setFeed_flows (f v : Nat) (b : Bool) (d : Dev) : (Dev.setFeed f v b d).flows = d.flows := rfl
@[simp] theorem Dev.setFeed_acq (f v : Nat) (b : Bool) (d : Dev) : (Dev.setFeed f v b d).acq = d.acq := rfl
@[simp] theorem Dev.setFeed_gnss (f v : Nat) (b : Bool) (d : Dev) : (Dev.setFeed f v b d).gnss = d.gnss := rfl
@[simp] theorem Dev.setFeed_fusion (f v : Nat) (b : Bool) (d : Dev) : (Dev.setFeed f v b d).fusion = d.fusion := rfl
@[simp] theorem Dev.setFeed_solver (f v : Nat) (b : Bool) (d : Dev) : (Dev.setFeed f v b d).solver = d.solver := rfl
@[simp] theorem Dev.setFeed_conseq (f v : Nat) (b : Bool) (d : Dev) : (Dev.setFeed f v b d).conseq = d.conseq := rfl
@[simp] theorem Dev.setFeed_engine (f v : Nat) (b : Bool) (d : Dev) : (Dev.setFeed f v b d).engine = d.engine := rfl
@[simp] theorem Dev.setFeed_probes (f v : Nat) (b : Bool) (d : Dev) : (Dev.setFeed f v b d).probes = d.probes := rfl
@[simp] theorem Dev.setFeed_plant (f v : Nat) (b : Bool) (d : Dev) : (Dev.setFeed f v b d).plant = d.plant := rfl
@[simp] theorem Dev.setFeed_net (f v : Nat) (b : Bool) (d : Dev) : (Dev.setFeed f v b d).net = d.net := rfl
@[simp] theorem Dev.setFeed_can (f v : Nat) (b : Bool) (d : Dev) : (Dev.setFeed f v b d).can = d.can := rfl
@[simp] theorem Dev.setFeed_island (f v : Nat) (b : Bool) (d : Dev) : (Dev.setFeed f v b d).island = d.island := rfl
@[simp] theorem Dev.setFeed_health (f v : Nat) (b : Bool) (d : Dev) : (Dev.setFeed f v b d).health = d.health := rfl
@[simp] theorem Dev.setFeed_faults (f v : Nat) (b : Bool) (d : Dev) : (Dev.setFeed f v b d).faults = d.faults := rfl
@[simp] theorem Dev.setFeed_locket (f v : Nat) (b : Bool) (d : Dev) : (Dev.setFeed f v b d).locket = d.locket := rfl
@[simp] theorem Dev.setFeed_life (f v : Nat) (b : Bool) (d : Dev) : (Dev.setFeed f v b d).life = d.life := rfl
@[simp] theorem Dev.setFeed_hw (f v : Nat) (b : Bool) (d : Dev) : (Dev.setFeed f v b d).hw = d.hw := rfl
@[simp] theorem Dev.setFeed_nvm (f v : Nat) (b : Bool) (d : Dev) : (Dev.setFeed f v b d).nvm = d.nvm := rfl
@[simp] theorem Dev.setFeed_out (f v : Nat) (b : Bool) (d : Dev) : (Dev.setFeed f v b d).out = d.out := rfl
@[simp] theorem Dev.setFeed_free (f v : Nat) (b : Bool) (d : Dev) : (Dev.setFeed f v b d).free = d.free := rfl

/-! Dev.modSafe -/

@[simp] theorem Dev.modSafe_time (f : IslandSt → IslandSt) (d : Dev) : (Dev.modSafe f d).time = d.time := rfl
@[simp] theorem Dev.modSafe_pps (f : IslandSt → IslandSt) (d : Dev) : (Dev.modSafe f d).pps = d.pps := rfl
@[simp] theorem Dev.modSafe_frame (f : IslandSt → IslandSt) (d : Dev) : (Dev.modSafe f d).frame = d.frame := rfl
@[simp] theorem Dev.modSafe_cmd (f : IslandSt → IslandSt) (d : Dev) : (Dev.modSafe f d).cmd = d.cmd := rfl
@[simp] theorem Dev.modSafe_cfg (f : IslandSt → IslandSt) (d : Dev) : (Dev.modSafe f d).cfg = d.cfg := rfl
@[simp] theorem Dev.modSafe_image (f : IslandSt → IslandSt) (d : Dev) : (Dev.modSafe f d).image = d.image := rfl
@[simp] theorem Dev.modSafe_flows (f : IslandSt → IslandSt) (d : Dev) : (Dev.modSafe f d).flows = d.flows := rfl
@[simp] theorem Dev.modSafe_acq (f : IslandSt → IslandSt) (d : Dev) : (Dev.modSafe f d).acq = d.acq := rfl
@[simp] theorem Dev.modSafe_gnss (f : IslandSt → IslandSt) (d : Dev) : (Dev.modSafe f d).gnss = d.gnss := rfl
@[simp] theorem Dev.modSafe_fusion (f : IslandSt → IslandSt) (d : Dev) : (Dev.modSafe f d).fusion = d.fusion := rfl
@[simp] theorem Dev.modSafe_solver (f : IslandSt → IslandSt) (d : Dev) : (Dev.modSafe f d).solver = d.solver := rfl
@[simp] theorem Dev.modSafe_conseq (f : IslandSt → IslandSt) (d : Dev) : (Dev.modSafe f d).conseq = d.conseq := rfl
@[simp] theorem Dev.modSafe_engine (f : IslandSt → IslandSt) (d : Dev) : (Dev.modSafe f d).engine = d.engine := rfl
@[simp] theorem Dev.modSafe_probes (f : IslandSt → IslandSt) (d : Dev) : (Dev.modSafe f d).probes = d.probes := rfl
@[simp] theorem Dev.modSafe_plant (f : IslandSt → IslandSt) (d : Dev) : (Dev.modSafe f d).plant = d.plant := rfl
@[simp] theorem Dev.modSafe_net (f : IslandSt → IslandSt) (d : Dev) : (Dev.modSafe f d).net = d.net := rfl
@[simp] theorem Dev.modSafe_can (f : IslandSt → IslandSt) (d : Dev) : (Dev.modSafe f d).can = d.can := rfl
@[simp] theorem Dev.modSafe_clasp (f : IslandSt → IslandSt) (d : Dev) : (Dev.modSafe f d).clasp = d.clasp := rfl
@[simp] theorem Dev.modSafe_health (f : IslandSt → IslandSt) (d : Dev) : (Dev.modSafe f d).health = d.health := rfl
@[simp] theorem Dev.modSafe_faults (f : IslandSt → IslandSt) (d : Dev) : (Dev.modSafe f d).faults = d.faults := rfl
@[simp] theorem Dev.modSafe_locket (f : IslandSt → IslandSt) (d : Dev) : (Dev.modSafe f d).locket = d.locket := rfl
@[simp] theorem Dev.modSafe_life (f : IslandSt → IslandSt) (d : Dev) : (Dev.modSafe f d).life = d.life := rfl
@[simp] theorem Dev.modSafe_hw (f : IslandSt → IslandSt) (d : Dev) : (Dev.modSafe f d).hw = d.hw := rfl
@[simp] theorem Dev.modSafe_nvm (f : IslandSt → IslandSt) (d : Dev) : (Dev.modSafe f d).nvm = d.nvm := rfl
@[simp] theorem Dev.modSafe_out (f : IslandSt → IslandSt) (d : Dev) : (Dev.modSafe f d).out = d.out := rfl
@[simp] theorem Dev.modSafe_free (f : IslandSt → IslandSt) (d : Dev) : (Dev.modSafe f d).free = d.free := rfl
@[simp] theorem Dev.modSafe_island (f : IslandSt → IslandSt) (d : Dev) : (Dev.modSafe f d).island = f d.island := rfl

/-! Dev.modIn -/

@[simp] theorem Dev.modIn_time (i : Nat) (f : SafeIn → SafeIn) (d : Dev) : (Dev.modIn i f d).time = d.time := rfl
@[simp] theorem Dev.modIn_pps (i : Nat) (f : SafeIn → SafeIn) (d : Dev) : (Dev.modIn i f d).pps = d.pps := rfl
@[simp] theorem Dev.modIn_frame (i : Nat) (f : SafeIn → SafeIn) (d : Dev) : (Dev.modIn i f d).frame = d.frame := rfl
@[simp] theorem Dev.modIn_cmd (i : Nat) (f : SafeIn → SafeIn) (d : Dev) : (Dev.modIn i f d).cmd = d.cmd := rfl
@[simp] theorem Dev.modIn_cfg (i : Nat) (f : SafeIn → SafeIn) (d : Dev) : (Dev.modIn i f d).cfg = d.cfg := rfl
@[simp] theorem Dev.modIn_image (i : Nat) (f : SafeIn → SafeIn) (d : Dev) : (Dev.modIn i f d).image = d.image := rfl
@[simp] theorem Dev.modIn_flows (i : Nat) (f : SafeIn → SafeIn) (d : Dev) : (Dev.modIn i f d).flows = d.flows := rfl
@[simp] theorem Dev.modIn_acq (i : Nat) (f : SafeIn → SafeIn) (d : Dev) : (Dev.modIn i f d).acq = d.acq := rfl
@[simp] theorem Dev.modIn_gnss (i : Nat) (f : SafeIn → SafeIn) (d : Dev) : (Dev.modIn i f d).gnss = d.gnss := rfl
@[simp] theorem Dev.modIn_fusion (i : Nat) (f : SafeIn → SafeIn) (d : Dev) : (Dev.modIn i f d).fusion = d.fusion := rfl
@[simp] theorem Dev.modIn_solver (i : Nat) (f : SafeIn → SafeIn) (d : Dev) : (Dev.modIn i f d).solver = d.solver := rfl
@[simp] theorem Dev.modIn_conseq (i : Nat) (f : SafeIn → SafeIn) (d : Dev) : (Dev.modIn i f d).conseq = d.conseq := rfl
@[simp] theorem Dev.modIn_engine (i : Nat) (f : SafeIn → SafeIn) (d : Dev) : (Dev.modIn i f d).engine = d.engine := rfl
@[simp] theorem Dev.modIn_probes (i : Nat) (f : SafeIn → SafeIn) (d : Dev) : (Dev.modIn i f d).probes = d.probes := rfl
@[simp] theorem Dev.modIn_plant (i : Nat) (f : SafeIn → SafeIn) (d : Dev) : (Dev.modIn i f d).plant = d.plant := rfl
@[simp] theorem Dev.modIn_net (i : Nat) (f : SafeIn → SafeIn) (d : Dev) : (Dev.modIn i f d).net = d.net := rfl
@[simp] theorem Dev.modIn_can (i : Nat) (f : SafeIn → SafeIn) (d : Dev) : (Dev.modIn i f d).can = d.can := rfl
@[simp] theorem Dev.modIn_clasp (i : Nat) (f : SafeIn → SafeIn) (d : Dev) : (Dev.modIn i f d).clasp = d.clasp := rfl
@[simp] theorem Dev.modIn_health (i : Nat) (f : SafeIn → SafeIn) (d : Dev) : (Dev.modIn i f d).health = d.health := rfl
@[simp] theorem Dev.modIn_faults (i : Nat) (f : SafeIn → SafeIn) (d : Dev) : (Dev.modIn i f d).faults = d.faults := rfl
@[simp] theorem Dev.modIn_locket (i : Nat) (f : SafeIn → SafeIn) (d : Dev) : (Dev.modIn i f d).locket = d.locket := rfl
@[simp] theorem Dev.modIn_life (i : Nat) (f : SafeIn → SafeIn) (d : Dev) : (Dev.modIn i f d).life = d.life := rfl
@[simp] theorem Dev.modIn_hw (i : Nat) (f : SafeIn → SafeIn) (d : Dev) : (Dev.modIn i f d).hw = d.hw := rfl
@[simp] theorem Dev.modIn_nvm (i : Nat) (f : SafeIn → SafeIn) (d : Dev) : (Dev.modIn i f d).nvm = d.nvm := rfl
@[simp] theorem Dev.modIn_out (i : Nat) (f : SafeIn → SafeIn) (d : Dev) : (Dev.modIn i f d).out = d.out := rfl
@[simp] theorem Dev.modIn_free (i : Nat) (f : SafeIn → SafeIn) (d : Dev) : (Dev.modIn i f d).free = d.free := rfl

/-! Dev.modOut -/

@[simp] theorem Dev.modOut_time (n : Nat) (f : SafeOut → SafeOut) (d : Dev) : (Dev.modOut n f d).time = d.time := rfl
@[simp] theorem Dev.modOut_pps (n : Nat) (f : SafeOut → SafeOut) (d : Dev) : (Dev.modOut n f d).pps = d.pps := rfl
@[simp] theorem Dev.modOut_frame (n : Nat) (f : SafeOut → SafeOut) (d : Dev) : (Dev.modOut n f d).frame = d.frame := rfl
@[simp] theorem Dev.modOut_cmd (n : Nat) (f : SafeOut → SafeOut) (d : Dev) : (Dev.modOut n f d).cmd = d.cmd := rfl
@[simp] theorem Dev.modOut_cfg (n : Nat) (f : SafeOut → SafeOut) (d : Dev) : (Dev.modOut n f d).cfg = d.cfg := rfl
@[simp] theorem Dev.modOut_image (n : Nat) (f : SafeOut → SafeOut) (d : Dev) : (Dev.modOut n f d).image = d.image := rfl
@[simp] theorem Dev.modOut_flows (n : Nat) (f : SafeOut → SafeOut) (d : Dev) : (Dev.modOut n f d).flows = d.flows := rfl
@[simp] theorem Dev.modOut_acq (n : Nat) (f : SafeOut → SafeOut) (d : Dev) : (Dev.modOut n f d).acq = d.acq := rfl
@[simp] theorem Dev.modOut_gnss (n : Nat) (f : SafeOut → SafeOut) (d : Dev) : (Dev.modOut n f d).gnss = d.gnss := rfl
@[simp] theorem Dev.modOut_fusion (n : Nat) (f : SafeOut → SafeOut) (d : Dev) : (Dev.modOut n f d).fusion = d.fusion := rfl
@[simp] theorem Dev.modOut_solver (n : Nat) (f : SafeOut → SafeOut) (d : Dev) : (Dev.modOut n f d).solver = d.solver := rfl
@[simp] theorem Dev.modOut_conseq (n : Nat) (f : SafeOut → SafeOut) (d : Dev) : (Dev.modOut n f d).conseq = d.conseq := rfl
@[simp] theorem Dev.modOut_engine (n : Nat) (f : SafeOut → SafeOut) (d : Dev) : (Dev.modOut n f d).engine = d.engine := rfl
@[simp] theorem Dev.modOut_probes (n : Nat) (f : SafeOut → SafeOut) (d : Dev) : (Dev.modOut n f d).probes = d.probes := rfl
@[simp] theorem Dev.modOut_plant (n : Nat) (f : SafeOut → SafeOut) (d : Dev) : (Dev.modOut n f d).plant = d.plant := rfl
@[simp] theorem Dev.modOut_net (n : Nat) (f : SafeOut → SafeOut) (d : Dev) : (Dev.modOut n f d).net = d.net := rfl
@[simp] theorem Dev.modOut_can (n : Nat) (f : SafeOut → SafeOut) (d : Dev) : (Dev.modOut n f d).can = d.can := rfl
@[simp] theorem Dev.modOut_clasp (n : Nat) (f : SafeOut → SafeOut) (d : Dev) : (Dev.modOut n f d).clasp = d.clasp := rfl
@[simp] theorem Dev.modOut_health (n : Nat) (f : SafeOut → SafeOut) (d : Dev) : (Dev.modOut n f d).health = d.health := rfl
@[simp] theorem Dev.modOut_faults (n : Nat) (f : SafeOut → SafeOut) (d : Dev) : (Dev.modOut n f d).faults = d.faults := rfl
@[simp] theorem Dev.modOut_locket (n : Nat) (f : SafeOut → SafeOut) (d : Dev) : (Dev.modOut n f d).locket = d.locket := rfl
@[simp] theorem Dev.modOut_life (n : Nat) (f : SafeOut → SafeOut) (d : Dev) : (Dev.modOut n f d).life = d.life := rfl
@[simp] theorem Dev.modOut_hw (n : Nat) (f : SafeOut → SafeOut) (d : Dev) : (Dev.modOut n f d).hw = d.hw := rfl
@[simp] theorem Dev.modOut_nvm (n : Nat) (f : SafeOut → SafeOut) (d : Dev) : (Dev.modOut n f d).nvm = d.nvm := rfl
@[simp] theorem Dev.modOut_out (n : Nat) (f : SafeOut → SafeOut) (d : Dev) : (Dev.modOut n f d).out = d.out := rfl
@[simp] theorem Dev.modOut_free (n : Nat) (f : SafeOut → SafeOut) (d : Dev) : (Dev.modOut n f d).free = d.free := rfl

/-! Dev.modSite -/

@[simp] theorem Dev.modSite_time (i : Nat) (f : Site → Site) (d : Dev) : (Dev.modSite i f d).time = d.time := rfl
@[simp] theorem Dev.modSite_pps (i : Nat) (f : Site → Site) (d : Dev) : (Dev.modSite i f d).pps = d.pps := rfl
@[simp] theorem Dev.modSite_frame (i : Nat) (f : Site → Site) (d : Dev) : (Dev.modSite i f d).frame = d.frame := rfl
@[simp] theorem Dev.modSite_cmd (i : Nat) (f : Site → Site) (d : Dev) : (Dev.modSite i f d).cmd = d.cmd := rfl
@[simp] theorem Dev.modSite_cfg (i : Nat) (f : Site → Site) (d : Dev) : (Dev.modSite i f d).cfg = d.cfg := rfl
@[simp] theorem Dev.modSite_image (i : Nat) (f : Site → Site) (d : Dev) : (Dev.modSite i f d).image = d.image := rfl
@[simp] theorem Dev.modSite_flows (i : Nat) (f : Site → Site) (d : Dev) : (Dev.modSite i f d).flows = d.flows := rfl
@[simp] theorem Dev.modSite_acq (i : Nat) (f : Site → Site) (d : Dev) : (Dev.modSite i f d).acq = d.acq := rfl
@[simp] theorem Dev.modSite_gnss (i : Nat) (f : Site → Site) (d : Dev) : (Dev.modSite i f d).gnss = d.gnss := rfl
@[simp] theorem Dev.modSite_fusion (i : Nat) (f : Site → Site) (d : Dev) : (Dev.modSite i f d).fusion = d.fusion := rfl
@[simp] theorem Dev.modSite_solver (i : Nat) (f : Site → Site) (d : Dev) : (Dev.modSite i f d).solver = d.solver := rfl
@[simp] theorem Dev.modSite_conseq (i : Nat) (f : Site → Site) (d : Dev) : (Dev.modSite i f d).conseq = d.conseq := rfl
@[simp] theorem Dev.modSite_engine (i : Nat) (f : Site → Site) (d : Dev) : (Dev.modSite i f d).engine = d.engine := rfl
@[simp] theorem Dev.modSite_probes (i : Nat) (f : Site → Site) (d : Dev) : (Dev.modSite i f d).probes = d.probes := rfl
@[simp] theorem Dev.modSite_plant (i : Nat) (f : Site → Site) (d : Dev) : (Dev.modSite i f d).plant = d.plant := rfl
@[simp] theorem Dev.modSite_net (i : Nat) (f : Site → Site) (d : Dev) : (Dev.modSite i f d).net = d.net := rfl
@[simp] theorem Dev.modSite_can (i : Nat) (f : Site → Site) (d : Dev) : (Dev.modSite i f d).can = d.can := rfl
@[simp] theorem Dev.modSite_clasp (i : Nat) (f : Site → Site) (d : Dev) : (Dev.modSite i f d).clasp = d.clasp := rfl
@[simp] theorem Dev.modSite_island (i : Nat) (f : Site → Site) (d : Dev) : (Dev.modSite i f d).island = d.island := rfl
@[simp] theorem Dev.modSite_faults (i : Nat) (f : Site → Site) (d : Dev) : (Dev.modSite i f d).faults = d.faults := rfl
@[simp] theorem Dev.modSite_locket (i : Nat) (f : Site → Site) (d : Dev) : (Dev.modSite i f d).locket = d.locket := rfl
@[simp] theorem Dev.modSite_life (i : Nat) (f : Site → Site) (d : Dev) : (Dev.modSite i f d).life = d.life := rfl
@[simp] theorem Dev.modSite_hw (i : Nat) (f : Site → Site) (d : Dev) : (Dev.modSite i f d).hw = d.hw := rfl
@[simp] theorem Dev.modSite_nvm (i : Nat) (f : Site → Site) (d : Dev) : (Dev.modSite i f d).nvm = d.nvm := rfl
@[simp] theorem Dev.modSite_out (i : Nat) (f : Site → Site) (d : Dev) : (Dev.modSite i f d).out = d.out := rfl
@[simp] theorem Dev.modSite_free (i : Nat) (f : Site → Site) (d : Dev) : (Dev.modSite i f d).free = d.free := rfl

/-! Dev.setBucket -/

@[simp] theorem Dev.setBucket_time (c : Nat) (b : Bucket) (d : Dev) : (Dev.setBucket c b d).time = d.time := rfl
@[simp] theorem Dev.setBucket_pps (c : Nat) (b : Bucket) (d : Dev) : (Dev.setBucket c b d).pps = d.pps := rfl
@[simp] theorem Dev.setBucket_frame (c : Nat) (b : Bucket) (d : Dev) : (Dev.setBucket c b d).frame = d.frame := rfl
@[simp] theorem Dev.setBucket_cmd (c : Nat) (b : Bucket) (d : Dev) : (Dev.setBucket c b d).cmd = d.cmd := rfl
@[simp] theorem Dev.setBucket_cfg (c : Nat) (b : Bucket) (d : Dev) : (Dev.setBucket c b d).cfg = d.cfg := rfl
@[simp] theorem Dev.setBucket_image (c : Nat) (b : Bucket) (d : Dev) : (Dev.setBucket c b d).image = d.image := rfl
@[simp] theorem Dev.setBucket_flows (c : Nat) (b : Bucket) (d : Dev) : (Dev.setBucket c b d).flows = d.flows := rfl
@[simp] theorem Dev.setBucket_acq (c : Nat) (b : Bucket) (d : Dev) : (Dev.setBucket c b d).acq = d.acq := rfl
@[simp] theorem Dev.setBucket_gnss (c : Nat) (b : Bucket) (d : Dev) : (Dev.setBucket c b d).gnss = d.gnss := rfl
@[simp] theorem Dev.setBucket_fusion (c : Nat) (b : Bucket) (d : Dev) : (Dev.setBucket c b d).fusion = d.fusion := rfl
@[simp] theorem Dev.setBucket_solver (c : Nat) (b : Bucket) (d : Dev) : (Dev.setBucket c b d).solver = d.solver := rfl
@[simp] theorem Dev.setBucket_conseq (c : Nat) (b : Bucket) (d : Dev) : (Dev.setBucket c b d).conseq = d.conseq := rfl
@[simp] theorem Dev.setBucket_engine (c : Nat) (b : Bucket) (d : Dev) : (Dev.setBucket c b d).engine = d.engine := rfl
@[simp] theorem Dev.setBucket_probes (c : Nat) (b : Bucket) (d : Dev) : (Dev.setBucket c b d).probes = d.probes := rfl
@[simp] theorem Dev.setBucket_plant (c : Nat) (b : Bucket) (d : Dev) : (Dev.setBucket c b d).plant = d.plant := rfl
@[simp] theorem Dev.setBucket_net (c : Nat) (b : Bucket) (d : Dev) : (Dev.setBucket c b d).net = d.net := rfl
@[simp] theorem Dev.setBucket_can (c : Nat) (b : Bucket) (d : Dev) : (Dev.setBucket c b d).can = d.can := rfl
@[simp] theorem Dev.setBucket_clasp (c : Nat) (b : Bucket) (d : Dev) : (Dev.setBucket c b d).clasp = d.clasp := rfl
@[simp] theorem Dev.setBucket_island (c : Nat) (b : Bucket) (d : Dev) : (Dev.setBucket c b d).island = d.island := rfl
@[simp] theorem Dev.setBucket_health (c : Nat) (b : Bucket) (d : Dev) : (Dev.setBucket c b d).health = d.health := rfl
@[simp] theorem Dev.setBucket_faults (c : Nat) (b : Bucket) (d : Dev) : (Dev.setBucket c b d).faults = d.faults := rfl
@[simp] theorem Dev.setBucket_life (c : Nat) (b : Bucket) (d : Dev) : (Dev.setBucket c b d).life = d.life := rfl
@[simp] theorem Dev.setBucket_hw (c : Nat) (b : Bucket) (d : Dev) : (Dev.setBucket c b d).hw = d.hw := rfl
@[simp] theorem Dev.setBucket_nvm (c : Nat) (b : Bucket) (d : Dev) : (Dev.setBucket c b d).nvm = d.nvm := rfl
@[simp] theorem Dev.setBucket_out (c : Nat) (b : Bucket) (d : Dev) : (Dev.setBucket c b d).out = d.out := rfl
@[simp] theorem Dev.setBucket_free (c : Nat) (b : Bucket) (d : Dev) : (Dev.setBucket c b d).free = d.free := rfl

/-! Dev.modLife -/

@[simp] theorem Dev.modLife_time (f : LifeSt → LifeSt) (d : Dev) : (Dev.modLife f d).time = d.time := rfl
@[simp] theorem Dev.modLife_pps (f : LifeSt → LifeSt) (d : Dev) : (Dev.modLife f d).pps = d.pps := rfl
@[simp] theorem Dev.modLife_frame (f : LifeSt → LifeSt) (d : Dev) : (Dev.modLife f d).frame = d.frame := rfl
@[simp] theorem Dev.modLife_cmd (f : LifeSt → LifeSt) (d : Dev) : (Dev.modLife f d).cmd = d.cmd := rfl
@[simp] theorem Dev.modLife_cfg (f : LifeSt → LifeSt) (d : Dev) : (Dev.modLife f d).cfg = d.cfg := rfl
@[simp] theorem Dev.modLife_image (f : LifeSt → LifeSt) (d : Dev) : (Dev.modLife f d).image = d.image := rfl
@[simp] theorem Dev.modLife_flows (f : LifeSt → LifeSt) (d : Dev) : (Dev.modLife f d).flows = d.flows := rfl
@[simp] theorem Dev.modLife_acq (f : LifeSt → LifeSt) (d : Dev) : (Dev.modLife f d).acq = d.acq := rfl
@[simp] theorem Dev.modLife_gnss (f : LifeSt → LifeSt) (d : Dev) : (Dev.modLife f d).gnss = d.gnss := rfl
@[simp] theorem Dev.modLife_fusion (f : LifeSt → LifeSt) (d : Dev) : (Dev.modLife f d).fusion = d.fusion := rfl
@[simp] theorem Dev.modLife_solver (f : LifeSt → LifeSt) (d : Dev) : (Dev.modLife f d).solver = d.solver := rfl
@[simp] theorem Dev.modLife_conseq (f : LifeSt → LifeSt) (d : Dev) : (Dev.modLife f d).conseq = d.conseq := rfl
@[simp] theorem Dev.modLife_engine (f : LifeSt → LifeSt) (d : Dev) : (Dev.modLife f d).engine = d.engine := rfl
@[simp] theorem Dev.modLife_probes (f : LifeSt → LifeSt) (d : Dev) : (Dev.modLife f d).probes = d.probes := rfl
@[simp] theorem Dev.modLife_plant (f : LifeSt → LifeSt) (d : Dev) : (Dev.modLife f d).plant = d.plant := rfl
@[simp] theorem Dev.modLife_net (f : LifeSt → LifeSt) (d : Dev) : (Dev.modLife f d).net = d.net := rfl
@[simp] theorem Dev.modLife_can (f : LifeSt → LifeSt) (d : Dev) : (Dev.modLife f d).can = d.can := rfl
@[simp] theorem Dev.modLife_clasp (f : LifeSt → LifeSt) (d : Dev) : (Dev.modLife f d).clasp = d.clasp := rfl
@[simp] theorem Dev.modLife_island (f : LifeSt → LifeSt) (d : Dev) : (Dev.modLife f d).island = d.island := rfl
@[simp] theorem Dev.modLife_health (f : LifeSt → LifeSt) (d : Dev) : (Dev.modLife f d).health = d.health := rfl
@[simp] theorem Dev.modLife_faults (f : LifeSt → LifeSt) (d : Dev) : (Dev.modLife f d).faults = d.faults := rfl
@[simp] theorem Dev.modLife_locket (f : LifeSt → LifeSt) (d : Dev) : (Dev.modLife f d).locket = d.locket := rfl
@[simp] theorem Dev.modLife_hw (f : LifeSt → LifeSt) (d : Dev) : (Dev.modLife f d).hw = d.hw := rfl
@[simp] theorem Dev.modLife_nvm (f : LifeSt → LifeSt) (d : Dev) : (Dev.modLife f d).nvm = d.nvm := rfl
@[simp] theorem Dev.modLife_out (f : LifeSt → LifeSt) (d : Dev) : (Dev.modLife f d).out = d.out := rfl
@[simp] theorem Dev.modLife_free (f : LifeSt → LifeSt) (d : Dev) : (Dev.modLife f d).free = d.free := rfl
@[simp] theorem Dev.modLife_life (f : LifeSt → LifeSt) (d : Dev) : (Dev.modLife f d).life = f d.life := rfl

/-! Dev.modImg -/

@[simp] theorem Dev.modImg_time (i : Nat) (f : FwImage → FwImage) (d : Dev) : (Dev.modImg i f d).time = d.time := rfl
@[simp] theorem Dev.modImg_pps (i : Nat) (f : FwImage → FwImage) (d : Dev) : (Dev.modImg i f d).pps = d.pps := rfl
@[simp] theorem Dev.modImg_frame (i : Nat) (f : FwImage → FwImage) (d : Dev) : (Dev.modImg i f d).frame = d.frame := rfl
@[simp] theorem Dev.modImg_cmd (i : Nat) (f : FwImage → FwImage) (d : Dev) : (Dev.modImg i f d).cmd = d.cmd := rfl
@[simp] theorem Dev.modImg_cfg (i : Nat) (f : FwImage → FwImage) (d : Dev) : (Dev.modImg i f d).cfg = d.cfg := rfl
@[simp] theorem Dev.modImg_image (i : Nat) (f : FwImage → FwImage) (d : Dev) : (Dev.modImg i f d).image = d.image := rfl
@[simp] theorem Dev.modImg_flows (i : Nat) (f : FwImage → FwImage) (d : Dev) : (Dev.modImg i f d).flows = d.flows := rfl
@[simp] theorem Dev.modImg_acq (i : Nat) (f : FwImage → FwImage) (d : Dev) : (Dev.modImg i f d).acq = d.acq := rfl
@[simp] theorem Dev.modImg_gnss (i : Nat) (f : FwImage → FwImage) (d : Dev) : (Dev.modImg i f d).gnss = d.gnss := rfl
@[simp] theorem Dev.modImg_fusion (i : Nat) (f : FwImage → FwImage) (d : Dev) : (Dev.modImg i f d).fusion = d.fusion := rfl
@[simp] theorem Dev.modImg_solver (i : Nat) (f : FwImage → FwImage) (d : Dev) : (Dev.modImg i f d).solver = d.solver := rfl
@[simp] theorem Dev.modImg_conseq (i : Nat) (f : FwImage → FwImage) (d : Dev) : (Dev.modImg i f d).conseq = d.conseq := rfl
@[simp] theorem Dev.modImg_engine (i : Nat) (f : FwImage → FwImage) (d : Dev) : (Dev.modImg i f d).engine = d.engine := rfl
@[simp] theorem Dev.modImg_probes (i : Nat) (f : FwImage → FwImage) (d : Dev) : (Dev.modImg i f d).probes = d.probes := rfl
@[simp] theorem Dev.modImg_plant (i : Nat) (f : FwImage → FwImage) (d : Dev) : (Dev.modImg i f d).plant = d.plant := rfl
@[simp] theorem Dev.modImg_net (i : Nat) (f : FwImage → FwImage) (d : Dev) : (Dev.modImg i f d).net = d.net := rfl
@[simp] theorem Dev.modImg_can (i : Nat) (f : FwImage → FwImage) (d : Dev) : (Dev.modImg i f d).can = d.can := rfl
@[simp] theorem Dev.modImg_clasp (i : Nat) (f : FwImage → FwImage) (d : Dev) : (Dev.modImg i f d).clasp = d.clasp := rfl
@[simp] theorem Dev.modImg_island (i : Nat) (f : FwImage → FwImage) (d : Dev) : (Dev.modImg i f d).island = d.island := rfl
@[simp] theorem Dev.modImg_health (i : Nat) (f : FwImage → FwImage) (d : Dev) : (Dev.modImg i f d).health = d.health := rfl
@[simp] theorem Dev.modImg_faults (i : Nat) (f : FwImage → FwImage) (d : Dev) : (Dev.modImg i f d).faults = d.faults := rfl
@[simp] theorem Dev.modImg_locket (i : Nat) (f : FwImage → FwImage) (d : Dev) : (Dev.modImg i f d).locket = d.locket := rfl
@[simp] theorem Dev.modImg_life (i : Nat) (f : FwImage → FwImage) (d : Dev) : (Dev.modImg i f d).life = d.life := rfl
@[simp] theorem Dev.modImg_hw (i : Nat) (f : FwImage → FwImage) (d : Dev) : (Dev.modImg i f d).hw = d.hw := rfl
@[simp] theorem Dev.modImg_out (i : Nat) (f : FwImage → FwImage) (d : Dev) : (Dev.modImg i f d).out = d.out := rfl
@[simp] theorem Dev.modImg_free (i : Nat) (f : FwImage → FwImage) (d : Dev) : (Dev.modImg i f d).free = d.free := rfl

/-! Dev.setStore -/

@[simp] theorem Dev.setStore_time (x : LocketStore) (d : Dev) : (Dev.setStore x d).time = d.time := rfl
@[simp] theorem Dev.setStore_pps (x : LocketStore) (d : Dev) : (Dev.setStore x d).pps = d.pps := rfl
@[simp] theorem Dev.setStore_frame (x : LocketStore) (d : Dev) : (Dev.setStore x d).frame = d.frame := rfl
@[simp] theorem Dev.setStore_cmd (x : LocketStore) (d : Dev) : (Dev.setStore x d).cmd = d.cmd := rfl
@[simp] theorem Dev.setStore_cfg (x : LocketStore) (d : Dev) : (Dev.setStore x d).cfg = d.cfg := rfl
@[simp] theorem Dev.setStore_image (x : LocketStore) (d : Dev) : (Dev.setStore x d).image = d.image := rfl
@[simp] theorem Dev.setStore_flows (x : LocketStore) (d : Dev) : (Dev.setStore x d).flows = d.flows := rfl
@[simp] theorem Dev.setStore_acq (x : LocketStore) (d : Dev) : (Dev.setStore x d).acq = d.acq := rfl
@[simp] theorem Dev.setStore_gnss (x : LocketStore) (d : Dev) : (Dev.setStore x d).gnss = d.gnss := rfl
@[simp] theorem Dev.setStore_fusion (x : LocketStore) (d : Dev) : (Dev.setStore x d).fusion = d.fusion := rfl
@[simp] theorem Dev.setStore_solver (x : LocketStore) (d : Dev) : (Dev.setStore x d).solver = d.solver := rfl
@[simp] theorem Dev.setStore_conseq (x : LocketStore) (d : Dev) : (Dev.setStore x d).conseq = d.conseq := rfl
@[simp] theorem Dev.setStore_engine (x : LocketStore) (d : Dev) : (Dev.setStore x d).engine = d.engine := rfl
@[simp] theorem Dev.setStore_probes (x : LocketStore) (d : Dev) : (Dev.setStore x d).probes = d.probes := rfl
@[simp] theorem Dev.setStore_plant (x : LocketStore) (d : Dev) : (Dev.setStore x d).plant = d.plant := rfl
@[simp] theorem Dev.setStore_net (x : LocketStore) (d : Dev) : (Dev.setStore x d).net = d.net := rfl
@[simp] theorem Dev.setStore_can (x : LocketStore) (d : Dev) : (Dev.setStore x d).can = d.can := rfl
@[simp] theorem Dev.setStore_clasp (x : LocketStore) (d : Dev) : (Dev.setStore x d).clasp = d.clasp := rfl
@[simp] theorem Dev.setStore_island (x : LocketStore) (d : Dev) : (Dev.setStore x d).island = d.island := rfl
@[simp] theorem Dev.setStore_health (x : LocketStore) (d : Dev) : (Dev.setStore x d).health = d.health := rfl
@[simp] theorem Dev.setStore_faults (x : LocketStore) (d : Dev) : (Dev.setStore x d).faults = d.faults := rfl
@[simp] theorem Dev.setStore_locket (x : LocketStore) (d : Dev) : (Dev.setStore x d).locket = d.locket := rfl
@[simp] theorem Dev.setStore_life (x : LocketStore) (d : Dev) : (Dev.setStore x d).life = d.life := rfl
@[simp] theorem Dev.setStore_hw (x : LocketStore) (d : Dev) : (Dev.setStore x d).hw = d.hw := rfl
@[simp] theorem Dev.setStore_out (x : LocketStore) (d : Dev) : (Dev.setStore x d).out = d.out := rfl
@[simp] theorem Dev.setStore_free (x : LocketStore) (d : Dev) : (Dev.setStore x d).free = d.free := rfl
@[simp] theorem Dev.setStore_nvm (x : LocketStore) (d : Dev) : (Dev.setStore x d).nvm = { d.nvm with store := x } := rfl

/-! ### The state and its module -/

@[simp] theorem State.left_pending (s : State) (e : Dev) : (s.left e).pending = s.pending := rfl
@[simp] theorem State.left_dev (s : State) (e : Dev) : (s.left e).dev = e.after := rfl
@[simp] theorem advance_pending (s : State) (d : Dev) : ({ s with dev := d } : State).pending = s.pending := rfl

end Sys2Proof.Machine
end

