-- ==== Sys2Proof/Tests/Slice0.lean ====
section
/-! SUPPORT. Tests/Slice0.lean: the checks of WellFormed refuse; worked values of the manual; and for the statements of
Certificates/Slice0/Obligations.lean states and operands that meet their hypotheses, clause by clause. -/

namespace Sys2Proof.Tests

-- The tests are elaborated one after another: side by side they take far more memory.
set_option Elab.async false

open Sys2Proof Sys2Proof.Machine

/-! ### Small states -/

/-- The module of reset at 1 s of raw counter time, ready. -/
def ready : Dev := Dev.advance 1000000000 { State.reset.dev with life := { State.reset.dev.life with ready := true } }
/-- The module d with these committed fields: table, position, value. -/
def par (l : List (Nat × Nat × Word)) (d : Dev) : Dev :=
  { d with cfg := { d.cfg with committed := l.foldl (fun m x => Bits.insert (key x.1 x.2.1) x.2.2 m) d.cfg.committed } }
/-- The state of a module with no command waiting. -/
def st (d : Dev) : State := { dev := d, pending := [] }
/-- A request on SPI. -/
def rq (target : Word) (p : List Byte) : Req := { src := { tr := .spi }, tag := 1, flags := 0, target := target, payload := p }
/-- n bytes of zero. -/
def z (n : Nat) : List Byte := List.replicate n 0
/-- A partner's heartbeat: STANDBY, with these flags. -/
def beat (fl : BitVec 16) (role : Nat) : Beat :=
  { frame := 7, unit := 3, role := role, hflags := fl, worst := 255, mode := 0, nsCause := 0, leaseLeft := 0, mirrorAck := 0xFFFFFFFF,
    hallmark := 0, serial := List.replicate 16 65 }
/-- The module with its partner present. -/
def paired (fl : BitVec 16) (role : Nat) (d : Dev) : Dev :=
  { d with clasp := { d.clasp with partner := some (beat fl role), partnerHere := true, beatAt := d.time.now } }

/-! ### WellFormed: each check refuses what is outside its range, and takes the boundary inside it -/

/-- A sub-tick's measurements. -/
def meas : SubTickIn := { siteHz := List.replicate 24 40000, feedA := 2400, feedB := 2400 }
/-- An Ethernet frame. -/
def ethFrame : EthFrame :=
  { dst := 0x01154E000001, src := 5, vlan := none, red := none, udp := false, ipSrc := 0, udpPort := 0, ethType := 0x88F7, payload := [] }
/-- A CAN data frame. -/
def canFrame : CanFrame := { id := 0x7FF, ide := false, fdf := false, brs := false, esi := false, data := [1] }
/-- A link frame of zeros. -/
def linkFrame : LinkFrame := { codeError := false, bytes := z 1042 }

theorem test_wf_refuses_timers : ([
    .subTick 0 { meas with siteHz := [] }, .subTick 0 { meas with siteHz := List.replicate 24 (2 ^ 32) }, .subTick 0 { meas with feedA := 65536 },
    .subTick 0 { meas with feedB := 65536 }, .passOverrun 0 256, .outputClampedLong 0 256, .releaseHoldExpiry 0 8, .pmsFallback 0 8,
    .feedInvalid 0 2 0, .feedInvalid 0 0 65536, .feedInvalid 0 0 1700, .feedInvalid 0 0 3700, .feedValid 0 2 2400,
    .feedValid 0 0 1799, .feedValid 0 0 3601, .resultStale 0 0, .resultStale 0 64,
    .queueIdle 0 60, .flowTimeout 0 256, .flowBadAfter 0 256] : List Instr).all (fun i => !i.wf) = true := by decide

theorem test_wf_refuses_requests : ([
    .echo 0 { rq 0 [] with src := { tr := .udp, ip := 2 ^ 32 } }, .infoRead 0 { rq 0 [] with src := { tr := .udp, port := 65536 } },
    .statusRead 0 { rq 0 [] with src := { tr := .spi, ip := 1 } }, .paramRead 0 { rq 0 [] with src := { tr := .pcie, port := 1 } },
    .signalNotify 0 (rq 0x80000000 []), .signalNotifyCancel 0 (rq 0x7FFFFFFF []), .eventMark 0 (rq 0x10FF []),
    .eventErase 0 (rq 0x10FE [])] : List Instr).all (fun i => !i.wf) = true := by decide

theorem test_wf_refuses_links : ([
    .frameTick 0 { struck := [(131072, 1)] }, .frameTick 0 { struck := [(0, 2 ^ 128)] }, .frameTick 0 { pointers := [(60, 1)] },
    .frameTick 0 { pointers := [(0, 65536)] }, .spiWrite 0 [], .spiRead 0 0, .udpDatagramReceived 0 (2 ^ 32) 0 0 0 [], .udpDatagramReceived 0 0 65536 0 0 [],
    .udpDatagramReceived 0 0 0 2 0 [], .udpDatagramReceived 0 0 0 0 65536 [], .cmdProducerWrite 0 0 (List.replicate 65 []),
    .registerWrite 0 4096 0, .registerWrite 0 2 0, .ethFrameReceived 0 4 ethFrame, .ethFrameReceived 0 0 { ethFrame with dst := 2 ^ 48 },
    .ethFrameReceived 0 0 { ethFrame with src := 2 ^ 48 }, .ethFrameReceived 0 0 { ethFrame with vlan := some 4096 },
    .ethFrameReceived 0 0 { ethFrame with red := some { seq := 65536 } }, .ethFrameReceived 0 0 { ethFrame with ipSrc := 2 ^ 32 },
    .ethFrameReceived 0 0 { ethFrame with udpPort := 65536 }, .ethFrameReceived 0 0 { ethFrame with ethType := 65536 },
    .ackFrameReceived 0 4 ethFrame, .ptpMessageReceived 0 4 ⟨0, .pdelayReq⟩,
    .ptpMessageReceived 0 0 ⟨256, .pdelayReq⟩, .ptpMessageReceived 0 0 ⟨0, .pdelayResp (2 ^ 32)⟩, .ptpMessageSend 0 4 .sync,
    .announceTimeout 0 4, .launchQueueLaunch 0 8, .portLinkChange 0 4 true, .bypassMismatch 0 2] : List Instr).all (fun i => !i.wf) = true := by
  decide

theorem test_wf_refuses_measures : ([
    .samplePortFrame 0 32 [] false, .samplePortFrame 0 0 (List.replicate 17 0) false, .resamplerNoCrossing 0 16,
    .linkFrame 0 0 { linkFrame with bytes := [] }, .trackingLossOfLock 0 4 0, .trackingLossOfLock 0 0 96,
    .reacquisitionExpiry 0 4 0, .reacquisitionExpiry 0 0 96, .correctionDatagram 0 2 0 [], .correctionDatagram 0 0 65536 [],
    .correctionsStale 0 4, .refMaxgapExpiry 0 16, .conflictExpired 0 4, .conflictCleared 0 4, .referenceReadmit 0 4 0,
    .referenceReadmit 0 0 18] : List Instr).all (fun i => !i.wf) = true := by decide

theorem test_wf_refuses_link_twelve : (Instr.linkFrame 0 12 linkFrame).wf = false := by simp [Instr.wf]

theorem test_wf_refuses_buses : ([
    .canFrameReceived 0 8 canFrame, .canFrameReceived 0 0 { canFrame with id := 0x800 }, .canFrameReceived 0 0 { canFrame with data := z 9 },
    .canFrameReceived 0 0 { canFrame with fdf := true, remote := true, data := [] }, .canFrameReceived 0 0 { canFrame with remote := true },
    .rxmapTimeout 0 256, .canBufferLock 0 8 32, .canBufferLock 0 0 31, .canBufferLock 0 0 64, .canBufferRelease 0 0 31, .canLockTimeout 0 0 64,
    .canAttemptEnd 0 8 0 { result := .ok }, .canAttemptEnd 0 0 32 { result := .ok }, .canAttemptEnd 0 0 0 { result := .error 0 }, .canAttemptEnd 0 0 0 { result := .error 7, sinceSof := 5 },
    .canReceiveError 0 8 (.plain 1), .canReceiveError 0 0 (.plain 0), .canReceiveError 0 0 (.severe 7), .canRecoveryComplete 0 8,
    .heartbeatReceived 0 2 [], .releaseReceived 0 2 [], .mirrorSegmentReceived 0 2 [], .commitReceived 0 2 [], .commitResultReceived 0 2 [],
    .configImageReceived 0 2 [], .flowStateReceived 0 2 [], .laneDown 0 2, .ownershipMismatch 0 0, .ownershipMismatch 0 3]
      : List Instr).all (fun i => !i.wf) = true := by decide

theorem test_wf_refuses_board : ([
    .discrepancyTimeout 0 16, .lineFaultClear 0 16, .outputOvercurrent 0 16, .outputReadbackFail 0 16 true, .masterDisconnectTest 0 2 true,
    .islandWatchdogExpiry 0 0, .islandWatchdogExpiry 0 4, .selftestComplete 0 { sigGot := 0, failChain := 0, restoreOk := true, micros := 2 ^ 32 },
    .faultHoldExpiry 0 65536 0, .faultHoldExpiry 0 0 65536, .powerUp 0 0 0 0 256 none, .vioOut 0 0 0, .vioOut 0 5 0, .vioOut 0 1 65536,
    .vioRestored 0 0, .vioRestored 0 5, .oscWarm 0 (2 ^ 32)] : List Instr).all (fun i => !i.wf) = true := by decide

theorem test_wf_takes_the_boundary : ([
    .subTick 0 meas, .passOverrun 0 255, .releaseHoldExpiry 0 7, .feedInvalid 0 1 65535, .feedInvalid 0 0 1699, .feedInvalid 0 0 3701, .feedValid 0 1 1800, .feedValid 0 1 3600,
    .frameTick 0 { struck := [(131071, 2 ^ 128 - 1)] }, .resultStale 0 1, .resultStale 0 63, .queueIdle 0 59,
    .echo 0 { rq 0 [] with src := { tr := .udp, ip := 2 ^ 32 - 1, port := 65535 } }, .signalNotifyCancel 0 (rq 0x80000000 []),
    .eventErase 0 (rq 0x10FF []), .spiRead 0 1, .registerWrite 0 4092 0, .ethFrameReceived 0 3 { ethFrame with vlan := some 4095 },
    .samplePortFrame 0 31 (List.replicate 16 0) true, .trackingLossOfLock 0 3 95, .referenceReadmit 0 3 17,
    .canFrameReceived 0 7 { canFrame with id := 2 ^ 29 - 1, ide := true }, .canFrameReceived 0 0 { canFrame with fdf := true, data := z 64 },
    .canBufferLock 0 7 63, .canAttemptEnd 0 7 31 { result := .error 6 }, .ownershipMismatch 0 2, .islandWatchdogExpiry 0 3, .vioOut 0 4 65535,
    .faultHoldExpiry 0 65535 65535, .oscWarm 0 (2 ^ 32 - 1)] : List Instr).all Instr.wf = true := by decide

theorem test_wf_takes_a_link_frame : (Instr.linkFrame 0 11 linkFrame).wf = true := by
  simp only [Instr.wf, LinkFrame.wf, linkFrame, z, List.length_replicate]; rfl

theorem test_ill_formed_has_no_effect : exec (.passOverrun 0 256) (st ready) = .next ((st ready).left ready) := by rfl

/-! ### Requests -/

theorem witness_records : ready.admits 0x00 (rq 7 [1, 2, 3, 4]) = true ∧
    [0x01, 0x48, 0x60, 0x70, 0x78, 0x88, 0xA0, 0x14, 0x02].all (fun op => ready.admits op (rq 0 [])) = true ∧
    ready.admits 0x14 { rq 0 [] with flags := 2 } = true := by decide

theorem witness_named :
    (ready.admits 0x10 (rq 0x01000102 []) = true ∧ addrOk (fieldAddr 0x01000102) = true ∧
      ready.admits 0x10 { rq 0x01000102 [] with flags := 2 } = true) ∧
    (ready.admits 0x20 (rq 0x0001FFFF []) = true ∧ 0x0001FFFF % 2 ^ 17 + (0x0001FFFF / 2 ^ 17 % 1024 + 1) ≤ 131072) ∧
    ready.admits 0x2A (rq 255 []) = true ∧ ready.admits 0x50 (rq 63 []) = true ∧ ready.admits 0x51 (rq 63 []) = true ∧
    ready.admits 0x91 (rq 4 []) = true := by decide

theorem witness_blocks :
    ready.admits 0x38 (rq 63 []) = true ∧ (ready.admits 0x38 (rq 0 []) = true ∧ 2032 ≤ maxPayload .spi) ∧
    (ready.admits 0x40 (rq 0x00600001 []) = true ∧ ready.antCount ≠ 4 ∧ 0x00600001 / 256 % 256 + 96 ≤ 96 ∧ 16 + 32 * 96 ≤ maxPayload .spi) ∧
    (ready.admits 0x59 (rq 15 [0, 0, 0xF0, 0x1F]) = true ∧ Bits.at' [0, 0, 0xF0, 0x1F] 2 2 = 8176) ∧
    (ready.admits 0x80 (rq 1 [0xFF, 1, 0, 4]) = true ∧ Bits.at' [0xFF, 1, 0, 4] 0 2 ≤ maxEvents .spi 0) := by decide

theorem witness_staging :
    (ready.admits 0x11 (rq 0x01000102 [0xE0, 0x2E, 0, 0]) = true ∧
      (ready.begun 0x11 (rq 0x01000102 [0xE0, 0x2E, 0, 0])).stageConflict { tr := .spi } = false ∧
      (ready.begun 0x11 (rq 0x01000102 [0xE0, 0x2E, 0, 0])).stageFail 2 1 [12000] 0 = none) ∧
    (ready.admits 0x13 (rq 0 []) = true ∧ (ready.begun 0x13 (rq 0 [])).stageConflict { tr := .spi } = false) ∧
    (ready.admits 0x12 { rq 3000 [] with flags := 0 } = true ∧ Bits.diff32 3000 (ready.begun 0x12 (rq 3000 [])).frame.number ≤ 3000 ∧
      ready.cfg.staged = []) ∧
    ({ ready with cfg := { ready.cfg with staged := [(key 2 1, 12000)] } } : Dev).admits 0x12 { rq 0 [] with flags := 4 } = true := by decide

/-- One host-owned point, GOOD, of type UINT32. -/
def rec16 : List Byte := [1, 0, 0, 0, 0, 0, 0, 0, 0, 0, 0, 0, 0, 3, 0, 0]

theorem witness_signal :
    (ready.admits 0x21 (rq 131071 rec16) = true ∧ (ready.begun 0x21 (rq 131071 rec16)).partnerActive = false ∧
      (ready.begun 0x21 (rq 131071 rec16)).publishers 131071 1 = [] ∧
      (ready.begun 0x21 (rq 131071 rec16)).hostRecordOk 131071 (pointOf rec16) = true) ∧
    (ready.admits 0x22 (rq 131071 (z 16)) = true ∧ (rq 131071 (z 16)).cancels = false ∧
      notifyOk (rq 131071 (z 16)) (ready.readPt 131071) = true) := by decide

/-- A subscribe context of one contiguous entry: point 20000, every 20 ms. -/
def flowIn : List Byte :=
  [0, 0, 0, 2] ++ z 16 ++ [20, 0, 0, 0, 100, 0, 200, 0] ++ [0, 0, 0, 0, 0, 1, 0, 0] ++ [0x20, 0x4E, 0, 0, 1, 0, 0, 0]

theorem witness_flow :
    (ready.admits 0x28 (rq 255 flowIn) = true ∧ (ready.begun 0x28 (rq 255 flowIn)).flowCheck [] flowIn = none ∧
      (ready.flow 255).state = 0) ∧
    ready.admits 0x29 (rq 255 []) = true := by decide

/-- A unit in control with its masses set. -/
def control : Dev := { par [(0x10, 1, 1), (0x10, 2, 1), (0x10, 3, 1), (0x12, 0x14, 1), (0x12, 0x15, 1), (0x12, 0x16, 1)] ready with
  clasp := { ready.clasp with role := .solo, lease := true, leaseAt := 2000000000 } }

theorem witness_control :
    (control.admits 0x30 (rq 1 []) = true ∧ (control.begun 0x30 (rq 1 [])).massesSet = true ∧ modeOf 1 = some .joystick ∧
      control.life.state = .commission ∧ control.sPar 0x14 ≠ 0 ∧ control.sPar 0x15 ≠ 0 ∧ control.sPar 0x16 ≠ 0) ∧
    control.admits 0x30 (rq 0 []) = true ∧
    (control.admits 0x31 (rq 0 (z 20 ++ [7] ++ z 11)) = true ∧ Bits.byteAt (z 20 ++ [7] ++ z 11) 20 < 8) ∧
    control.admits 0x32 (rq 0 [1, 0, 2, 0, 3, 0, 0, 0]) = true := by decide

/-- An ACTIVE unit with an eligible, synced partner. -/
def active : Dev := { paired 6 1 ready with clasp := { (paired 6 1 ready).clasp with role := .active } }
/-- A unit in MAINTAIN with an unstepped time source. -/
def maintain : Dev := { ready with life := { ready.life with state := .maintain, challenge := 5 } }
/-- TRACE_ARM: kind 0, number 0, one sample of 16, no trigger. -/
def armed : List Byte := z 12 ++ [1, 0] ++ z 10 ++ [16, 0, 0, 0] ++ z 4

theorem witness_deferred :
    (ready.admits 0x90 (rq 4 []) = true ∧ ready.health.test = none ∧ (ready.begun 0x90 (rq 4 [])).testRefusal (ready.begun 0x90 (rq 4 [])).nextNo false = none) ∧
    (active.admits 0x71 (rq 0 []) = true ∧ (active.begun 0x71 (rq 0 [])).beatFlag 1 = true ∧ (active.begun 0x71 (rq 0 [])).beatFlag 2 = true) ∧
    (maintain.admits 0x61 (rq 9 [1, 0, 0, 0, 0, 0, 0, 0]) = true ∧ Bits.at' [1, 0, 0, 0, 0, 0, 0, 0] 0 8 ≠ 2 ^ 63) ∧
    (ready.admits 0x58 (rq 15 armed) = true ∧ traceArmOk (rq 15 armed) = true ∧ (ready.probe 15).live = false ∧ ready.health.x = 0) ∧
    (maintain.admits 0xA1 (rq 1 (z 24 ++ [5] ++ z 71)) = true ∧ transition .maintain .commission = some (false, false, false) ∧
      maintain.advanceRole = none ∧ Bits.at' (z 24 ++ [5] ++ z 71) 24 8 = maintain.life.challenge.toNat ∧
      ((z 24 ++ [5] ++ z 71).drop 8).take 16 = Bits.zeros 16 ∧ ((z 24 ++ [5] ++ z 71).drop 32).take 64 = Bits.zeros 64) := by decide

/-- A module whose CAN controller 7 sends. -/
def canOn : Dev := ready.modCtrl 7 (fun k => { k with mode := 1 })
/-- A data frame of identifier 5 with one byte. -/
def canReq : List Byte := [5, 0, 0, 0, 1, 0, 0, 0, 9, 0, 0, 0]
/-- A launch 1 ms ahead of a frame of 60 bytes. -/
def launchReq (d : Dev) : List Byte := Bits.le 4 (d.short.toNat + 1000000) ++ [60, 0, 0, 0] ++ z 60

theorem witness_fan :
    (canOn.admits 0x68 (rq 0x80 canReq) = true ∧ canLenOk false 1 = true ∧
      ((Bits.maskBits 8 0x80).foldl (Dev.canSendMember { idw := 5, data := [9], retry := 0, tag := 1 })
        (canOn.begun 0x68 (rq 0x80 canReq), [])).2 = [(7, none)]) ∧
    (ready.admits 0x62 (rq 0x80 (launchReq ready)) = true ∧
      ((Bits.maskBits 8 0x80).foldl (Dev.launchMember (z 60) 1000000 1001000000 1)
        (ready.begun 0x62 (rq 0x80 (launchReq ready)), [])).2 = [(7, none)]) ∧
    (ready.admits 0x6A (rq 7 []) = true ∧ (ready.ctrl 7).err ≠ .busOff ∧ (ready.ctrl 7).err ≠ .recovering) ∧
    ((ready.modCtrl 7 (fun k => { k with err := .busOff })).admits 0x6A (rq 7 []) = true) := by decide

theorem witness_members :
    (canOn.thrCtrls 0 = [] ∧ (canOn.ctrl 7).off = false ∧ canOn.canMode 7 ≠ 0 ∧ (canOn.q 11).agree = true ∧ (canOn.q 11).held < queueDepth 11) ∧
    ((ready.q 0x1B).agree = true ∧ (ready.q 0x1B).held < queueDepth 0x1B) := by decide

/-- A watch of point 131071 whose request, tag 2, stands. -/
def watching : Dev := { ready with
  cmd := { ready.cmd with
    tags := [{ op := 0x22, req := { rq 131071 (z 16) with tag := 2 }, started := true, accepted := true, standing := true }] },
  image := { ready.image with
    watches := [{ tag := 2, index := 131071, cond := 0, minInterval := 0, thr := 0, hyst := 0, seen := some {} }] } }

theorem witness_stores :
    (ready.admits 0x81 (rq 0x10FE (z 8)) = true ∧ (rq 0x10FE (z 8)).erases = false ∧ ready.nvm.store.full = false ∧
      (ready.storeWrite (ready.record 2 0x10FE 0 0 (z 8))).nvm.store.full = false) ∧
    (({ maintain with island := { maintain.island with bezel := 0x00400000 } } : Dev).admits 0x81 (rq 0x10FF [1, 0, 0, 0, 0, 0, 0, 0]) = true ∧
      (rq 0x10FF (z 8)).erases = true ∧ maintain.nvm.store.firstHeld = 1 ∧ maintain.nvm.store.committed = 0 ∧
      maintain.nvm.store.refused = 0) ∧
    (ready.admits 0xF0 (rq 0x80000000 [1, 2, 3, 4]) = true ∧ ready.life.running ≠ 1 ∧
      ready.admits 0xF0 (rq 0x81FFFFFC [1, 2, 3, 4]) = true) ∧
    (ready.admits 0xF1 (rq 0 []) = true ∧ ready.clasp.lease = false ∧ ready.imageFault 0 = none) := by decide

theorem witness_ends :
    ((par [(8, 0x1C, 0)] ready).admits 0x41 (rq 3 [1, 0, 0, 0, 0xD3, 0, 0, 0]) = true ∧
      ((par [(8, 0x1C, 0)] ready).begun 0x41 (rq 3 [1, 0, 0, 0, 0xD3, 0, 0, 0])).gPar 0x1C = 0) ∧
    (ready.admits 0x69 (rq 7 []) = true ∧ (ready.q 0x13).agree = true) ∧
    (({ watching with cmd := { watching.cmd with tags := [] } } : Dev).admits 0x22 (rq 0x80000002 []) = true ∧
      (rq 0x80000002 []).cancels = true ∧ (watching.image.watches.find? (fun x => x.tag == 2)).isSome = true) := by decide

/-! ### The block, the frame and its timers -/
 
/-- A state at the instant of its device, with nothing of a sub-tick in progress: a command of an instant not after it finds the
module as it is. -/
theorem reach_now (d : Dev) (h : d.engine.pass = none) (h2 : d.engine.limits = none) (h3 : d.frame.secondDue = none) :
    (st d).dev.reach 0 = d := by
  unfold Dev.reach Dev.dueWork
  simp [st, Dev.advance, h, h2, h3]

/-- The module without power. -/
def off : Dev := { ready with life := { ready.life with powered := false } }

theorem witness_block :
    ({ st ready with pending := [.spiStat 0] } : State).pending = [.spiStat 0] ∧ (Instr.frameTick 0 { struck := [(131072, 1)] }).wf = false ∧
    (Instr.passOverrun 0 256).wf = false ∧ ready.engine.pass = none ∧ ready.engine.limits = none ∧ ready.frame.secondDue = none ∧
    (Instr.frameTick 0 {}).reachesReset = false ∧ off.runs = false ∧
    ({ ready with life := { ready.life with inReset := true } } : Dev).runs = false ∧
    ({ ready with life := { ready.life with thermalOff := true } } : Dev).runs = false := by decide

/-- The module 5 ms after reset, before its first tick; and at its first tick. -/
def early : Dev := State.reset.dev.advance 5000000
/-- The module at its first tick. -/
def tick : Dev := State.reset.dev.advance 20000000
/-- A step of 7 ms at the next tick. -/
def step7 : StepReq := { tag := 1, step := some 7000000, frame := 0, next := true, limit := 5 }

theorem witness_tick :
    early.up = true ∧ early.dev < early.frame.nextTick ∧ tick.frame.nextTick = tick.dev ∧ tick.life.activating = none ∧
    ({ tick with life := { tick.life with activating := some 1 } } : Dev).life.activating.isSome = true ∧ tick.time.steps = [] ∧
    tick.firstSource = 0 ∧ step7.due (frameNo tick.frame.nextTick) = true ∧ step7.step = some 7000000 ∧
    ({ tick with time := { tick.time with state := .locked, steps := [step7] } } : Dev).time.state ≠ .unset := by decide

theorem witness_slots :
    early.slotDue .sub0 0 = true ∧ meas.wf = true ∧ (early.slotDone .sub0).slotDue .sub0 0 = false ∧
    (early.slotDone .sub0).frame.slots.getLsbD 0 = true ∧ (early.slotDone .sub0).subNext ≤ (early.slotDone .sub0).dev ∧
    (early.slotDone .sub0).subNext < (early.slotDone .sub0).frame.nextTick ∧
    ((State.reset.dev.slotDone .sub0).advance 999999).dev < ((State.reset.dev.slotDone .sub0).advance 999999).subNext ∧
    (State.reset.dev.advance 200000).slotDue .refineFrom 200000 = true ∧ (State.reset.dev.advance 3800000).slotDue .refineTo 3800000 = true ∧
    early.slotDue .fusion 4000000 = true ∧ tick.slotDue .deadline (1000 * tick.parN 2 1) = true := by decide

theorem witness_slots_b :
    tick.slotDue .handoff 15000000 = true ∧ tick.slotDue .cutoff 15800000 = true ∧ tick.frame.slots.getLsbD (slotBit .tail) = false ∧
    tick.frame.nextTick ≤ tick.dev + 400000 ∧
    (State.reset.dev.advance 19600000).frame.nextTick = (State.reset.dev.advance 19600000).dev + 400000 ∧ tick.slotDue .launch 16000000 = true ∧
    (tick.cutoffSlot 0).clasp.lease = false ∧ (control.cutoffSlot 0).clasp.lease = true ∧
    (control.cutoffSlot 0).clasp.role.inControl = true := by decide

/-- A control module in JOYSTICK whose stick has been silent since reset. -/
def stick : Dev := { par [(0x12, 0x17, 1000)] control with solver := { control.solver with mode := .joystick } }
/-- A validated commit whose partner has not answered, at t0+19.9 ms. -/
def commit : Commit := { tag := 1, frame := 1, next := false, expect := 0, validated := true, paired := true }
/-- The analysis at frame 3000 with a cycle begun at frame 0 and a result of frame 0 for group 63. -/
def late : Dev := { par [(0x14, 7, 10), (0x14, 8, 10)] ready with
  frame := { ready.frame with number := 3000, rawT0 := 20000000000 },
  conseq := { ready.conseq with active := true, groups := [(63, { res := { result := 1 } })] } }

theorem witness_timers :
    ({ ready with pps := { out := true, roseAt := 0 } } : Dev).pps.out = true ∧ 1000000 * ready.parN 0x20 0x0B ≤ ready.time.now - 0 ∧
    (par [(0x20, 3, 1)] ready).parN 0x20 3 = 1 ∧ 1000000000 * (par [(0x20, 3, 1)] ready).parN 0x20 3 ≤ (par [(0x20, 3, 1)] ready).c ∧
    stick.clasp.role.inControl = true ∧ stick.solveMode.stick = true ∧ stick.solver.stickOut = false ∧
    1000000 * stick.sPar 0x17 ≤ stick.time.now - Nat.max stick.solver.joyAt stick.time.epoch ∧
    commit.validated = true ∧ commit.paired = true ∧ commit.partner = none ∧
    (State.reset.dev.advance 19900000).frame.nextTick ≤ (State.reset.dev.advance 19900000).dev + 100000 ∧ late.conseq.active = true := by decide

theorem witness_timers_b :
    late.conseq.overdue = false ∧ 1000000000 * late.cPar 7 < (late.advance 20000000000).time.now - late.conseq.firstRaw ∧
    (late.group 63).res.result ≠ 0 ∧ (late.group 63).stale = false ∧
    1000000000 * late.cPar 8 < late.rawT0 - (late.group 63).res.startRaw := by decide

/-- A pass that changed loop 255, a clamped loop 255, an island in phase-back with a hold since 0 and a generator whose points have
been bad since 0. -/
def passing : Dev := { par [(0x1C, 8, 100), (0x1C, 0xD, 100)] ready with
  frame := { ready.frame with overruns := 2 },
  engine := { ready.engine with
    undo := [{ loop := 255, st := {}, secs := [] }], pass := some { due := 1000000000, loops := [255], seen := {} },
    loops := [(255, { enabled := true, clampRun := 1000 })] },
  plant := { ready.plant with
    running := true, islands := List.replicate 8 { state := .phaseBack, members := 1, hold := some 0 },
    gens := List.replicate 16 { bad := [some 0, none, none] } } }
/-- A launch slot of s+0.5 ms waits. -/
def limiting : Dev := { ready with engine := { ready.engine with limits := some (1000000000, [0]) } }

theorem witness_engine_timers :
    passing.up = true ∧ passing.engine.pass.any (fun w => decide (w.due ≤ passing.time.now)) = true ∧
    passing.engine.undo.any (fun u => decide (255 ≤ u.loop)) = true ∧ (passing.loop 255).enabled = true ∧ 1000 ≤ (passing.loop 255).clampRun ∧
    (passing.loop 255).clampRaised = false ∧ (passing.pisl 7).hold = some 0 ∧ (passing.pisl 7).state = .phaseBack ∧
    1000000 * passing.parN 0x1C 8 ≤ passing.time.now - 0 ∧ (passing.pisl 7).fallback = false ∧
    1000000 * passing.parN 0x1C 0xD ≤ passing.time.now - 0 := by decide

theorem witness_pass_ends :
    passing.engine.limits = none ∧ passing.frame.secondDue = none ∧
    (passing.advance 1000000000).passEnd.engine.limits.all (fun l => decide (1000000001 ≤ l.1)) = true ∧
    (passing.advance 1000000000).passEnd.frame.secondDue = none ∧ limiting.up = true ∧ limiting.engine.pass = none ∧
    (limiting.advance 1000000000).limitSlot.frame.secondDue = none := by decide +kernel

/-- A what-if of group 63 with no stage in an open window that has given it 10 ms. -/
def whatif : Dev := { ready with
  conseq := { ready.conseq with
    window := true, quota := 100000,
    current := some { group := 63, startFrame := 0, stage0 := 0, mainKey := 0, key := 0, start := 2, thrusters := 0, sections := 0, avail := [],
                      env := [], limits := [], base := [], n := 0, m := 0, params := [], points := [], before := {}, startRaw := 0,
                      problem := { stages := [], rho := 0, dual := 8, factor := 16 }, point := { x := [], z := [], y := [] }, most := 1, epsP := 0, epsD := 0, progress := 0 } } }

theorem witness_whatif_and_feeds :
    whatif.conseq.window = true ∧ whatif.conseq.current.isSome = true ∧
    (match whatif.conseq.current with | some w => decide (setupCycles 0 0 0 + factorCycles 0 0 0 + (w.problem.run (w.problem.factorise w.sat).1 0 0 1 0 w.point (w.problem.factorise w.sat).2).1 * iterCycles 0 0 0 + 2000 ≤ 0 + ((whatif.advance 1010000000).windowCycles - whatif.conseq.spent)) | none => false) = true ∧
    ({ ready with clasp := { ready.clasp with feeds := 3 } } : Dev).clasp.feeds.getLsbD 1 = true ∧
    ({ ready with clasp := { ready.clasp with feeds := 1 } } : Dev).clasp.feeds.getLsbD 1 = false ∧ ready.runs = true := by decide

/-! ### Transports, limits and queues -/

/-- Tag 5 outstanding past its limit, the members of tag 6 open. -/
def overdue : Dev := { ready with
  cmd := { ready.cmd with
    tags := [
      { op := 0x90, req := { rq 0 [] with tag := 5 }, started := true, accepted := true, deadline := some 1000000000 },
      { op := 0x68, req := { rq 0x80 [] with tag := 6 }, started := true, accepted := true, members := [(7, none)], deadline := some 5 },
      { op := 0x71, req := { rq 0 [] with tag := 7 }, started := true, accepted := true, deadline := some 1000000001 }] } }
/-- Staged by SPI at 0, STAGE_TIMEOUT 1 s; one sector erase in progress. -/
def leftOver : Dev := { par [(1, 0x2A, 1)] ready with
  cfg := { (par [(1, 0x2A, 1)] ready).cfg with owner := some { tr := .spi }, staged := [(key 2 1, 12000)], lastUse := 0 },
  life := { ready.life with erase := [{ tag := some 1, image := 1, offset := 0, data := [1] }] } }

theorem witness_limits :
    (overdue.pend 5).isSome = true ∧ (overdue.pend 5).any overdue.overdue = true ∧ (overdue.pend 6).any overdue.overdue = true ∧
    (overdue.pend 7).any overdue.overdue = false ∧ (overdue.pend 6).any (fun q => q.members.isEmpty) = false ∧ leftOver.life.noImage = false ∧
    leftOver.cfg.owner = some { tr := .spi } ∧ leftOver.cfg.commit = none ∧
    1000000000 * leftOver.parN 1 0x2A ≤ leftOver.time.now - leftOver.cfg.lastUse ∧ leftOver.life.erase.length = 1 := by decide

/-- Each queue holds one entry that nobody has read since reset. -/
def idle : Dev := { par [(2, 0x16, 1)] ready with cmd := { ready.cmd with queues := (Bits.upTo 60).map (fun q => (q, { wr := 1, wr2 := 1 })) } }

theorem witness_idle :
    idle.idleDue 1 = true ∧ idle.idleDue 0x0C = true ∧ idle.idleDue 0x1B = true ∧ idle.idleDue 2 = true ∧ idle.idleDue 4 = true ∧
    idle.idleDue 0x0B = true ∧ idle.idleDue 0 = true ∧ idle.idleDue 3 = true ∧ idle.idleDue 0x3B = true ∧ ready.idleDue 59 = false := by decide

/-- A reply of 20 bytes waits for SPI. -/
def replying : Dev := { ready with
  cmd := { ready.cmd with
    replyQ := [{ src := { tr := .spi }, bytes := z 20, final := true, op := 0, tag := 1, hcrc := 0, pcrc := 0 }],
    queues := [(1, { wr := 1, wr2 := 1 })] } }

theorem witness_spi :
    ready.spiUp = true ∧ ready.spiServed = true ∧ (packetOf (packetBytes 0 (rq 0 []))).size ≤ (packetBytes 0 (rq 0 [])).length ∧
    16 ≤ (packetBytes 0 (rq 0 [])).length ∧ (z 15).length < 16 ∧ (packetBytes 0 (rq 0 [1, 2, 3, 4])).take 20 ≠ [] ∧
    ((packetBytes 0 (rq 0 [1, 2, 3, 4])).take 20).length < (packetOf ((packetBytes 0 (rq 0 [1, 2, 3, 4])).take 20)).size ∧
    ready.spiReplies = [] ∧ replying.spiReplies.length = 1 ∧ 19 < (z 20).length ∧ (replying.q 1).agree = true := by decide

/-- UDP in use on interface 1 with host 10 listed; the reply of a request is kept. -/
def udp : Dev := { par [(1, 0x22, 1), (1, 0x24, 3), (1, 0x25, 10)] ready with
  net := { ready.net with ports := List.replicate 4 { enabled := true, link := true } },
  cmd := { ready.cmd with
    trans := { ready.cmd.trans with
      kept := [{ expires := 2000000000, reply := {
        src := { tr := .udp, ip := 10, port := 9 }, bytes := z 16, final := true, op := 0, tag := 1, hcrc := (rq 0 []).hcrc 0, pcrc := 0 } }] } } }

theorem witness_udp :
    udp.life.ready = true ∧ udp.parB 1 0x22 = true ∧ (udp.par 1 0x24).getLsbD 1 = true ∧ (udp.net.ports.getD 3 {}).enabled = true ∧
    (udp.net.ports.getD 3 {}).link = true ∧ udp.parN 1 0x23 < 65536 ∧ udp.hostListed 10 = true ∧ udp.hostListed 11 = false ∧
    (packetOf (packetBytes 0 (rq 0 []))).crcOk = true ∧ (udp.keptFor 10 0 1 (packetOf (packetBytes 0 (rq 0 []))).hcrc 0).isSome = true ∧
    BitVec.ofNat 6 (packetOf (packetBytes 0 (rq 0 []))).tagWord = 1 ∧ (packetOf (packetBytes 0 (rq 0 []))).op = 0 ∧
    (packetOf (packetBytes 0 (rq 0 []))).len = 0 ∧ udp.keptFor 10 1 1 (packetOf (packetBytes 1 (rq 0 []))).hcrc 0 = none := by decide +kernel

theorem witness_udp_b :
    udp.parN 1 0x23 ≠ 0 := by decide +kernel

theorem witness_pcie :
    ready.up = true ∧ ((64 : Word) - ready.cmd.trans.pcie.cmdProducer).toNat ≤ 64 - ready.cmd.trans.pcie.slots.length ∧ [z 16].length ≤ 64 ∧
    ready.cmd.trans.pcie.enable = false ∧ (ready.modPcie (fun x => { x with enable := true })).cmd.trans.pcie.enable = true := by decide

/-! ### Flows, time and Ethernet -/

/-- Ports A to D in use with link, PTP on every port, a Sync waiting on port 3; flow 255 is UP and flow 254 STALE since reset. -/
def net : Dev := { par [(1, 0x34, 1), (1, 0x35, 2), (0x20, 0x10, 1), (0x20, 0x19, 7), (0x20, 0x0C, 1), (0x20, 0x0F, 1)] ready with
  net := { ready.net with ports := List.replicate 4 { enabled := true, link := true, ptp := 6, pending := some (0, 0) } },
  flows := { ready.flows with ctxs := [(254, { state := 3, payload := flowIn }), (255, { state := 1, payload := flowIn })] },
  pps := { ready.pps with inLast := some 0, inBad := 2, ref10Valid := true }, time := { ready.time with state := .locked } }
/-- An acknowledgement payload of one entry. -/
def ackBytes : List Byte := [0x1C, 0x5D, 1, 1] ++ z 8 ++ Bits.le 4 (Bits.crc32c ([0x1C, 0x5D, 1, 1] ++ z 8)).toNat ++ z 8

theorem witness_frames :
    Bits.byteAt (net.flow 255).payload 0 = 0 ∧ (net.flow 255).state = 1 ∧
    1000000 * Bits.at' (net.flow 255).payload 24 2 ≤ net.boundaryAge (net.flow 255).from' ∧ (net.flow 254).state = 3 ∧
    1000000 * Bits.at' (net.flow 254).payload 26 2 ≤ net.boundaryAge (net.flow 254).from' ∧ ready.portUp 3 = false ∧ net.portUp 3 = true ∧
    net.portUp 1 = true ∧ ethFrame.wf = true ∧ ethFrame.red = none ∧ ({ ethFrame with red := some { seq := 65535 } } : EthFrame).wf = true ∧
    ethFrame.src ≠ net.mac ∧ ethFrame.ethType ≠ 0x88FB ∧ ({ ethFrame with src := net.mac } : EthFrame).wf = true := by decide +kernel

theorem witness_frames_b :
    (dupTake net.time.now net.ddtForget 5 65535 net.net.hsr).1 = false ∧
    (dupTake net.time.now net.ddtForget 5 65535 (dupTake net.time.now net.ddtForget 5 65535 net.net.hsr).2.1).1 = true ∧
    Bits.at' ackBytes 0 2 = 0x5D1C ∧ Bits.byteAt ackBytes 2 = 1 ∧ Bits.byteAt ackBytes 3 = 1 ∧
    Bits.crc32c (Bits.fit 12 ackBytes) = Bits.wordAt ackBytes 12 ∧ 16 + 8 * 1 ≤ ackBytes.length ∧
    ({ ethFrame with fcsBad := true } : EthFrame).wf = true ∧ ethFrame.fcsBad = false ∧
    (net.ethIntake 3 { ethFrame with dst := net.mac, ethType := 0x88B5 }).1 = true ∧
    (net.ethIntake 3 { ethFrame with dst := net.mac, ethType := 0x88B5 }).2.mac = net.mac ∧
    ({ ethFrame with dst := net.mac, ethType := 0x88B5 } : EthFrame).wf = true ∧
    (Bits.crc32c (Bits.fit 12 (z 16)) == Bits.wordAt (z 16) 12) = false := by decide +kernel

theorem witness_time_inputs :
    net.ptpOn 3 = true ∧ net.ptpOn 0 = true ∧ (net.net.ports.getD 3 {}).pending = some (0, 0) ∧
    (net.ptpForward 3 (.followUp 0 0)).net.ports.getD 3 {} = net.net.ports.getD 3 {} ∧ (PtpMsg.sync true 0 0).wf = true ∧
    ready.portLive 3 = false ∧ net.parN 0x20 0x11 < 256 ∧ (net.net.ports.getD 3 {}).ptp = 6 ∧ (ready.net.ports.getD 3 {}).ptp ≠ 6 ∧
    1000000000 * 2 ^ (net.parI 0x20 0x16).toNat * net.parN 0x20 0x17 ≤ (net.advance 600000000000).time.now - (net.net.ports.getD 3 {}).annAt ∧
    net.parB 0x20 0x0C = true := by decide

theorem witness_time_inputs_b :
    net.hw.vioOut.getLsbD 2 = false ∧ ready.pps.inLast = none ∧ net.pps.inLast = some 0 ∧
    Bits.absI ((((net.time.now : Int) - net.parI 0x20 0x0E).toNat : Int) - 0 - 1000000000) ≤ 10000 ∧ net.timeValid = true ∧
    10000 < Bits.absI (((((net.advance 1500000000).time.now : Int) - net.parI 0x20 0x0E).toNat : Int) - 0 - 1000000000) ∧ net.pps.inBad = 2 ∧
    net.pps.ref10Valid = true ∧ ready.pps.ref10Valid = false ∧ net.parB 0x20 0x0F = true := by decide

/-- A frame of queue 7 due at 1 s. -/
def queued : Dev := { net with
  net := { net.net with
    ringOpen := false, ports := [{ enabled := true, link := true }, {}, {}, {}],
    launch := List.replicate 8 [{ frame := z 60, due := 1000000000, port := 0 }] } }

theorem witness_ports :
    (queued.net.launch.getD 7 []).length = 1 ∧ 1000000000 ≤ queued.dev ∧ (State.reset.dev).dev < 1000000000 ∧ queued.codeUp 0 = true ∧
    (par [(0x20, 0x40, 0)] queued).parB 0x20 0x40 = false ∧ (par [(0x20, 0x40, 0)] queued).codeUp 0 = true ∧ queued.net.ringOpen = false ∧
    queued.net.supA = none ∧ (queued.port 3).link = false ∧ (queued.port 0).link = true := by decide

/-! ### Acquisition, ranging and fusion -/

/-- Ranging at work, link 11 one good frame short of coming up and link 0 one bad frame short of falling, channel (3, 95) lost at 0,
stream 3 with an epoch at 0; acquisition on port 31; resampler 15 locked without a crossing since 0. -/
def measuring : Dev := { par [(8, 2, 4), (8, 0xC, 0)] ready with
  gnss := { ready.gnss with
    running := true, solving := true,
    links := [{ up := true, bad := 7 }, {}, {}, {}, {}, {}, {}, {}, {}, {}, {}, { good := 63 }],
    chans := [(0, { now := { system := 0 } }), (383, { now := { system := 0 }, lostAt := some 0 })],
    streams := [{}, {}, {}, { epochAt := some 0 }] },
  acq := { ready.acq with
    running := true, ports := 0x80000000,
    rs := List.replicate 15 {} ++ [{ lock := .locked, cross := some 0 }] } }
/-- Bytes 2 to 1043 of a link frame of link 11, epoch valid, counter 0, with its CRC. -/
def goodLink : LinkFrame :=
  { codeError := false, bytes := [30, 1] ++ z 1036 ++ Bits.le 4 (Bits.crc32c ([30, 1] ++ z 1036)).toNat }

theorem witness_port_frames :
    measuring.acq.ports.getLsbD 31 = true ∧ measuring.frame.syncDue = false ∧ measuring.testing 2 = false ∧
    measuring.hw.vioOut.getLsbD 1 = false ∧ measuring.acq.ports.getLsbD 30 = false ∧ (measuring.rs 15).cross = some 0 ∧
    (measuring.rs 15).lock = .locked ∧ 1600 * 4294967296 ≤ posOf measuring.dev - 0 := by decide +kernel

set_option maxRecDepth 30000 in
theorem witness_link_frames :
    measuring.gnss.running = true ∧ measuring.linkUsed 11 = true ∧ ready.gnss.running = false ∧ goodLink.wf = true ∧
    measuring.linkCause 11 goodLink = 0 ∧ measuring.linkCause 0 goodLink = 3 ∧ (measuring.glink 11).up = false ∧
    63 ≤ (measuring.glink 11).good ∧ (measuring.glink 0).up = true ∧ (measuring.glink 0).bad = 7 ∧
    ({ measuring with gnss := { measuring.gnss with links := List.replicate 12 { up := true } } } : Dev).linkCause 11 goodLink = 0 ∧
    (({ measuring with gnss := { measuring.gnss with links := List.replicate 12 { up := true } } } : Dev).glink 11).up = true := by decide +kernel

theorem witness_tracking :
    100 ≤ ({ ready with health := { ready.health with x := 100 } } : Dev).health.x ∧ measuring.health.x < 100 ∧
    measuring.testedThisFrame 1 = false ∧ (measuring.chan 0 0).now.system ≠ 0xFF ∧ (measuring.chan 0 0).lostAt = none ∧
    (measuring.chan 3 95).lostAt = some 0 ∧ measuring.gnss.passDue ≤ measuring.time.now ∧
    measuring.time.now < ({ measuring with gnss := { measuring.gnss with passDue := 1000000001 } } : Dev).gnss.passDue ∧
    10000000000 ≤ (measuring.advance 10000000000).time.now - 0 := by decide

theorem witness_solutions :
    measuring.up = true ∧ measuring.gnss.solving = true ∧ measuring.gnss.solved = false ∧ 2000000 ≤ measuring.sinceT0 ∧
    ({ measuring with frame := { measuring.frame with t0 := 1000000000, subAt := 1000000000 } } : Dev).sinceT0 < 2000000 ∧ net.portUp 3 = true ∧
    ready.portUp 3 = false ∧ ((measuring.gnss.streams.getD 3 {}).age measuring.time.now).isSome = true ∧
    (measuring.gnss.streams.getD 3 {}).stale = false ∧
    ((measuring.gnss.streams.getD 3 {}).age measuring.time.now).any (fun a => decide (1000000000 * measuring.gPar 0xC < a)) = true ∧
    600000000000 ≤ (measuring.advance 600000000000).time.now - measuring.gnss.storeAt := by decide

theorem witness_solutions_b :
    (par [(0x10, 9, 1)] ready).parB 0x10 9 = true := by decide

/-- Fusion at work: reference 15 admitted since 0, class 3 in a conflict since 0 whose references agree again since 0, reference 17
rejected and passing since 0, the state settled. -/
def fused : Dev := { par [(0xC, 0x40 + 16 * 15 + 0xB, 500), (0xC, 0xA, 0), (0xC, 0xB, 0), (0xC, 0xF, 1000), (0xC, 0x10, 1000)] ready with
  fusion := { ready.fusion with
    running := true, initialised := true, frames := 250,
    refs := List.replicate 15 {} ++ [{ state := .admitted }, {}, { state := .rejected, passSince := some 0 }],
    classes := List.replicate 3 {} ++ [{ conflict := some { used := some 0, a := 0, b := 1, since := 0, agreeSince := some 0 } }] } }

theorem witness_fusion :
    fused.up = true ∧ (fused.ref 15).state = .admitted ∧ 1000000 * fused.slotPar 15 0xB ≤ fused.time.now - (fused.ref 15).takenAt ∧
    (fused.cls 3).conflict.any (fun k => !k.expired) = true ∧ 1000000000 * fused.fPar 0xA ≤ fused.time.now - 0 ∧
    (fused.cls 3).conflict.any (fun k => k.agreeSince == some 0) = true ∧ 1000000000 * fused.fPar 0xB ≤ fused.time.now - 0 ∧
    (fused.ref 17).passSince = some 0 ∧ (fused.ref 17).state = .rejected ∧ fused.members 1 = [17] ∧ fused.fusion.settled = false ∧
    (fused.fusion.record.getD 8 0).toInt * 1000 < (fused.fPar 0xF : Int) * 65536 ∧
    (fused.fusion.record.getD 9 0).toInt * 1000 < (fused.fPar 0xF : Int) * 65536 ∧
    (fused.fusion.record.getD 10 0).toInt * 1000 < (fused.fPar 0x10 : Int) * 4194304 := by decide +kernel

/-! ### CAN -/

/-- Controller 7 in normal mode and controller 6 listening; the filter of buffer 63 takes identifier 7FFh; buffer 31 is pending, buffer
63 locked since 0, buffer 62 free; the receive mapping 255 has had no frame since 0. -/
def can : Dev := par [(0x24, 0x200 + 0x40 * 7 + 2 * 31, 0x400007FF), (0x24, 0x201 + 0x40 * 7 + 2 * 31, 0x7FF),
    (0x24, 0x800 + 4 * 255, 0x8000), (0x24, 0x802 + 4 * 255, 70000), (0x24, 0x803 + 4 * 255, 250)]
  { (ready.modCtrl 7 (fun k => { k with mode := 1, bufs := [(31, { state := .pending }), (63, { lock := some 0 })] })).modCtrl 6
      (fun k => { k with mode := 2 }) with can := { ((ready.modCtrl 7 (fun k => { k with
        mode := 1, bufs := [(31, { state := .pending }), (63, { lock := some 0 })] })).modCtrl 6 (fun k => { k with mode := 2 })).can with
          maps := [(255, { alive := true })] } }

theorem witness_can_frames :
    can.up = true ∧ can.canMode 7 = 1 ∧ can.canMode 6 = 2 ∧ can.canMode 5 = 0 ∧ (can.ctrl 7).off = false ∧ can.hw.vioOut.getLsbD 0 = false ∧
    canFrame.wf = true ∧ canFrame.fdf = false ∧ ({ canFrame with fdf := true } : CanFrame).wf = true ∧
    (par [(0x24, 0x101, 0)] can).canPar 7 1 = 0 ∧ can.canPar 7 1 ≠ 0 ∧ canFrame.remote = false ∧ can.canMatch 7 canFrame = some 63 ∧
    can.canMatch 6 canFrame = none := by decide +kernel

theorem witness_can_frames_b :
    ((can.ctrl 7).buf 63).lock = some 0 ∧ ((can.ctrl 7).buf 62).lock = none ∧
    ({ canFrame with remote := true, data := [] } : CanFrame).wf = true := by decide +kernel

theorem witness_can_timers :
    20000 < can.time.now - 0 ∧ State.reset.dev.time.now - 0 ≤ 20000 ∧ (can.par 0x24 (0x800 + 4 * 255)).getLsbD 15 = true ∧
    (can.rxMap 255).alive = true ∧ 0 < 1000000 * can.parN 0x24 (0x803 + 4 * 255) ∧
    4 * (1000000 * can.parN 0x24 (0x803 + 4 * 255)) ≤ can.boundaryAge (can.rxMap 255).last ∧ (can.rxMap 255).stale = false ∧
    (can.rxMap 255).bad = false := by decide +kernel

theorem witness_can_attempts :
    ((can.ctrl 7).buf 31).state = .pending ∧ (can.ctrl 7).before 31 (can.time.now - 100000) = false ∧
    ({ (can.ctrl 7) with bufs := [(30, { state := .pending }), (31, { state := .pending, idw := 5 })] } : CanCtrl).before 31 1000000000 = true ∧
    ((can.ctrl 7).buf 30).state ≠ .pending ∧ (CanEnd.error 6).wf = true ∧
    ((can.modCtrl 7 (fun k => { k with err := .recovering, recover := some 1 })).ctrl 7).err = .recovering ∧
    (can.ctrl 7).err ≠ .recovering := by decide +kernel

/-! ### The pair -/

/-- A heartbeat: frame, unit byte, role, flags, with its CRC. -/
def beatBytes (frame unit role fl : Nat) : List Byte :=
  let m := [0x1D, 0x5D, 1, 1] ++ Bits.le 4 frame ++ Bits.le 1 unit ++ Bits.le 1 role ++ Bits.le 2 fl ++ z 36
  m ++ Bits.le 4 (Bits.crc32c m).toNat
/-- A lane message of a type and frame with a payload: segment and part 0 of 1. -/
def lane (typ frame : Nat) (p : List Byte) : List Byte := laneMessage typ frame 0 0 1 p

theorem witness_lane :
    ready.up = true ∧ ready.life.ready = true ∧ early.up = true ∧ early.life.ready = false ∧ beatOf (z 51) = none ∧
    (beatOf (beatBytes 7 1 0 1)).isSome = true ∧ ((beatOf (beatBytes 7 1 0 1)).any (fun b => b.hflags.getLsbD 0)) = true ∧
    ((beatOf (beatBytes 7 1 0 1)).any (fun b => ({ ready with clasp := { ready.clasp with lastBeatFrame := some 7 } } : Dev).clasp.lastBeatFrame == some b.frame)) = true ∧
    (ready.laneGood 1).clasp.lastBeatFrame ≠ some 7 ∧ laneOf (z 19) = none ∧
    (laneOf (lane 2 7 [1, 0, 0, 0])).any (fun x => x.1 == 2 && x.2.1 == 7 && x.2.2.2.2.2 == [1, 0, 0, 0]) = true ∧
    (laneOf (lane 7 7 (z 36))).any (fun x => x.1 == 7 && x.2.1 == 7 && x.2.2.2.2.2 == z 36) = true ∧ (ready.takeOnce 7 7).1 = true ∧
    (ready.takeOnce 2 7).1 = true := by decide +kernel

theorem witness_lane_b :
    ((ready.takeOnce 2 7).2.takeOnce 2 7).1 = false ∧ ((ready.takeOnce 7 7).2.takeOnce 7 7).1 = false := by decide +kernel

/-- A running firmware image of the stage, erased but for the version 0 of its header. -/
def staged : Dev := { ready with nvm := { ready.nvm with images := [{ cells := [(4, 0), (5, 0), (6, 0), (7, 0), (8, 0), (9, 0), (10, 0), (11, 0), (12, 0), (13, 0), (14, 0), (15, 0)], state := 4 }, {}] } }
/-- Segment 0 of a mirror of frame 50 under this Hallmark, and the END segment with the CRC of the eight that stand. -/
def head0 : List Byte := Bits.le 4 50 ++ Bits.le 8 0x9f592e2ac284d127 ++ z 8
/-- A unit that holds segments 0 to 7. -/
def mirrored : Dev := { staged with
  frame := { staged.frame with number := 50 },
  clasp := { staged.clasp with
    segs := [(0, head0), (1, []), (2, []), (3, []), (4, []), (5, []), (6, []), (7, [])], image := [(0, []), (1, [])] } }

theorem witness_parts :
    control.clasp.role.inControl = true ∧
    (laneOf (lane 3 7 [1, 0, 0, 0])).any (fun x => x.1 == 3 && x.2.1 == 7 && x.2.2.2.2.2 == [1, 0, 0, 0]) = true ∧
    (laneOf (lane 6 7 [1, 0, 0, 0])).any (fun x => x.1 == 6 && x.2.1 == 7 && x.2.2.2.2.2 == [1, 0, 0, 0]) = true ∧
    ready.clasp.role.inControl = false ∧ ready.clasp.mirrorOpen = true ∧ (takePart 3 7 8 0 2 [1] ready.clasp.bodies).2 = none ∧
    (takePart 3 7 8 0 1 [1] ready.clasp.bodies).2 = some [1] ∧ ready.mirrorWhole = false ∧
    (takePart 6 7 2 0 2 [1] ready.clasp.bodies).2 = none ∧ (Bits.insert 2 [1] ready.clasp.image).length ≠ 3 ∧
    (Bits.insert 2 [1] mirrored.clasp.image).length = 3 := by decide +kernel

theorem witness_mirror_whole :
    staged.fwMajor = 0 ∧
    ({ mirrored with clasp := { mirrored.clasp with segs := mirrored.clasp.segs ++ [(8, Bits.le 4 (Bits.crc32c head0).toNat)] } } : Dev).mirrorWhole = true := by decide +kernel

theorem witness_partner_commits :
    (laneOf (lane 4 7 (Bits.le 4 60 ++ z 8))).any (fun x => x.1 == 4 && x.2.1 == 7 && x.2.2.2.2.2 == Bits.le 4 60 ++ z 8) = true ∧
    (ready.takeOnce 4 7).1 = true ∧ (ready.takeOnce 4 7).2.clasp.role.inControl = false ∧
    (match (ready.takeOnce 4 7).2.validate (ready.takeOnce 4 7).2.cfg.mirrored none 0 with | .good _ => true | .bad _ _ _ => false) = true ∧
    (match (ready.takeOnce 4 7).2.validate [(key 1 0x34, 5)] none 0 with | .good _ => false | .bad _ _ _ => true) = true ∧
    (laneOf (lane 5 7 (Bits.le 4 51 ++ z 12))).any (fun x => x.1 == 5 && x.2.1 == 7 && x.2.2.2.2.2 == Bits.le 4 51 ++ z 12) = true ∧
    Bits.at' (Bits.le 4 51 ++ z 12) 0 4 = (({ ready with frame := { ready.frame with number := 50 } } : Dev).frame.number + 1) % 2 ^ 32 ∧
    commit.validated = true ∧ commit.paired = true ∧ commit.partner = none := by decide +kernel

/-- A unit whose lease ran out at 1 s. -/
def lapsed : Dev := { control with clasp := { control.clasp with leaseAt := 1000000000 } }
/-- One whose expiry fence waits since 0. -/
def waiting : Dev := { control with clasp := { control.clasp with ackSince := some 0 } }

theorem witness_expiry :
    lapsed.clasp.lease = true ∧ lapsed.clasp.leaseAt ≤ lapsed.time.now ∧ control.time.now < control.clasp.leaseAt ∧
    waiting.clasp.ackSince = some 0 ∧ 20000000 ≤ waiting.time.now - 0 ∧ ready.clasp.ackSince = none := by decide

/-- A holder of the lease that has read OWN_IN asserted since reset; a unit whose partner shows LEASE while OWN_IN reads deasserted. -/
def owned : Dev := { control with clasp := { control.clasp with ownIn := true } }
/-- A STANDBY of preferred identity, synced, whose hold-off began at reset. -/
def returning : Dev := par [(0x28, 5, 1)] { ready with
  island := { ready.island with bezel := 0x00080000 },
  clasp := { ready.clasp with role := .standby, synced := true, holdoffFrom := some 0, resync := 3 } }

theorem witness_ownership :
    300000 ≤ owned.time.now - owned.clasp.ownEdgeAt ∧ owned.clasp.lease = true ∧ owned.clasp.ownIn = true ∧ owned.clasp.twoOwners = false ∧
    owned.up = true ∧ owned.life.ready = true ∧ 1000000 ≤ owned.time.now - owned.clasp.ownSince ∧
    1000000000 ≤ owned.time.now - owned.clasp.beatAt ∧ owned.clasp.mismatch.getLsbD 0 = false ∧ (paired 1 0 ready).beatFlag 0 = true ∧
    (paired 1 0 ready).clasp.role.inControl = false ∧ (paired 1 0 ready).life.ready = true ∧ (paired 1 0 ready).clasp.ownIn = false ∧
    100000000 ≤ (paired 1 0 ready).time.now - (paired 1 0 ready).clasp.ownSince := by decide +kernel

theorem witness_ownership_b :
    (paired 1 0 ready).clasp.mismatch.getLsbD 1 = false := by decide +kernel

theorem witness_pair_timers :
    (paired 1 0 ready).clasp.absent = false ∧ 80000000 ≤ ((paired 1 0 ready).advance 2000000000).time.now - (paired 1 0 ready).clasp.beatAt ∧
    (({ ready with clasp := { ready.clasp with lanes := [{}, { up := true, bad := 3 }] } } : Dev).clasp.lanes.getD 1 {}).up = true ∧
    ready.clasp.waiting = true ∧ ({ ready with clasp := { ready.clasp with claimWaitAt := some 1000000000 } } : Dev).time.now = 1000000000 ∧
    ready.clasp.role.inControl = false ∧ (ready.advance 100000000000).orphanTime = true ∧
    ({ ready with clasp := { ready.clasp with waiting := false, causes := 0 } } : Dev).clasp.causes.getLsbD 8 = false ∧
    ({ ready with clasp := { ready.clasp with waiting := false, causes := 0 } } : Dev).clasp.causes.getLsbD 2 = false ∧
    ready.clasp.ownIn = false ∧ ready.criticalStands = false ∧ ready.life.ready = true := by decide +kernel

theorem witness_return :
    returning.preferred = true ∧ returning.parB 0x28 5 = true ∧ returning.clasp.returnSuspended = false ∧
    returning.holdoffNs ≤ (returning.advance 30000000000).time.now - 0 ∧
    10000000000 ≤ (returning.advance 10000000000).time.now - returning.clasp.resyncAt ∧ returning.clasp.role.inControl = false ∧
    returning.clasp.role = .standby ∧ returning.clasp.synced = true ∧ returning.clasp.resync = 3 ∧
    returning.clasp.holdoffFrom = some 0 := by decide +kernel

/-! ### The safety island -/

/-- The island at tick 10,000: input 15 in DEMAND since tick 0 with a judgement open, input 14 with a line fault whose test has passed
since tick 0, a press of the reset input since tick 0; outputs 7 to 15 on, output 0 off and reading high. -/
def safety : Dev := { ready with
  island := { ready.island with
    state := .run, tick := 10000, pressAt := some 0,
    inputs := List.replicate 14 {} ++ [{ state := .lineFault, passSince := some 0 }, { state := .demand, judge := some 0 }],
    outputs := { highRun := 4 } :: (List.replicate 7 {} ++ List.replicate 8 { state := .on, lowRun := 4 }) } }

theorem witness_island_stage :
    safety.runs = true ∧
    ({ safety with island := { safety.island with state := .starting, tick := 60, bezelValid := true } } : Dev).island.bezelValid = true ∧
    ({ safety with island := { safety.island with state := .starting, tick := 60 } } : Dev).island.bezelValid = false ∧
    ready.island.state = .starting ∧ ready.island.tick < 60 := by decide

theorem witness_safety_inputs :
    (safety.safeIn 15).judge = some 0 ∧ (safety.safeIn 15).state = .demand ∧ 0 + safety.discTicks ≤ safety.island.tick ∧
    ({ safety with island := { safety.island with tick := 10 } } : Dev).island.tick < 0 + safety.discTicks ∧
    (safety.safeIn 14).passSince = some 0 ∧ (safety.safeIn 14).state = .lineFault ∧ 0 + 4000 ≤ safety.island.tick ∧
    safety.island.pressAt = some 0 ∧ 8000 < safety.island.tick - 0 ∧ safety.island.pressHeld = false := by decide

theorem witness_safety_outputs :
    (safety.safeOut 15).state = .on ∧ (safety.safeOut 0).state = .off ∧ 4 ≤ (safety.safeOut 0).highRun ∧ 4 ≤ (safety.safeOut 15).lowRun ∧
    safety.island.state ≠ .safe ∧ safety.island.mdTested.getD 0 none = none ∧
    (List.range 8).all (fun k => (safety.safeOut (8 * 0 + k)).state != .on) = true ∧
    ({ safety with island := { safety.island with mdTested := [none, some 0], tick := 50000, groupOff := [0, 40], outputs := [] } } : Dev).island.mdTested.getD 1 none = some 0 ∧
    40000 ≤ 50000 - 0 := by decide

theorem witness_island_faults :
    ({ ready with island := { ready.island with safeAt := some 0 } } : Dev).island.safeAt = some 0 ∧ ready.time.now - 0 < 60000000000 ∧
    ready.island.safeAt = none ∧ ({ ready with island := { ready.island with state := .safe } } : Dev).island.state = .safe ∧
    ({ ready with island := { ready.island with bezelLive := 5 } } : Dev).island.bezelLive = 5 ∧ (5 : Word) ≠ ready.island.bezel ∧
    some (5 : Word) ≠ ready.island.reported ∧ ready.island.bezelLive ≠ 5 := by decide

/-! ### Temperature, self-test, faults and Locket -/

/-- A module whose site 23 failed at reset, with a shutdown decided at 0 and an alert calm since 0. -/
def warm : Dev := { par [(0x30, 2, 0), (0x30, 4, 0)] ready with
  health := { ready.health with
    diodeUse := .none, decided := some 0, alert := true, calmSince := some 0,
    sites := List.replicate 23 {} ++ [{ failed := some 1 }] } }
/-- A module in thermal-off whose diode has read at or below 100 °C 29 times. -/
def cooled : Dev := { ready with life := { ready.life with thermalOff := true, restartOk := true, coolCount := 29 } }
/-- A module whose hot site 23 waits for the running conversion, and site 22 for the next. -/
def arbiting : Dev := { par [(0x30, 0x6E, 0)] ready with health := { ready.health with diodeUse := .arbiter 23 2300, arbNext := some (22, 2300) } }

theorem witness_diode :
    warm.health.diodeUse = .none ∧ ready.health.diodeUse = .check ∧ ready.health.diodeFailed = false ∧ (-801 : Int) < -800 ∧
    (2400 : Int) < 2401 ∧ arbiting.health.diodeUse = .arbiter 23 2300 ∧ arbiting.health.arbNext = some (22, 2300) ∧
    (arbiting.site 23).failed = none ∧ Bits.absI (2300 - (2290 + arbiting.parI 0x30 (0x12 + 4 * 23))) ≤ 128 ∧ warm.health.decided = some 0 ∧
    5000000 ≤ warm.time.now - 0 ∧ ready.health.decided = none ∧ cooled.life.powered = true ∧ 30 ≤ cooled.life.coolCount + 1 := by decide +kernel

theorem witness_diode_b :
    cooled.shutdowns60 < 3 ∧ (¬(30 ≤ ({ cooled with life := { cooled.life with coolCount := 28 } } : Dev).life.coolCount + 1)) ∧
    ready.life.thermalOff = false := by decide +kernel

theorem witness_health_timers :
    warm.failedSites.length = 1 ∧ warm.health.alert = true ∧ 10000000000 ≤ (warm.advance 10000000000).time.now - 0 ∧
    ready.health.calmSince = none ∧ warm.time.now - 0 < 10000000000 ∧ (Instr.faultHoldExpiry 0 65535 65535).wf = true ∧
    ({ maintain with life := { maintain.life with state := .service } } : Dev).life.state = .service ∧
    (par [(0x30, 4, 1)] ready).parN 0x30 4 ≠ 0 := by decide +kernel

/-- A self-test of domain 4 running. -/
def testing : Dev := { ready with health := { ready.health with test := some { domain := 4, frame := 0, tag := none, running := true } } }

theorem witness_selftest :
    testing.health.test.any (fun x => x.running && !x.done) = true ∧
    (Instr.selftestComplete 0 { sigGot := 0, failChain := 3, restoreOk := false, micros := 5 }).wf = true := by decide


theorem witness_selftest_passes : ({ sigGot := Config.signature 4, failChain := 0, restoreOk := true, micros := 5 } : ScanResult).sigGot =
    Config.signature 4 := rfl

theorem witness_selftest_fails : ({ sigGot := Config.signature 4 + 1, failChain := 7, restoreOk := true, micros := 5 } : ScanResult).sigGot ≠
    Config.signature 4 := by simp

/-- Three faults in the queue: severities 1, 3 and 3; a lost record; two records in the priority lane. -/
def faulty : Dev := { ready with
  faults := { ready.faults with queue := [{ code := 0x0B09, source := 1, sev := 1 }, { code := 0x0E09, source := 0, sev := 3 }, { code := 0x0E0A, source := 0, sev := 3 }] },
  locket := { ready.locket with
    lostFirst := some (ready.record 2 0x0B09 0 0 []), lostCount := 3, lane := [ready.record 2 0x0B09 0 0 [], ready.record 2 0x0E09 0 0 []] } }
/-- The same module with the rest of an entry of severity 3 waiting. -/
def waitingFault : Dev := { faulty with faults := { faulty.faults with held := [({ code := 0x0E08, source := 0, sev := 3 }, 2)] } }

theorem witness_faults_and_locket :
    ready.faults.queue = [] ∧
    faulty.faults.queue = [{ code := 0x0B09, source := 1, sev := 1 }] ++ { code := 0x0E09, source := 0, sev := 3 } :: [{ code := 0x0E0A, source := 0, sev := 3 }] ∧
    (1 : Nat) < 3 ∧ faulty.faults.held = [] ∧ (faulty.qRead 3 1).2 = [] ∧ waitingFault.faults.held.any (fun h => decide (3 ≤ h.1.sev)) = true ∧
    faulty.locket.lane.length = 2 ∧ faulty.locket.lostFirst.isSome = true ∧ 0 < faulty.locket.lostCount ∧ faulty.locket.front.length < 256 ∧
    ready.locket.lostFirst = none := by decide

theorem witness_faults_and_locket_b :
    (Instr.locketScrub 0 [3]).wf = true := by decide

/-! ### Power, reset and the board -/


theorem witness_power :
    off.life.powered = false ∧ (Instr.powerUp 0 0 0 15 255 none).wf = true ∧ off.life.rstLow = none ∧
    ({ off with life := { off.life with rstLow := some 0 } } : Dev).life.rstLow ≠ none ∧ ready.runs = true ∧ ready.life.stuck = false ∧
    ready.hw.vioOut.getLsbD 2 = false ∧
    ({ ready with life := { ready.life with inReset := true, rstLow := some 0 } } : Dev).life.thermalOff = false ∧
    4950000000 ≤ (({ ready with life := { ready.life with inReset := true, rstLow := some 0 } } : Dev).advance 5000000000).time.now - 0 ∧
    ({ ready with life := { ready.life with stuck := true, rstHigh := some 0 } } : Dev).runs = true ∧
    100000000 ≤ ready.time.now - 0 := by decide

theorem witness_readiness :
    early.up = true ∧ early.life.ready = false ∧ ready.life.ready = true ∧
    ({ ready with clasp := { ready.clasp with feeds := 0 } } : Dev).clasp.feeds = 0 ∧
    ({ ready with clasp := { ready.clasp with feeds := 2 } } : Dev).clasp.feeds ≠ 0 ∧
    ({ early with life := { early.life with trialRun := true } } : Dev).life.trialRun = true ∧ 285000 < ready.c / 1000 ∧
    early.c / 1000 ≤ 285000 := by decide

theorem witness_board :
    (Instr.vioOut 0 4 65535).wf = true ∧ ready.hw.vioOut.getLsbD 3 = false ∧
    ({ ready with hw := { ready.hw with vioOut := 8 } } : Dev).hw.vioOut.getLsbD 3 = true ∧ (Instr.oscWarm 0 600).wf = true ∧
    (Instr.oscFault 0 1 (-50)).wf = true ∧ (Instr.debugPortAccess 0 (.read 0)).wf = true ∧ ready.life.debug = 0 ∧
    ({ ready with life := { ready.life with debug := 1 } } : Dev).life.debug ≠ 0 := by decide

/-! ### The whole machine -/

/-- A module in RETIRED: its newer copy and its state. -/
def retired : State := st { ready with
  nvm := { ready.nvm with lifeB := LifeCopy.signed { seq := 1, state := .retired } }, life := { ready.life with state := .retired } }

theorem witness_retired : retired.dev.retiredHolds ∧ retired.dev.storedLife = .retired := by
  refine ⟨fun _ => ⟨rfl, .inl rfl⟩, ?_⟩
  decide +kernel

theorem witness_retired_step : step retired = .next retired := rfl


theorem witness_rules :
    (rq 0 [1]).wf = true ∧ (Instr.echo 0 (rq 0 [])).request = some (0x00, rq 0 []) ∧
    Bits.wfMap (fun _ => ({} : Point)) ready.image.live = true ∧ ready.nvm.lifeA.valid = true ∧
    Machine.transition .commission .maintain = none ∧ ready.admits 0xA1 (rq 3 (z 96)) = true ∧ lifeOf 9 = none ∧ retired.dev.serving = true ∧
    retired.dev.idle = true := by decide +kernel

theorem witness_gates :
    retired.dev.gate 0x11 (rq 0 []) = some (stLife, 5) ∧ ready.clasp.role.inControl = false ∧ ready.gate 0x30 (rq 0 []) = some (stRole, 0) ∧
    ready.receives 0x30 (rq 0 []) = true ∧ ready.packetFault 0x30 (rq 0 []) 0 none true = none ∧ ready.gate 0x71 (rq 0 []) = some (stRole, 0) ∧
    ({ ready with clasp := { ready.clasp with role := .standby } } : Dev).gate 0x12 (rq 0 []) = some (stRole, 0) := by decide

/-! ### Worked values of the manual -/

/-- Table 2.4: the CRC of the nine digits. -/
theorem test_crc : Bits.crc32c [0x31, 0x32, 0x33, 0x34, 0x35, 0x36, 0x37, 0x38, 0x39] = 0xE3069283#32 := by decide +kernel

/-- The worked request of 02: PARAM_STAGE of one word. -/
theorem test_header : (packetBytes 0x11 { rq 0x01000102 [0, 0, 0, 0] with tag := 5 }).take 12 =
    [0xA5, 0x11, 0x05, 0x00, 0x04, 0x00, 0x00, 0x00, 0x02, 0x01, 0x00, 0x01] := by decide +kernel

/-- Table 17.3: LIFECYCLE_ADVANCE has eleven transitions. -/
theorem test_transitions : (([.factory, .commission, .service, .maintain, .returned, .retired] : List Life).flatMap (fun a =>
    ([.factory, .commission, .service, .maintain, .returned, .retired] : List Life).filter (fun b =>
      (Machine.transition a b).isSome))).length = 11 := by decide


/-- A module whose configuration store takes no write, with two wrong bits in record 16384 and one in record 16385. -/
def worn : Dev := { ready with
  hw := { ready.hw with noStore := true }, image := { ready.image with struck := [(16384, 3), (16385, 1)] } }
/-- A module in which the second read pointers of Locket's front queue and of a sample FIFO have gone wrong. -/
def split : Dev := ready.pointerStrike { pointers := [(2, 1), (0x1C, 5)] }

theorem witness_memory :
    worn.hw.noStore = true ∧ Bits.wfMap (fun _ => 0) worn.image.struck = true ∧ Bits.wfMap (fun _ => ({} : Point)) worn.image.live = true ∧
    16384 ∉ worn.image.bad ∧ uncorrectable (worn.struckAt 16384) = true ∧ uncorrectable (worn.struckAt 16385) = false ∧
    worn.struckAt 16385 = 1 ∧ 16384 ∈ (worn.imageMeet 16384).image.bad ∧ ((worn.imageMeet 16384).pt 16384).quality = 3 ∧
    (worn.imageMeet 16385).image.corrected = 1 ∧ ({ crc := 1 } : LifeCopy).valid = false ∧
    Bits.wfMap (fun _ => ({} : QCtl)) split.cmd.queues = true ∧ (split.q 2).agree = false ∧ (split.q 0x1C).agree = false := by decide +kernel

theorem witness_memory_b :
    (split.qCheck 2).2 = [(0x0107, 2)] ∧ (split.qCheck 2).1.locket.front = [] ∧ ((split.qCheck 2).1.q 2).overrun = true := by decide +kernel

end Sys2Proof.Tests
end

section
/-! PROOFS. The frame: its tick, its sub-ticks and its slots (01). -/

namespace Sys2Proof.Machine

open Sys2Proof

/-! ### Commands whose operands are in range -/

/-- A command of a module that is up has its own effect, which leaves it as e. -/
theorem exec_whenRuns {i : Instr} {t : Nat} {f : Dev → Dev} {s : State} {d : Dev} (h : exec i s = s.act i t (Dev.whenRuns f))
    (hw : i.wf = true) (hd : d = s.dev.reach t) (hu : d.up = true) {e : Dev} (he : f d = e) :
    exec i s = .next (s.left e) := by
  have run : d.whenRuns f = e := (if_pos hu).trans he
  rw [h, State.act, if_pos hw, ← hd, run]
  rfl

/-- As exec_whenRuns, for the commands that the boot ROM has too. -/
theorem exec_whenPowered {i : Instr} {t : Nat} {f : Dev → Dev} {s : State} {d : Dev} (h : exec i s = s.act i t (Dev.whenPowered f))
    (hw : i.wf = true) (hd : d = s.dev.reach t) (hr : d.runs = true) {e : Dev} (he : f d = e) :
    exec i s = .next (s.left e) := by
  have run : d.whenPowered f = e := (if_pos hr).trans he
  rw [h, State.act, if_pos hw, ← hd, run]
  rfl

/-- PASS_OVERRUN has its effect in the pass that it meets. -/
theorem exec_passOverrun {i t : Nat} {s : State} {d e : Dev} (hi : i < 256) (hd : d = s.dev.advance t) (hu : d.up = true)
    (he : d.overrunSlot i = e) : exec (.passOverrun t i) s = .next (s.left e) := by
  have run : d.whenRuns (Dev.overrunSlot i) = e := (if_pos hu).trans he
  have hw : (Instr.passOverrun t i).wf = true := decide_eq_true hi
  show s.actInPass (.passOverrun t i) t (Dev.whenRuns (Dev.overrunSlot i)) = _
  rw [State.actInPass, if_pos hw, ← hd, run]
  rfl

/-! ### FRAME_TICK (R20) -/

theorem frameTick_early {m : MemoryIn} {d : Dev} (h : d.dev < d.frame.nextTick) : d.frameTick m = d := if_pos h

theorem frameTick_activating {m : MemoryIn} {d : Dev} (h : d.frame.nextTick ≤ d.dev) (ha : d.life.activating.isSome = true) :
    d.frameTick m = d.restart 5 := by
  rw [Dev.frameTick, if_neg (Nat.not_lt.2 h), if_pos ha]

/-- Settles O15, by the three cases of FRAME_TICK: too early, a firmware activation, a tick. -/
theorem frameTickActsInOrder : Obligations.FrameTickActsInOrder := by
  unfold Obligations.FrameTickActsInOrder
  intro s t m d hd hu hm
  have run {e : Dev} (he : d.frameTick m = e) : exec (.frameTick t m) s = .next (s.left e) :=
    exec_whenRuns (i := .frameTick t m) rfl hm hd hu he
  refine ⟨fun h => run (frameTick_early h), fun h ha => run (frameTick_activating h ha), fun h ha o a b e ho he ha' hb => run ?_⟩
  rw [Dev.frameTick, if_neg (Nat.not_lt.2 h), if_neg (by rw [ha]; decide)]
  dsimp only
  rw [← ho, ← he, ← ha', ← hb]

/-! ### Slots (R15) -/

theorem slotDue_iff {d : Dev} {k : Slot} {n : Nat} :
    d.slotDue k n = true ↔ d.frame.slots.getLsbD (slotBit k) = false ∧ d.frame.t0 + n ≤ d.dev := by
  rw [Dev.slotDue, Bool.and_eq_true, Bool.not_eq_true', decide_eq_true_eq]

theorem slotDone_bit (k : Slot) (d : Dev) : (d.slotDone k).frame.slots.getLsbD (slotBit k) = true := by
  cases k <;> simp [Dev.slotDone, slotBit]

theorem slotDone_not_due (k : Slot) (n : Nat) (d : Dev) : (d.slotDone k).slotDue k n = false := by
  rw [Dev.slotDue, slotDone_bit]
  rfl

theorem tailSlot_due {d : Dev} (hb : d.frame.slots.getLsbD (slotBit .tail) = false) (ht : d.frame.nextTick ≤ d.dev + 400000) :
    d.tailSlot = (d.slotDone .tail).mirrorAbort.conseqTail.commitWindow := by
  rw [Dev.tailSlot, if_pos]
  simp [hb, ht]

theorem tailSlot_idle {d : Dev} (h : d.frame.slots.getLsbD (slotBit .tail) = true ∨ d.dev + 400000 < d.frame.nextTick) :
    d.tailSlot = d := by
  rw [Dev.tailSlot, if_neg]
  rcases h with h | h
  · simp [h]
  · simp [Nat.not_le.2 h]

theorem launchSlot_due {served : Bool} {d a b : Dev} (h : d.slotDue .launch 16000000 = true) (ha : a = d.cutoffSlot 0)
    (hb : b = ((a.slotDone .launch).launchThrusters.renewLease served).beatSend.releaseAtLaunch) {x : Dev}
    (hx : x = if a.clasp.lease && a.clasp.role.inControl then b.mirrorSend else b.flowStateSend) :
    d.launchSlot served = ((x.imageSend.locketCommit 256).selftestTail.conseqOpen 0 (x.frame.nextTick - 400000)).commitReply := by
  rw [Dev.launchSlot, if_pos h]
  dsimp only
  rw [← ha, ← hb, ← hx]

/-! ### What has happened by an instant (R21) -/

theorem reach_of_up {d : Dev} (h : d.up = true) (t : Nat) : d.reach t = (d.dueWork t).advance t := by
  have run : (if d.runs && !d.life.noImage then d.dueWork t else d) = d.dueWork t := if_pos h
  rw [Dev.reach, run]

theorem dueWork_pass_later {d : Dev} {w : PassWait} {t : Nat} (hp : d.engine.pass = some w) (hl : d.engine.limits = none)
    (hs : d.frame.secondDue = none) (ht : t ≤ w.due) : d.dueWork t = d := by
  simp only [Dev.dueWork, hp, if_neg (Nat.not_lt.2 ht), hl, hs]

theorem dueWork_pass_due {d y : Dev} {w : PassWait} {t : Nat} (hp : d.engine.pass = some w) (ht : w.due < t)
    (hy : y = (d.advance w.due).passEnd) (hl : ∀ l, y.engine.limits = some l → t ≤ l.1) (hs : y.frame.secondDue = none) :
    d.dueWork t = y := by
  simp only [Dev.dueWork, hp, if_pos ht, ← hy]
  cases h : y.engine.limits with
  | none => simp only [hs]
  | some l => simp only [if_neg (Nat.not_lt.2 (hl l h)), hs]

theorem dueWork_limits_due {d y : Dev} {u : Nat} {js : List Nat} {t : Nat} (hp : d.engine.pass = none)
    (hl : d.engine.limits = some (u, js)) (ht : u < t) (hy : y = (d.advance u).limitSlot) (hs : y.frame.secondDue = none) :
    d.dueWork t = y := by
  simp only [Dev.dueWork, hp, hl, if_pos ht, ← hy, hs]

/-! ### Sub-ticks (R11, R28) -/

theorem subTick_first {m : SubTickIn} {d : Dev} (h : d.slotDue .sub0 0 = true) : d.subTick m = (d.slotDone .sub0).subWork m := if_pos h

theorem subTick_next {m : SubTickIn} {d : Dev} (h : d.slotDue .sub0 0 = false) (hb : d.frame.slots.getLsbD 0 = true)
    (hn : d.subNext < d.frame.nextTick) (hr : d.subNext ≤ d.dev) :
    d.subTick m = { d with frame := { d.frame with sub := d.frame.sub + 1, subAt := d.subNext } }.subWork m := by
  simp only [Dev.subTick, h, Bool.false_eq_true, if_false, hb, decide_eq_true hn, decide_eq_true hr, Bool.and_self, if_true]

theorem subTick_early {m : SubTickIn} {d : Dev} (h : d.slotDue .sub0 0 = false) (hr : d.dev < d.subNext) : d.subTick m = d := by
  simp only [Dev.subTick, h, Bool.false_eq_true, if_false, decide_eq_false (Nat.not_le.2 hr), Bool.and_false]

/-- Settles O17: sub-ticks and what precedes an instant, each slot when due and when not, and the order of the launch. -/
theorem slotsOfTheFrameRunOnce : Obligations.SlotsOfTheFrameRunOnce := by
  unfold Obligations.SlotsOfTheFrameRunOnce
  refine ⟨fun s t m d hd hu hm => ?_, fun s t d hd hu => ?_, fun s t served d a b hd hu hdue ha hb => ?_⟩
  · have run {e : Dev} (he : d.subTick m = e) : exec (.subTick t m) s = .next (s.left e) :=
      exec_whenRuns (i := .subTick t m) rfl hm hd hu he
    refine ⟨fun h => run (subTick_first h), fun h hb hn hr => run (subTick_next h hb hn hr), fun h hr => run (subTick_early h hr),
      fun b hb => by rw [hb]; rfl, fun x w hx hp hl hs => ⟨fun ht => ?_, fun ht y hy hyl hys => ?_⟩,
      fun x u js hx hp hl ht y hy hys => ?_⟩
    · rw [reach_of_up hx, dueWork_pass_later hp hl hs ht]
    · rw [reach_of_up hx, dueWork_pass_due hp ht hy hyl hys]
    · rw [reach_of_up hx, dueWork_limits_due hp hl ht hy hys]
  · have off {n : Nat} {k : Slot} (h : d.slotDue k n = false) : ¬d.slotDue k n = true := Bool.eq_false_iff.1 h
    refine ⟨fun h => ?_, fun h => ?_, fun late h => ?_, ?_, fun h => ?_, fun r h => ?_, fun m h => ?_, fun hb ht => ?_,
      fun h => ?_, fun h => ?_, fun late h => ?_, fun h => ?_, fun r h => ?_, fun m h => ?_, fun v h => ?_, fun h => ?_,
      fun k n => slotDue_iff, fun k n => slotDone_not_due k n d⟩
    · exact exec_whenRuns (f := Dev.refineFromSlot) rfl rfl hd hu (if_pos h)
    · exact exec_whenRuns (f := Dev.refineToSlot) rfl rfl hd hu (if_pos h)
    · exact exec_whenRuns (f := Dev.fusionSlot late) rfl rfl hd hu (if_pos h)
    · exact exec_whenRuns (f := Dev.iterationSlot) rfl rfl hd hu rfl
    · exact exec_whenRuns (f := Dev.deadlineSlot) rfl rfl hd hu (if_pos h)
    · exact exec_whenRuns (f := Dev.handoffSlot r) rfl rfl hd hu (if_pos h)
    · exact exec_whenRuns (f := Dev.cutoffSlot m) rfl rfl hd hu (if_pos h)
    · exact exec_whenRuns (f := Dev.tailSlot) rfl rfl hd hu (tailSlot_due hb ht)
    · exact exec_whenRuns (f := Dev.refineFromSlot) rfl rfl hd hu (if_neg (off h))
    · exact exec_whenRuns (f := Dev.refineToSlot) rfl rfl hd hu (if_neg (off h))
    · exact exec_whenRuns (f := Dev.fusionSlot late) rfl rfl hd hu (if_neg (off h))
    · exact exec_whenRuns (f := Dev.deadlineSlot) rfl rfl hd hu (if_neg (off h))
    · exact exec_whenRuns (f := Dev.handoffSlot r) rfl rfl hd hu (if_neg (off h))
    · exact exec_whenRuns (f := Dev.cutoffSlot m) rfl rfl hd hu (if_neg (off h))
    · exact exec_whenRuns (f := Dev.launchSlot v) rfl rfl hd hu (if_neg (off h))
    · exact exec_whenRuns (f := Dev.tailSlot) rfl rfl hd hu (tailSlot_idle h)
  · have run {e : Dev} (he : d.launchSlot served = e) : exec (.launch t served) s = .next (s.left e) :=
      exec_whenRuns rfl rfl hd hu he
    refine ⟨fun hl hc => ?_, fun h => ?_⟩
    · exact run (launchSlot_due hdue ha hb (x := b.mirrorSend) (by rw [hl, hc]; rfl))
    · exact run (launchSlot_due hdue ha hb (x := b.flowStateSend) (by rcases h with h | h <;> simp [h]))

end Sys2Proof.Machine
end

section
/-! PROOFS. The timers of the frame, of the engine, of the plant and of the channel, and the reset state (01, 02). -/

namespace Sys2Proof.Machine

open Sys2Proof

/-! ### Timers of the frame, of time and of the consequence analysis -/

theorem ppsEnd_due {d : Dev} (ho : d.pps.out = true) (h : 1000000 * d.parN 0x20 0x0B ≤ d.time.now - d.pps.roseAt) :
    d.ppsEnd = { d with pps := { d.pps with out := false } }.ppsPin false := by
  simp only [Dev.ppsEnd, ho, h, decide_true, Bool.and_self, if_true]

theorem joyTimeout_due {d : Dev} (hc : d.clasp.role.inControl = true) (hm : d.solveMode.stick = true) (ho : d.solver.stickOut = false)
    (h : 1000000 * d.sPar 0x17 ≤ d.time.now - Nat.max d.solver.joyAt d.time.epoch) :
    d.joyTimeout = Dev.raise 0x070A 1 (Bits.le 4 d.frame.number) { d with
      solver := { d.solver with stick := (0, 0, 0), stickNext := none, stickOut := true } } := by
  have due : (d.clasp.role.inControl && d.solveMode.stick && !d.solver.stickOut &&
      decide (1000000 * d.sPar 0x17 ≤ d.time.now - Nat.max d.solver.joyAt d.time.epoch)) = true := by
    rw [hc, hm, ho, decide_eq_true h]
    rfl
  exact if_pos due

theorem commitResultTimeout_due {d : Dev} {c : Commit} (hc : d.cfg.commit = some c) (hv : c.validated = true) (hp : c.paired = true)
    (hn : c.partner = none) (h : d.frame.nextTick ≤ d.dev + 100000) :
    d.commitResultTimeout = { d with cfg := { d.cfg with commit := some { c with partner := some stTimeout } } } := by
  simp only [Dev.commitResultTimeout, hc, hv, hp, hn, h, Option.isNone_none, decide_true, Bool.and_self, if_true]

theorem cycleOverdue_due {d : Dev} (ha : d.conseq.active = true) (ho : d.conseq.overdue = false)
    (h : 1000000000 * d.cPar 7 < d.time.now - d.conseq.firstRaw) :
    d.cycleOverdue = Dev.raise 0x0805 1
      (Bits.le 4 (Bits.diff32 d.frame.number d.conseq.firstFrame).toNat ++ Bits.le 1 d.conseq.queue.length)
      { d with conseq := { d.conseq with overdue := true } } := by
  have due : (d.conseq.active && !d.conseq.overdue && decide (1000000000 * d.cPar 7 < d.time.now - d.conseq.firstRaw)) = true := by
    rw [ha, ho, decide_eq_true h]
    rfl
  exact if_pos due

theorem resultStale_due {d x : Dev} {g : Nat} (h1 : 1 ≤ g) (h63 : g ≤ 63) (hr : (d.group g).res.result ≠ 0)
    (hs : (d.group g).stale = false) (h : 1000000000 * d.cPar 8 < d.rawT0 - (d.group g).res.startRaw)
    (hx : x = d.modGroup g (fun y => { y with stale := true })) :
    d.resultStale g =
      (x.raiseI 0x0806 1 g (Bits.le 1 g ++ Bits.le 4 (x.ageMs (d.group g).res))).groupPoints g := by
  rw [Dev.resultStale, if_pos ⟨h1, h63, hr, hs, h⟩, hx]

/-- Settles O18: each timer acts by its own lemma once its guard holds. -/
theorem frameAndConsequenceTimersAct : Obligations.FrameAndConsequenceTimersAct := by
  unfold Obligations.FrameAndConsequenceTimersAct
  refine ⟨fun s t d hd hu => ⟨fun ho h => ?_, fun h => ?_, fun hc hm ho h => ?_, fun c hc hv hp hn h => ?_⟩,
    fun s t g n d hd hu => ⟨fun hn ha ho h => ?_, fun h1 h63 hr hs h x hx => ?_⟩⟩
  · exact exec_whenRuns (f := Dev.ppsEnd) rfl rfl hd hu (ppsEnd_due ho h)
  · exact exec_whenRuns (f := Dev.stepWait) rfl rfl hd hu (if_pos (decide_eq_true h))
  · exact exec_whenRuns (f := Dev.joyTimeout) rfl rfl hd hu (joyTimeout_due hc hm ho h)
  · exact exec_whenRuns (f := Dev.commitResultTimeout) rfl rfl hd hu (commitResultTimeout_due hc hv hp hn h)
  · subst hn
    exact exec_whenRuns (f := Dev.cycleOverdue) rfl rfl hd hu (cycleOverdue_due ha ho h)
  · have hw : (Instr.resultStale t g).wf = true := by simp [Instr.wf, h1, Nat.lt_succ_of_le h63]
    exact exec_whenRuns (f := Dev.resultStale g) rfl hw hd hu (resultStale_due h1 h63 hr hs h hx)

/-! ### Timers of the engine and of the plant -/

theorem overrunSlot_late {d : Dev} {i : Nat} {w : PassWait} (hp : d.engine.pass = some w) (ht : w.due ≤ d.time.now)
    (hl : ∃ u ∈ d.engine.undo, i ≤ u.loop) : d.overrunSlot i = (d.passOverrun i).passEnd ∧
      d.engine.undo.all (fun u => decide (u.loop < i)) = false := by
  have late : d.engine.undo.all (fun u => decide (u.loop < i)) = false := by
    obtain ⟨u, hu, h⟩ := hl
    exact List.all_eq_false.2 ⟨u, hu, by simpa using h⟩
  refine ⟨?_, late⟩
  simp only [Dev.overrunSlot, hp, late, ht, Bool.not_false, and_self, if_true]

theorem passOverrun_late {d a b c : Dev} {i : Nat} (hl : d.engine.undo.all (fun u => decide (u.loop < i)) = false)
    (ha : a = (d.engine.undo.filter (fun u => decide (i ≤ u.loop))).foldl (fun x u =>
      u.secs.foldl (fun y z => y.setSec z.1 z.2) (x.setLoop u.loop u.st)) d)
    (hb : b = { a with
      frame := { a.frame with overruns := d.frame.overruns + 1 },
      engine := { a.engine with
        overrun := true, undo := [], events := a.engine.events.filter (fun e => decide (e.loop < i)),
        pass := a.engine.pass.map (fun p => { p with loops := p.loops.filter (fun k => decide (k < i)) }) } })
    (hc : c = b.raise 0x0106 3 (Bits.le 4 b.frame.number ++ Bits.le 1 b.frame.sub ++ Bits.le 2 i)) :
    d.passOverrun i = if d.frame.overruns = 2 then c.raise 0x010A 4 (Bits.le 4 c.frame.number) else c := by
  rw [Dev.passOverrun, if_neg (Bool.eq_false_iff.1 hl)]
  dsimp only
  have number : a.frame.number = b.frame.number := by rw [hb]
  have sub : a.frame.sub = b.frame.sub := by rw [hb]
  rw [← ha, ← hb, number, sub, ← hc]
  simp only [Nat.reduceEqDiff]

theorem clampedLong_due {d : Dev} {i : Nat} (he : (d.loop i).enabled = true) (hr : 1000 ≤ (d.loop i).clampRun)
    (hn : (d.loop i).clampRaised = false) :
    d.clampedLong i = (d.setLoop i { d.loop i with clampRaised := true }).raiseI 0x0904 0 i
      (Bits.le 2 i ++ Bits.le 1 (Bits.b2n (d.loop i).hiClamp)) := by
  simp only [Dev.clampedLong, he, hr, hn, decide_true, Bool.not_false, Bool.and_self, if_true]

theorem releaseHold_due {d : Dev} {i h : Nat} (hh : (d.pisl i).hold = some h) (hr : d.plant.running = true)
    (hs : (d.pisl i).state = .phaseBack) (ht : 1000000 * d.parN 0x1C 8 ≤ d.time.now - h) :
    d.releaseHold i = (d.modIsl i (fun y => { y with state := .releasing, hold := none })).raiseI
      0x0A03 0 i (Bits.le 1 i ++ Bits.le 4 ((d.time.now - (d.pisl i).since) / 1000000)) := by
  simp only [Dev.releaseHold, hh, hr, hs, ht, and_self, if_true]

theorem pmsFallback_due {d : Dev} {i g h : Nat} (hr : d.plant.running = true) (hm : (d.pisl i).members ≠ 0)
    (hf : (d.pisl i).fallback = false) (hg : g ∈ d.islGens i) (hb : some h ∈ (d.gen g).bad)
    (ht : 1000000 * d.parN 0x1C 0xD ≤ d.time.now - h) :
    d.pmsFallback i = (d.modIsl i (fun y => { y with fallback := true })).raiseI 0x0A06 2 i (Bits.le 1 i) := by
  rw [Dev.pmsFallback, if_pos]
  simp only [Bool.and_eq_true, Bool.not_eq_true', bne_iff_ne]
  exact ⟨⟨⟨hr, hm⟩, hf⟩, List.any_eq_true.2 ⟨g, hg, List.any_eq_true.2 ⟨some h, hb, decide_eq_true ht⟩⟩⟩

/-- Settles O19: an overrun puts back the loops from the first unfinished one on, and each timer acts once its guard holds. -/
theorem engineAndPlantTimersAct : Obligations.EngineAndPlantTimersAct := by
  unfold Obligations.EngineAndPlantTimersAct
  intro s t i d hd hu
  refine ⟨fun d a b c w hd hu hi hp ht hl ha hb hc => ?_, fun hi he hr hn => ?_, fun h hi hh hr hs ht => ?_,
    fun g h hi hr hm hf hg hb ht => ?_⟩
  · obtain ⟨slot, late⟩ := overrunSlot_late hp ht hl
    rw [exec_passOverrun hi hd hu slot, passOverrun_late late ha hb hc]
  · exact exec_whenRuns (i := .outputClampedLong t i) rfl (decide_eq_true hi) hd hu (clampedLong_due he hr hn)
  · exact exec_whenRuns (i := .releaseHoldExpiry t i) rfl (decide_eq_true hi) hd hu (releaseHold_due hh hr hs ht)
  · exact exec_whenRuns (i := .pmsFallback t i) rfl (decide_eq_true hi) hd hu (pmsFallback_due hr hm hf hg hb ht)

/-! ### Limits of the channel and idle queues -/

theorem eraseDone_cons {d x : Dev} {e : Erase} {m : List Erase} (he : d.life.erase = e :: m)
    (hx : x = (d.modLife (fun l => { l with erase := m })).modImg e.image (flashWrite e.offset e.data)) :
    d.eraseDone = match e.tag with | some g => x.finish g { status := stOk } | none => x := by
  cases ht : e.tag with
  | none => simp only [Dev.eraseDone, he, ht, hx]
  | some g => simp only [Dev.eraseDone, he, ht, hx]

theorem requestTimeout_overdue {d x y : Dev} {tag : BitVec 6} {p q : Pend} (hp : d.pend tag = some p) (ho : d.overdue p = true)
    (hx : x = ((((((d.flowOpenStop tag).modeStop tag).canSendStop tag).canRecoverStop tag).launchDiscard
      (fun e => e.tag == some tag)).orphanWork tag))
    (hy : y = { x with time := { x.time with steps := x.time.steps.filter (fun q => q.tag != tag) } })
    (hq : y.pend tag = some q) (hn : q.done = none) :
    d.requestTimeout tag = if q.members.isEmpty then y.finish tag { status := stTimeout }
      else y.finishFan tag q.op (if q.op = 0x68 then 1 else 2) (q.members.map (fun m => (m.1, m.2.getD stTimeout))) := by
  simp only [Dev.requestTimeout, hp, ho, Bool.not_true, Bool.false_eq_true, if_false, ← hx, ← hy, hq, hn, Option.isSome_none]

theorem requestTimeout_early {d : Dev} {tag : BitVec 6} {p : Pend} (hp : d.pend tag = some p) (ho : d.overdue p = false) :
    d.requestTimeout tag = d := by
  simp only [Dev.requestTimeout, hp, ho, Bool.not_false, if_true]

theorem stageTimeout_due {d x : Dev} {o : Source} {ks : List Nat} (ho : d.cfg.owner = some o) (hc : d.commitPending = false)
    (h : 1000000000 * d.parN 1 0x2A ≤ d.time.now - d.cfg.lastUse) (hk : ks = d.cfg.staged.map Prod.fst) (hx : x = d.unstage ks) :
    d.stageTimeout = Dev.raise 0x0207 0 (Bits.le 1 (trCode o.tr) ++ Bits.le 2 ks.length ++ Bits.le 1 1)
      { x with cfg := { x.cfg with owner := none } } := by
  simp only [Dev.stageTimeout, Dev.abandonStage, ho, hc, h, Option.isSome_some, Bool.not_false, decide_true, Bool.and_self, if_true,
    ← hk, ← hx]

theorem queueIdle_due {d x : Dev} {q : Nat} (h : d.idleDue q = true)
    (hx : x = (d.setQ q { d.q q with noticed := true }).raiseI 0x0109 0 q (Bits.le 1 q ++ Bits.le 2 (d.q q).held)) :
    d.queueIdle q =
      if q = 1 ∨ (0x0C ≤ q ∧ q ≤ 0x1B) then x.irq 1
      else if q = 2 then { x with locket := { x.locket with broughtForward := true } }
      else if 4 ≤ q ∧ q ≤ 0x0B then x.canFill (q - 4)
      else if 0x1C ≤ q then (Bits.upTo 16).foldl (fun y k => y.chainRun y.dev (16 * (q - 0x1C) + k)) (x.fifoRead (q - 0x1C))
      else x := by
  rw [Dev.queueIdle, if_neg (by rw [h]; decide), hx]

theorem queueIdle_early {d : Dev} {q : Nat} (h : d.idleDue q = false) : d.queueIdle q = d :=
  if_pos (by rw [h]; rfl)

/-- Settles O22: the limits by their own lemmas, an idle queue by the range its ID lies in. -/
theorem limitsAndIdleTimesAct : Obligations.LimitsAndIdleTimesAct := by
  unfold Obligations.LimitsAndIdleTimesAct
  refine ⟨fun s t d hd hr => ⟨fun e m x he hx => ?_, fun tag p x hp ho hx y hy q hq hn => ?_, fun tag p hp ho => ?_,
    fun o hi ho hc h x ks hk hx => ?_⟩, fun s t q d hd hu hq => ⟨fun x hdue hx => ?_, fun h => ?_, ?_⟩⟩
  · exact exec_whenPowered (f := Dev.eraseDone) rfl rfl hd hr (eraseDone_cons he hx)
  · exact exec_whenPowered (f := Dev.requestTimeout tag) rfl rfl hd hr (requestTimeout_overdue hp ho hx hy hq hn)
  · exact exec_whenPowered (f := Dev.requestTimeout tag) rfl rfl hd hr (requestTimeout_early hp ho)
  · have hu : d.up = true := by rw [Dev.up, hr, hi]; rfl
    exact exec_whenRuns (f := Dev.stageTimeout) rfl rfl hd hu (stageTimeout_due ho hc h hk hx)
  · have run {e : Dev} (he : d.queueIdle q = e) : exec (.queueIdle t q) s = .next (s.left e) :=
      exec_whenRuns (i := .queueIdle t q) rfl (decide_eq_true hq) hd hu he
    have act := queueIdle_due hdue hx
    refine ⟨fun h => run ?_, fun h => run ?_, fun h => run ?_, fun h => run ?_, fun h => run ?_⟩
    · rw [act, if_pos h]
    · rw [act, if_neg (by omega), if_pos h]
    · rw [act, if_neg (by omega), if_neg (by omega), if_pos h]
    · rw [act, if_neg (by omega), if_neg (by omega), if_neg (by omega), if_pos h]
    · rw [act, if_neg (by omega), if_neg (by omega), if_neg (by omega), if_neg (by omega)]
  · exact exec_whenRuns (i := .queueIdle t q) rfl (decide_eq_true hq) hd hu (queueIdle_early h)
  · exact exec_whenRuns (f := Dev.replyOnSpace) rfl rfl hd hu rfl

/-! ### The reset state -/

/-- Settles O52, by computation; the stored life-cycle state rests on the CRC of its copy (R483). -/
theorem resetLeavesTheFactoryModule : Obligations.ResetLeavesTheFactoryModule := by
  unfold Obligations.ResetLeavesTheFactoryModule
  have stored : State.reset.dev.storedLife = .commission := by decide +kernel
  have off (n : Nat) : State.reset.dev.safeOut n = {} := by
    show (List.replicate 16 ({} : SafeOut)).getD n {} = {}
    rw [List.getD_eq_getElem?_getD, List.getElem?_replicate]
    split <;> rfl
  refine ⟨rfl, rfl, rfl, stored, rfl, rfl, rfl, rfl, rfl, rfl, rfl, fun n => ?_, fun h => ?_⟩
  · rw [off]
    decide
  · rw [stored] at h
    exact absurd h (by decide)

end Sys2Proof.Machine
end

section
/-! PROOFS. What a tick makes of the frame and of device time (01 R10, R28). -/

namespace Sys2Proof.Machine

open Sys2Proof

/-! ### Raising events below CRITICAL -/

theorem queueEventSev_ne_critical (code : Nat) : queueEventSev code ≠ 4 := by
  unfold queueEventSev
  split <;> decide

theorem recorded_foldl {β : Type} {f : Dev → β → Dev} (h : ∀ (x : Dev) b, x.recorded (f x b)) (l : List β) (d : Dev) :
    d.recorded (l.foldl f d) := by
  induction l generalizing d with
  | nil => exact recorded_refl d
  | cons b l ih => exact recorded_trans (h d b) (ih _)

theorem probes_recorded (l : List Probe) (d : Dev) : d.recorded { d with probes := l } := rfl

/-- An event below CRITICAL changes the recorders alone, with the queue events it sets off. -/
theorem raiseN_recorded (fuel kind code : Nat) {sev : Nat} (h : sev ≠ 4) (inst : Nat) (data : List Byte) (d : Dev) :
    d.recorded (d.raiseN fuel kind code sev inst data) := by
  induction fuel generalizing kind code sev inst data d with
  | zero => exact recorded_refl d
  | succ fuel ih =>
    have taken := locketTake_recorded (d.record kind code sev inst data) d
    have entered := faultTake_recorded code (d.record kind code sev inst data).source sev
      (d.locketTake (d.record kind code sev inst data)).1
    have events (ev : List (Nat × Nat)) (x : Dev) := recorded_foldl
      (f := fun x (e : Nat × Nat) => Dev.raiseN fuel 0 e.1 (queueEventSev e.1) e.2 (Bits.le 1 e.2) x)
      (fun x e => ih 0 e.1 (queueEventSev_ne_critical e.1) e.2 (Bits.le 1 e.2) x) ev x
    rw [Dev.raiseN.eq_def]
    dsimp only
    rw [if_neg (by simp [h])]
    exact recorded_trans taken (recorded_trans entered (recorded_trans (events _ _) (probes_recorded _ _)))

theorem raiseI_recorded (code : Nat) {sev : Nat} (h : sev ≠ 4) (inst : Nat) (data : List Byte) (d : Dev) :
    d.recorded (d.raiseI code sev inst data) := raiseN_recorded 4 0 code h inst data d

theorem raise_recorded (code : Nat) {sev : Nat} (h : sev ≠ 4) (data : List Byte) (d : Dev) :
    d.recorded (d.raise code sev data) := raiseI_recorded code h 0 data d

theorem raiseQ_recorded (ev : List (Nat × Nat)) (d : Dev) : d.recorded (d.raiseQ ev) :=
  recorded_foldl (f := fun x (e : Nat × Nat) => x.raiseI e.1 (queueEventSev e.1) e.2 (Bits.le 1 e.2))
    (fun x e => raiseI_recorded e.1 (queueEventSev_ne_critical e.1) e.2 (Bits.le 1 e.2) x) ev d

/-! ### What moves neither the frame nor device time -/

/-- e shows the frame, the instant and the device time that d shows, and the same TIME_STEPs wait. -/
structure Dev.Clocked (d e : Dev) : Prop where
  frame : e.frame = d.frame
  now : e.time.now = d.time.now
  epoch : e.time.epoch = d.time.epoch
  steps : e.time.steps = d.time.steps
  dev : e.devAtI d.c = d.devAtI d.c

theorem clocked_trans {a b c : Dev} (h : a.Clocked b) (k : b.Clocked c) : a.Clocked c := by
  have same : b.c = a.c := by rw [Dev.c, Dev.c, h.now, h.epoch]
  exact ⟨k.frame.trans h.frame, k.now.trans h.now, k.epoch.trans h.epoch, k.steps.trans h.steps,
    by rw [← h.dev, ← same, k.dev]⟩

theorem clocked_of_time {d e : Dev} (hf : e.frame = d.frame) (ht : e.time = d.time) : d.Clocked e :=
  ⟨hf, by rw [ht], by rw [ht], by rw [ht], by rw [Dev.devAtI, ht]; rfl⟩

theorem reanchored_devAt (d : Dev) (r : Int) :
   ({ d.reanchor with time := { d.reanchor.time with rho := r } } : Dev).devAtI d.c = d.devAtI d.c := by
  simp only [Dev.devAtI, Dev.reanchor, Int.sub_self, Int.mul_zero, Int.add_zero]
  generalize d.time.rho * ((d.c : Int) - (d.time.anchor : Int)) = x
  omega

theorem clocked_refl (d : Dev) : d.Clocked d := clocked_of_time rfl rfl

theorem clocked_of_recorded {d e : Dev} (h : d.recorded e) : d.Clocked e := by
  obtain ⟨time, frame, _⟩ := recorded_keeps h
  exact clocked_of_time frame time

theorem clocked_foldl {β : Type} {f : Dev → β → Dev} (h : ∀ (x : Dev) b, x.Clocked (f x b)) (l : List β) (d : Dev) :
    d.Clocked (l.foldl f d) := by
  induction l generalizing d with
  | nil => exact clocked_refl d
  | cons b l ih => exact clocked_trans (h d b) (ih _)

theorem raise_clocked (code : Nat) {sev : Nat} (h : sev ≠ 4) (data : List Byte) (d : Dev) : d.Clocked (d.raise code sev data) :=
  clocked_of_recorded (raise_recorded code h data d)

theorem setRate_clocked (f s : Int) (d : Dev) : d.Clocked (d.setRate f s) := by
  unfold Dev.setRate
  dsimp only
  split
  · next h => exact ⟨rfl, rfl, rfl, rfl, by simp only [Dev.devAtI, h]⟩
  · exact ⟨rfl, rfl, rfl, rfl, reanchored_devAt d _⟩

theorem follow_clocked (source : Nat) (stepped : Bool) (d : Dev) : d.Clocked (d.follow source stepped) := by
  unfold Dev.follow
  extract_lets th a old changed st _ d1 d2 _ d3 _ d4
  have h1 : d.Clocked d1 := ⟨rfl, rfl, rfl, rfl, rfl⟩
  have h2 : d1.Clocked d2 := by
    unfold d2
    split
    · exact raise_clocked _ (by decide) _ _
    · exact clocked_refl _
  have h3 : d2.Clocked d3 := by
    unfold d3
    split
    · refine clocked_trans ?_ (raise_clocked _ (by decide) _ _)
      exact ⟨rfl, rfl, rfl, rfl, rfl⟩
    · exact clocked_refl _
  have h4 : d3.Clocked d4 := by
    unfold d4
    split
    · refine clocked_trans ?_ (raise_clocked _ (by decide) _ _)
      exact ⟨rfl, rfl, rfl, rfl, rfl⟩
    · exact clocked_refl _
  have steered : d.Clocked d4 := clocked_trans h1 (clocked_trans h2 (clocked_trans h3 h4))
  split
  · split
    · exact clocked_trans steered (setRate_clocked _ _ _)
    · exact clocked_trans steered (setRate_clocked _ _ _)
  · exact clocked_trans steered (setRate_clocked _ _ _)

theorem dropContents_clocked (id : Nat) (d : Dev) : d.Clocked (d.dropContents id) := by
  unfold Dev.dropContents
  repeat' split
  all_goals exact clocked_of_time rfl rfl

theorem qDrop_clocked (id n : Nat) (d : Dev) : d.Clocked (d.qDrop id n).1 := by
  have checked : d.Clocked (d.qCheck id).1 := by
    unfold Dev.qCheck
    split
    · exact clocked_refl d
    · exact clocked_trans (dropContents_clocked id d) (clocked_of_time rfl rfl)
  exact clocked_trans checked (clocked_of_time rfl rfl)

theorem member_clocked (tag : BitVec 6) (kind m : Nat) (st : Half) (d : Dev) : d.Clocked (d.member tag kind m st) := by
  unfold Dev.member
  extract_lets d1
  have h1 : d.Clocked d1 := clocked_of_time rfl rfl
  split
  · exact h1
  · split
    · exact h1
    · refine clocked_trans h1 ?_
      unfold Dev.finishFan
      extract_lets f d2
      have h2 : d1.Clocked d2 := clocked_of_time rfl rfl
      split
      · exact clocked_trans h2 (raise_clocked _ (by decide) _ _)
      · exact h2

theorem launchDiscard_clocked (p : LaunchEnt → Bool) (d : Dev) : d.Clocked (d.launchDiscard p) := by
  refine clocked_foldl (fun x q => ?_) (Bits.upTo 8) d
  dsimp only
  generalize (x.net.launch.getD q []).filter p = l
  have dropped (y : Dev) : y.Clocked (if l.isEmpty then (y, []) else y.qDrop (0x14 + q) l.length).1 := by
    split
    · exact clocked_refl y
    · exact qDrop_clocked _ _ y
  refine clocked_trans ?_ (clocked_foldl (fun y e => ?_) l _)
  · refine clocked_trans (clocked_trans ?_ (dropped _)) (clocked_of_recorded (raiseQ_recorded _ _))
    exact clocked_of_time rfl rfl
  · split
    · exact member_clocked _ _ _ _ y
    · exact clocked_refl y

theorem shiftInstants_clocked (n : Int) (d : Dev) : d.Clocked (d.shiftInstants n) := clocked_of_time rfl rfl

theorem shiftStamps_clocked (n : Int) (d : Dev) : d.Clocked (d.shiftStamps n) := by
  refine clocked_trans (clocked_foldl (fun x i => ?_) _ d) (clocked_of_time rfl rfl)
  unfold Dev.markPt
  split
  all_goals exact clocked_of_time rfl rfl

theorem conseqAbandon_clocked (d : Dev) : d.Clocked d.conseqAbandon := clocked_of_time rfl rfl

theorem traceStep_clocked (d : Dev) : d.Clocked d.traceStep := clocked_of_time rfl rfl

theorem stepEffects_clocked (n : Int) (d : Dev) : d.Clocked (d.stepEffects n) := by
  have shifted := clocked_trans (shiftInstants_clocked n d) (shiftStamps_clocked n _)
  have discarded := clocked_trans shifted (launchDiscard_clocked (fun _ => true) _)
  exact clocked_trans discarded (clocked_trans (conseqAbandon_clocked _) (traceStep_clocked _))

theorem stepFollow_clocked (first : Nat) (d : Dev) : d.Clocked (d.stepFollow first) := by
  unfold Dev.stepFollow
  repeat' split
  · exact follow_clocked first true d
  · exact follow_clocked d.time.source true d
  · exact clocked_refl d

/-- What a step does once its frame is open moves neither the frame nor device time. -/
theorem applyStep_clocked (n : Int) (first : Nat) (d : Dev) : (d.openStepFrame n).Clocked (d.applyStep n first) := by
  unfold Dev.applyStep
  have stepped := clocked_trans (stepEffects_clocked n (d.openStepFrame n)) (clocked_trans (stepFollow_clocked first _)
    (raise_clocked 0x0101 (sev := 0) (by decide) (Bits.leI 8 n) _))
  dsimp only
  split
  · exact stepped
  · exact clocked_trans stepped (raise_clocked _ (by decide) _ _)


theorem finish_clocked (tag : BitVec 6) (f : Fin) (d : Dev) : d.Clocked (d.finish tag f) := clocked_of_time rfl rfl

/-! ### The tick's frame (R10, R28) -/

theorem frameNo_eq (t : Nat) : frameNo t = t * 50 / 1000000000 % 2 ^ 32 := by
  unfold frameNo
  omega

/-- The TIME_STEPs that this tick does not apply, one more chance given to those that came late. -/
def Dev.stepsLeft (d : Dev) : List StepReq :=
  (d.time.steps.filter (fun s => !(s.due (frameNo d.frame.nextTick)))).map (fun s => { s with closed := false })

/-- The module at a tick before a step: the TIME_STEPs due have left. -/
def Dev.beforeStep (d : Dev) : Dev := { d with time := { d.time with steps := d.stepsLeft } }

/-- The source of the first step, 0 where the tick makes none (R328). -/
def Dev.firstAtTick (d : Dev) : Nat := if d.time.state = .unset then d.firstSource else 0

/-- The step of this tick, what each TIME_STEP adds to it, and the module with the refused ones ended. -/
def Dev.joined (d : Dev) : Int × List (BitVec 6 × Int × Bool) × Dev :=
  (d.time.steps.filter (fun s => s.due (frameNo d.frame.nextTick))).foldl (Dev.joinStep (frameNo d.frame.nextTick))
    ((if d.firstAtTick = 0 then 0 else -(d.thetaOf d.firstAtTick)), [], d.beforeStep)

/-- The final replies of the TIME_STEPs that a tick applied (R332). -/
def Dev.answerSteps (l : List (BitVec 6 × Int × Bool)) (d : Dev) : Dev :=
  l.foldl (fun x e => x.finish e.1 { status := stOk, late := e.2.2, payload := Bits.leI 8 e.2.1 ++ Bits.le 4 x.frame.number }) d

theorem stepTick_eq (d : Dev) : d.stepTick =
    if d.firstAtTick = 0 ∧ d.joined.2.1.isEmpty then d.joined.2.2.plainTick
    else (d.joined.2.2.applyStep d.joined.1 d.firstAtTick).answerSteps d.joined.2.1 := rfl


theorem clocked_c {d e : Dev} (h : d.Clocked e) : e.c = d.c := by rw [Dev.c, Dev.c, h.now, h.epoch]

theorem answerSteps_clocked (l : List (BitVec 6 × Int × Bool)) (d : Dev) : d.Clocked (d.answerSteps l) :=
  clocked_foldl (fun x _ => finish_clocked _ _ x) l d

theorem stepTick_plain {d : Dev} (h : d.firstAtTick = 0 ∧ d.joined.2.1.isEmpty) : d.stepTick = d.joined.2.2.plainTick := by
  rw [stepTick_eq, if_pos h]

/-- The tick of a step shows the step frame that it opened. -/
theorem stepTick_step {d : Dev} (h : ¬(d.firstAtTick = 0 ∧ d.joined.2.1.isEmpty)) :
    (d.joined.2.2.openStepFrame d.joined.1).Clocked d.stepTick := by
  rw [stepTick_eq, if_neg h]
  exact clocked_trans (applyStep_clocked _ _ _) (answerSteps_clocked _ _)

/-- A tick that finds no TIME_STEP due, nor a first source, is a regular one. -/
theorem stepTick_regular {d : Dev} (hf : d.firstAtTick = 0) (h : ∀ q ∈ d.time.steps, q.due (frameNo d.frame.nextTick) = false) :
    d.stepTick = d.beforeStep.plainTick := by
  have none_due : d.time.steps.filter (fun s => s.due (frameNo d.frame.nextTick)) = [] :=
    List.filter_eq_nil_iff.2 (fun q hq => by rw [h q hq]; decide)
  have joined : d.joined = (0, [], d.beforeStep) := by rw [Dev.joined, none_due, if_pos hf]; rfl
  rw [stepTick_plain (by rw [joined]; exact ⟨hf, rfl⟩), joined]

/-- What the only TIME_STEP makes of the tick at which it is due. -/
theorem joined_single {d : Dev} {q : StepReq} {n : Int} (hf : d.firstAtTick = 0) (hq : d.time.steps = [q])
    (hd : q.due (frameNo d.frame.nextTick) = true) (hn : q.step = some n) (h0 : 0 ≤ (d.frame.nextTick : Int) + n) :
    d.joined = (n, [(q.tag, n, q.isLate (frameNo d.frame.nextTick))], d.beforeStep) ∧ d.beforeStep.time.steps = [] := by
  have one_due : d.time.steps.filter (fun s => s.due (frameNo d.frame.nextTick)) = [q] := by
    rw [hq, List.filter_cons_of_pos hd, List.filter_nil]
  have fits : ¬(d.frame.nextTick : Int) + n < 0 := Int.not_lt.2 h0
  constructor
  · rw [Dev.joined, one_due, if_pos hf]
    simp [Dev.joinStep, hn, Dev.beforeStep, fits]
  · simp [Dev.beforeStep, Dev.stepsLeft, hq, hd]

theorem openStepFrame_devAt (n : Int) (d : Dev) (c : Nat) : (d.openStepFrame n).devAtI c = d.devAtI c + n := by
  simp only [Dev.devAtI, Dev.openStepFrame, TimeSt.stepBy]
  generalize d.time.rho * ((c : Int) - (d.time.anchor : Int)) = x
  omega

theorem stepBy_nextTick (n : Int) (f : FrameSt) :
    20000000 ≤ (f.stepBy n).nextTick - (f.stepBy n).t0 ∧ (f.stepBy n).nextTick - (f.stepBy n).t0 < 40000000 ∧
      (f.stepBy n).nextTick % 20000000 = 0 := by
  simp only [FrameSt.stepBy]
  omega

/-- A request that has been answered has its final reply. -/
theorem finish_done (tag : BitVec 6) (f : Fin) (d : Dev) : ∀ p ∈ (d.finish tag f).cmd.tags, p.req.tag = tag → p.done ≠ none := by
  intro p hp ht
  obtain ⟨x, _, rfl⟩ := List.mem_map.1 hp
  by_cases h : x.req.tag = tag
  · cases hd : x.done <;> simp [h, hd]
  · exact absurd ht (by simp [h])

/-- Settles O16: a regular tick by the model's equation; a step because what follows its frame's opening moves neither the frame
nor device time (`applyStep_clocked`). -/
theorem tickOpensItsFrame : Obligations.TickOpensItsFrame := by
  unfold Obligations.TickOpensItsFrame
  intro d
  refine ⟨?_, fun hf => ?_⟩
  · by_cases h : d.firstAtTick = 0 ∧ d.joined.2.1.isEmpty
    · rw [stepTick_plain h]
      exact frameNo_eq _
    · rw [(stepTick_step h).frame]
      exact frameNo_eq _
  · have first : d.firstAtTick = 0 := by
      rw [Dev.firstAtTick]
      split
      · next unset => exact hf.resolve_left (fun set => set unset)
      · rfl
    refine ⟨fun x hs hx => ?_, fun x q n hq hd hn h0 hx => ?_⟩
    · rw [hx, stepTick_regular first hs, ← frameNo_eq]
      exact ⟨rfl, rfl⟩
    · obtain ⟨joined, left⟩ := joined_single first hq hd hn h0
      have steps : ¬(d.firstAtTick = 0 ∧ d.joined.2.1.isEmpty) := by simp [joined]
      have stepped := stepTick_step steps
      obtain ⟨h20, h40, whole⟩ := stepBy_nextTick n d.frame
      rw [joined, ← hx] at stepped
      have frame : x.frame = d.frame.stepBy n := stepped.frame
      rw [frame, clocked_c stepped]
      refine ⟨rfl, frameNo_eq _, rfl, h20, h40, whole, ?_, ?_, ?_⟩
      · exact stepped.dev.trans (openStepFrame_devAt n d d.c)
      · rw [stepped.steps]
        show d.beforeStep.time.steps.map _ = []
        rw [left, List.map_nil]
      · rw [hx, stepTick_eq, if_neg steps, joined]
        exact finish_done q.tag _ _

end Sys2Proof.Machine
end

section
/-! PROOFS. Errors in memory: the records of the signal image, the configuration store and the queues (01 R34, 02 R73, 03 R104). -/

namespace Sys2Proof.Machine

open Sys2Proof

/-! ### Records with wrong bits (R104) -/

theorem uncorrectable_zero : uncorrectable 0 = false := by decide

/-- The record that is read where p is stored with the bits m wrong, marked BAD or not. -/
def Point.readAs (bad : Bool) (m : Nat) (p : Point) : Point :=
  if bad || uncorrectable m then { (if m = 0 then p else p.flip m) with quality := 3 } else p

theorem pt_eq (d : Dev) (i : Nat) :
    d.pt i = (Bits.get (fun _ => ({} : Point)) d.image.live i).readAs (d.image.bad.contains i) (d.struckAt i) := rfl

theorem readAs_sound {m : Nat} (p : Point) (h : uncorrectable m = false) : p.readAs false m = p :=
  if_neg (by rw [h]; decide)

theorem pt_of_sound {d : Dev} {i : Nat} (hb : i ∉ d.image.bad) (hu : uncorrectable (d.struckAt i) = false) :
    d.pt i = Bits.get (fun _ => ({} : Point)) d.image.live i := by
  have sound : d.image.bad.contains i = false := by simpa using hb
  rw [pt_eq, sound, readAs_sound _ hu]

theorem readAs_bad {bad : Bool} {m : Nat} (p : Point) (h : bad = true ∨ uncorrectable m = true) :
    p.readAs bad m = { (if m = 0 then p else p.flip m) with quality := 3 } :=
  if_pos (by simpa using h)


/-- Record i with its wrong bits, as a reader gets it where they are too many. -/
def Dev.asStruck (d : Dev) (i : Nat) : Point := (Bits.get (fun _ => ({} : Point)) d.image.live i).flip (d.struckAt i)

/-- The module once record i has no wrong bits left to be found. -/
def Dev.unstruck (i : Nat) (d : Dev) : Dev :=
  { d with image := { d.image with struck := Bits.put (fun _ => 0) d.image.struck i 0 } }

@[simp] theorem unstruck_faults (i : Nat) (d : Dev) : (d.unstruck i).faults = d.faults := rfl
@[simp] theorem unstruck_locket (i : Nat) (d : Dev) : (d.unstruck i).locket = d.locket := rfl
@[simp] theorem unstruck_bad (i : Nat) (d : Dev) : (d.unstruck i).image.bad = d.image.bad := rfl
@[simp] theorem unstruck_live (i : Nat) (d : Dev) : (d.unstruck i).image.live = d.image.live := rfl

/-- The module once p is stored in record i and nothing else of the image has changed. -/
def Dev.stored (i : Nat) (p : Point) (d : Dev) : Dev :=
  { d with image := { d.image with live := Bits.put (fun _ => ({} : Point)) d.image.live i p } }

@[simp] theorem stored_live (i : Nat) (p : Point) (d : Dev) :
    (d.stored i p).image.live = Bits.put (fun _ => ({} : Point)) d.image.live i p := rfl
@[simp] theorem stored_faults (i : Nat) (p : Point) (d : Dev) : (d.stored i p).faults = d.faults := rfl
@[simp] theorem stored_locket (i : Nat) (p : Point) (d : Dev) : (d.stored i p).locket = d.locket := rfl
@[simp] theorem stored_bad (i : Nat) (p : Point) (d : Dev) : (d.stored i p).image.bad = d.image.bad := rfl

theorem imageMeet_clean {d : Dev} {i : Nat} (h : d.struckAt i = 0) : d.imageMeet i = d.unstruck i := by
  rw [Dev.imageMeet, h]
  rfl

theorem imageMeet_corrects {d : Dev} {i : Nat} (h : d.struckAt i ≠ 0) (hb : i ∉ d.image.bad)
    (hu : uncorrectable (d.struckAt i) = false) :
    d.imageMeet i = { d.unstruck i with image := { (d.unstruck i).image with corrected := d.image.corrected + 1 } } := by
  rw [Dev.imageMeet, if_neg h, if_neg (by simp [hb, hu])]
  rfl

theorem imageMeet_bad {d : Dev} {i : Nat} (h : d.struckAt i ≠ 0) (hb : i ∈ d.image.bad) :
    d.imageMeet i = (d.unstruck i).stored i (d.asStruck i) := by
  rw [Dev.imageMeet, if_neg h, if_pos (by simp [hb]), if_pos (by simp [hb])]
  rfl

/-- The module once record i is marked BAD, which the event 0307h follows. -/
def Dev.markedBad (i : Nat) (d : Dev) : Dev := { d with image := { d.image with bad := i :: d.image.bad } }

@[simp] theorem markedBad_live (i : Nat) (d : Dev) : (d.markedBad i).image.live = d.image.live := rfl
@[simp] theorem markedBad_faults (i : Nat) (d : Dev) : (d.markedBad i).faults = d.faults := rfl
@[simp] theorem markedBad_locket (i : Nat) (d : Dev) : (d.markedBad i).locket = d.locket := rfl
@[simp] theorem markedBad_bad (i : Nat) (d : Dev) : (d.markedBad i).image.bad = i :: d.image.bad := rfl

theorem imageMeet_marks {d : Dev} {i : Nat} (h : d.struckAt i ≠ 0) (hb : i ∉ d.image.bad)
    (hu : uncorrectable (d.struckAt i) = true) :
    d.imageMeet i = (((d.unstruck i).stored i (d.asStruck i)).markedBad i).raise 0x0307 3 (Bits.le 4 i) := by
  rw [Dev.imageMeet, if_neg h, if_pos (by simp [hu]), if_neg (by simp [hb])]
  rfl


theorem ne_zero_of_uncorrectable {m : Nat} (h : uncorrectable m = true) : m ≠ 0 := by
  rintro rfl
  rw [uncorrectable_zero] at h
  exact absurd h (by decide)

theorem raise_image (code : Nat) {sev : Nat} (h : sev ≠ 4) (data : List Byte) (d : Dev) : (d.raise code sev data).image = d.image := by
  obtain ⟨_, _, _, image, _⟩ := recorded_keeps (raise_recorded code h data d)
  exact image

section
variable {d : Dev} {i : Nat} (hl : Bits.wfMap (fun _ => ({} : Point)) d.image.live = true)
  (hs : Bits.wfMap (fun _ => 0) d.image.struck = true)

include hs in
theorem unstruck_struckAt (j : Nat) : (d.unstruck i).struckAt j = if j = i then 0 else d.struckAt j :=
  get_put d.image.struck i 0 hs j

/-- A record left without wrong bits, stored so that it reads as before, changes no reading. -/
theorem pt_eq_of_found (e : Dev) (p : Point)
    (live : ∀ j, Bits.get (fun _ => ({} : Point)) e.image.live j = if j = i then p else Bits.get (fun _ => ({} : Point)) d.image.live j)
    (struck : ∀ j, e.struckAt j = if j = i then 0 else d.struckAt j)
    (bad : ∀ j, j ≠ i → e.image.bad.contains j = d.image.bad.contains j)
    (here : p.readAs (e.image.bad.contains i) 0 = d.pt i) (j : Nat) : e.pt j = d.pt j := by
  rw [pt_eq e, live, struck]
  by_cases hj : j = i
  · rw [hj, if_pos rfl, if_pos rfl, here]
  · rw [if_neg hj, if_neg hj, bad j hj, pt_eq d]

include hs in
theorem imageMeet_struckAt (j : Nat) : (d.imageMeet i).struckAt j = if j = i then 0 else d.struckAt j := by
  have keeps : (d.imageMeet i).image.struck = (d.unstruck i).image.struck := by
    by_cases h : d.struckAt i = 0
    · rw [imageMeet_clean h]
    · by_cases hb : i ∈ d.image.bad
      · rw [imageMeet_bad h hb]
        rfl
      · cases hu : uncorrectable (d.struckAt i) with
        | false => rw [imageMeet_corrects h hb hu]
        | true =>
          rw [imageMeet_marks h hb hu, raise_image _ (by decide)]
          rfl
  rw [Dev.struckAt, keeps]
  exact unstruck_struckAt hs j

include hl hs in
theorem imageMeet_pt (j : Nat) : (d.imageMeet i).pt j = d.pt j := by
  have struck := imageMeet_struckAt (i := i) hs
  have same (k : Nat) : Bits.get (fun _ => ({} : Point)) d.image.live k =
      if k = i then Bits.get (fun _ => ({} : Point)) d.image.live i else Bits.get (fun _ => ({} : Point)) d.image.live k := by
    split
    · next h => rw [h]
    · rfl
  by_cases h : d.struckAt i = 0
  · rw [imageMeet_clean h] at struck ⊢
    refine pt_eq_of_found (d.unstruck i) _ same struck (by simp) ?_ j
    rw [pt_eq, h, unstruck_bad]
  · by_cases hb : i ∈ d.image.bad
    · rw [imageMeet_bad h hb] at struck ⊢
      refine pt_eq_of_found _ (d.asStruck i) ?_ struck (by simp) ?_ j
      · intro k
        rw [stored_live, unstruck_live, get_put _ _ _ hl]
      · have marked : d.image.bad.contains i = true := List.contains_iff_mem.2 hb
        rw [pt_eq, stored_bad, unstruck_bad, readAs_bad _ (.inl marked), readAs_bad _ (.inl marked), if_neg h, if_pos rfl]
        rfl
    · cases hu : uncorrectable (d.struckAt i) with
      | false =>
        rw [imageMeet_corrects h hb hu] at struck ⊢
        refine pt_eq_of_found _ (Bits.get (fun _ => ({} : Point)) d.image.live i) ?_ struck (by simp) ?_ j
        · exact same
        · have sound : d.image.bad.contains i = false := by simpa using hb
          rw [pt_of_sound hb hu, unstruck_bad, sound, readAs_sound _ uncorrectable_zero]
      | true =>
        rw [imageMeet_marks h hb hu] at struck ⊢
        have image := raise_image 0x0307 (sev := 3) (by decide) (Bits.le 4 i)
        refine pt_eq_of_found _ (d.asStruck i) ?_ struck (fun k hk => ?_) ?_ j
        · intro k
          rw [image, markedBad_live, stored_live, unstruck_live, get_put _ _ _ hl]
        · rw [image]
          simp [hk]
        · rw [image, markedBad_bad, pt_eq, readAs_bad _ (.inl (by simp)), readAs_bad _ (.inr hu), if_neg h, if_pos rfl]
          rfl
end

/-! ### Queues whose pointers differ (R34) -/

theorem q_setQ {d : Dev} (h : Bits.wfMap (fun _ => ({} : QCtl)) d.cmd.queues = true) (id : Nat) (c : QCtl) (k : Nat) :
    (d.setQ id c).q k = if k = id then c else d.q k := get_put d.cmd.queues id c h k

/-- Of the channel, what a queue loses is not the pointers of any queue. -/
theorem dropContents_queues (id : Nat) (d : Dev) : (d.dropContents id).cmd.queues = d.cmd.queues := by
  unfold Dev.dropContents
  repeat' split
  all_goals rfl

theorem qCheck_differs {d : Dev} {id : Nat} (h : (d.q id).agree = false) :
    d.qCheck id = ((d.dropContents id).setQ id { d.q id with rd := 0, wr := 0, rd2 := 0, wr2 := 0, overrun := true }, [(0x0107, id)]) := by
  rw [Dev.qCheck, if_neg (by rw [h]; decide)]

theorem getD_modAt_of {α : Type} {P : α → Prop} {f : α → α} (hf : ∀ x, P (f x)) {dflt : α} (hd : P dflt) (l : List α) (n : Nat) :
    P ((Bits.modAt l n f).getD n dflt) := by
  induction l generalizing n with
  | nil => simpa [Bits.modAt] using hd
  | cons x xs ih =>
    cases n with
    | zero => exact hf x
    | succ n => simpa [Bits.modAt] using ih n

theorem getD_setAt {α : Type} (dflt : α) (l : List α) (n : Nat) : (Bits.setAt l n dflt).getD n dflt = dflt := by
  induction l generalizing n with
  | nil => simp [Bits.setAt]
  | cons x xs ih =>
    cases n with
    | zero => rfl
    | succ n => simpa [Bits.setAt] using ih n

/-- What a queue whose pointers differ is found as (R34): empty, its pointers zero and its overrun bit set. -/
def Dev.emptied (q : Nat) (d f : Dev) : Prop :=
  f.q q = { d.q q with rd := 0, wr := 0, rd2 := 0, wr2 := 0, overrun := true } ∧ (∀ k, k ≠ q → f.q k = d.q k) ∧
    (q = 0 → f.cmd.tags = d.cmd.tags.map (fun p =>
      if p.started then p else { p with started := true, done := some { status := stTimeout } })) ∧
    (q = 1 → f.cmd.replyQ = []) ∧ (q = 2 → f.locket.front = []) ∧ (q = 3 → f.faults.queue = []) ∧
    (∀ c, c < 8 → q = 4 + c → (f.ctrl c).txq = []) ∧ (∀ c, c < 8 → q = 0x0C + c → (f.ctrl c).rxq = []) ∧
    (∀ l, l < 8 → q = 0x14 + l → f.net.launch.getD l [] = []) ∧ (∀ p, p < 32 → q = 0x1C + p → f.acq.fifos.getD p [] = [])

theorem qCheck_empties {d : Dev} {q : Nat} (hw : Bits.wfMap (fun _ => ({} : QCtl)) d.cmd.queues = true)
    (h : (d.q q).agree = false) : d.emptied q (d.qCheck q).1 := by
  have wf : Bits.wfMap (fun _ => ({} : QCtl)) (d.dropContents q).cmd.queues = true := by rw [dropContents_queues]; exact hw
  have others (k : Nat) : (d.dropContents q).q k = d.q k := by rw [Dev.q, dropContents_queues]; rfl
  rw [qCheck_differs h]
  refine ⟨?_, fun k hk => ?_, ?_, ?_, ?_, ?_, ?_, ?_, ?_, ?_⟩
  · rw [q_setQ wf, if_pos rfl]
  · rw [q_setQ wf, if_neg hk, others]
  · rintro rfl; rfl
  · rintro rfl; rfl
  · rintro rfl; rfl
  · rintro rfl; rfl
  · rintro c hc rfl
    rw [Dev.dropContents, if_neg (by omega), if_neg (by omega), if_neg (by omega), if_neg (by omega), if_pos (by omega),
      Nat.add_sub_cancel_left]
    exact getD_modAt_of (P := fun k : CanCtrl => k.txq = []) (fun _ => rfl) rfl d.can.ctrls c
  · rintro c hc rfl
    rw [Dev.dropContents, if_neg (by omega), if_neg (by omega), if_neg (by omega), if_neg (by omega), if_neg (by omega),
      if_pos (by omega), Nat.add_sub_cancel_left]
    exact getD_modAt_of (P := fun k : CanCtrl => k.rxq = []) (fun _ => rfl) rfl d.can.ctrls c
  · rintro l hl rfl
    rw [Dev.dropContents, if_neg (by omega), if_neg (by omega), if_neg (by omega), if_neg (by omega), if_neg (by omega),
      if_neg (by omega), if_pos (by omega), Nat.add_sub_cancel_left]
    exact getD_setAt [] d.net.launch l
  · rintro p hp rfl
    rw [Dev.dropContents, if_neg (by omega), if_neg (by omega), if_neg (by omega), if_neg (by omega), if_neg (by omega),
      if_neg (by omega), if_neg (by omega), Nat.add_sub_cancel_left]
    exact getD_setAt [] d.acq.fifos p

/-! ### Owners' writes and the store (R73, R104) -/

theorem setPt_bad (i : Nat) (p : Point) (d : Dev) : (d.setPt i p).image.bad = d.image.bad.filter (fun j => j != i) := by
  unfold Dev.setPt Dev.markPt
  dsimp only
  (repeat' split) <;> rfl

theorem setPt_struck (i : Nat) (p : Point) (d : Dev) :
    (d.setPt i p).image.struck = Bits.put (fun _ => 0) d.image.struck i 0 := by
  unfold Dev.setPt Dev.markPt
  dsimp only
  (repeat' split) <;> rfl

/-- The owner's write ends a BAD mark, and with it every wrong bit. -/
theorem setPt_sound (i : Nat) (p : Point) {d : Dev} (hs : Bits.wfMap (fun _ => 0) d.image.struck = true) :
    (d.setPt i p).image.bad.contains i = false ∧ (d.setPt i p).struckAt i = 0 := by
  rw [setPt_bad, Dev.struckAt, setPt_struck, get_put _ _ _ hs, if_pos rfl]
  simp

/-- A store write that fails changes neither the store nor the configuration. -/
theorem storeConfig_noStore {d : Dev} (h : d.hw.noStore = true) :
    d.storeConfig = d.raise 0x0206 3 (Bits.le 4 d.frame.number) ∧ d.storeConfig.nvm = d.nvm ∧ d.storeConfig.cfg = d.cfg := by
  have raised : d.storeConfig = d.raise 0x0206 3 (Bits.le 4 d.frame.number) := if_pos h
  obtain ⟨_, _, cfg, _, _, _, nvm, _⟩ :=
    recorded_keeps (raise_recorded 0x0206 (sev := 3) (by decide) (Bits.le 4 d.frame.number) d)
  rw [raised]
  exact ⟨rfl, nvm, cfg⟩

/-- Settles O57: what a reader that meets a record makes of it, case by case (`imageMeet_pt`), and what an access to a queue
finds (`qCheck_empties`). -/
theorem memoryErrorsAreHeldBad : Obligations.MemoryErrorsAreHeldBad := by
  unfold Obligations.MemoryErrorsAreHeldBad
  intro d e i hl hs he
  subst he
  refine ⟨pt_of_sound, fun h => ?_, imageMeet_pt hl hs, ?_, fun hb hu => ?_, fun hb hu => ?_, fun hb => ?_,
    fun p => setPt_sound i p hs, storeConfig_noStore, fun q f hw h hf => ?_⟩
  · have marked : d.image.bad.contains i = true ∨ uncorrectable (d.struckAt i) = true := by simpa using h
    rw [pt_eq, readAs_bad _ marked]
  · rw [imageMeet_struckAt hs, if_pos rfl]
  · by_cases h : d.struckAt i = 0
    · rw [imageMeet_clean h, if_pos h]
      exact ⟨rfl, rfl, rfl⟩
    · rw [imageMeet_corrects h hb hu, if_neg h]
      exact ⟨rfl, rfl, rfl⟩
  · refine ⟨_, imageMeet_marks (ne_zero_of_uncorrectable hu) hb hu, ?_, ?_, ?_⟩
    all_goals simp
  · by_cases h : d.struckAt i = 0
    · simp [imageMeet_clean h]
    · simp [imageMeet_bad h hb]
  · have events : (d.qCheck q).2 = [(0x0107, q)] := by rw [qCheck_differs h]
    exact ⟨events, hf ▸ qCheck_empties hw h⟩

end Sys2Proof.Machine
end

section
/-! PROOFS. STATUS_READ (01 R33). -/

namespace Sys2Proof.Machine

open Sys2Proof

/-! ### Sparse maps whose values are all changed -/

theorem mapV_keys_above {α : Type} [DecidableEq α] {dflt : Nat → α} {f : α → α} {k : Nat} {m : List (Nat × α)}
    (h : ∀ p ∈ m, k < p.1) : ∀ p ∈ Bits.mapV dflt f m, k < p.1 := by
  intro p hp
  obtain ⟨x, hx, rfl⟩ := List.mem_map.1 (List.mem_filter.1 hp).1
  exact h x hx

/-- In canonical form, values changed so that a default stays one read as changed. -/
theorem get_mapV {α : Type} [DecidableEq α] {dflt : Nat → α} {f : α → α} (hf : ∀ k, f (dflt k) = dflt k) {m : List (Nat × α)}
    (h : Bits.wfMap dflt m = true) (k : Nat) : Bits.get dflt (Bits.mapV dflt f m) k = f (Bits.get dflt m k) := by
  induction m with
  | nil => exact (hf k).symm
  | cons p m ih =>
    obtain ⟨j, v⟩ := p
    obtain ⟨_, above, rest⟩ := wfMap_cons.1 h
    have below (hk : k ≤ j) : Bits.get dflt (Bits.mapV dflt f m) k = dflt k :=
      get_below (fun p hp => Nat.lt_of_le_of_lt hk (mapV_keys_above above p hp))
    by_cases hv : f v = dflt j
    · have gone : Bits.mapV dflt f ((j, v) :: m) = Bits.mapV dflt f m := by simp [Bits.mapV, hv]
      rw [gone, Bits.get]
      split
      · next hj => rw [below (Nat.le_of_eq hj.symm), hv, hj]
      · split
        · next hk => rw [below (Nat.le_of_lt hk), hf]
        · exact ih rest
    · have kept : Bits.mapV dflt f ((j, v) :: m) = (j, f v) :: Bits.mapV dflt f m := by simp [Bits.mapV, hv]
      rw [kept, Bits.get, Bits.get, ih rest]
      repeat' split
      · rfl
      · exact (hf k).symm
      · rfl

/-- The canonical form is kept where every value is changed. -/
theorem wf_mapV {α : Type} [DecidableEq α] {dflt : Nat → α} {f : α → α} {m : List (Nat × α)} (h : Bits.wfMap dflt m = true) :
    Bits.wfMap dflt (Bits.mapV dflt f m) = true := by
  induction m with
  | nil => rfl
  | cons p m ih =>
    obtain ⟨j, v⟩ := p
    obtain ⟨_, above, rest⟩ := wfMap_cons.1 h
    by_cases hv : f v = dflt j
    · have gone : Bits.mapV dflt f ((j, v) :: m) = Bits.mapV dflt f m := by simp [Bits.mapV, hv]
      rw [gone]
      exact ih rest
    · have kept : Bits.mapV dflt f ((j, v) :: m) = (j, f v) :: Bits.mapV dflt f m := by simp [Bits.mapV, hv]
      rw [kept]
      exact wfMap_cons.2 ⟨hv, mapV_keys_above above, ih rest⟩

/-! ### The queues while a request is served -/

/-- The words of the queues are in canonical form. -/
def Dev.queuesWf (d : Dev) : Prop := Bits.wfMap (fun _ => ({} : QCtl)) d.cmd.queues = true

theorem setQ_queuesWf {d : Dev} (h : d.queuesWf) (id : Nat) (c : QCtl) : (d.setQ id c).queuesWf := wf_put _ _ _ h

theorem modPend_queuesWf {d : Dev} (h : d.queuesWf) (tag : BitVec 6) (f : Pend → Pend) : (d.modPend tag f).queuesWf := h

theorem begun_queuesWf {op : Byte} {r : Req} {d : Dev} (hi : d.idle = true) (h : d.queuesWf) : (d.begun op r).queuesWf := by
  have agree : ((d.taken op r).q 0).agree = true := by
    obtain ⟨hq, _⟩ := idle_q d hi
    rw [taken_q0 op r d hi]
    simp only [QCtl.agree, Bool.and_eq_true, beq_iff_eq] at hq ⊢
    simp [hq]
  have heard : ((d.touched r).stageHeard op r).queuesWf := by rw [Dev.queuesWf, heard_cmd, touched_queues]; exact h
  have taken : (d.taken op r).queuesWf := by
    rw [taken_eq op r d hi]
    exact setQ_queuesWf heard 0 _
  have begun : d.begun op r = Dev.modPend r.tag (fun x => { x with started := true, resources := d.resourcesOf op.toNat r })
    ((d.taken op r).qRead 0 1).1 := rfl
  rw [begun, qRead_ok 0 1 _ agree]
  exact modPend_queuesWf (setQ_queuesWf taken 0 _) _ _

theorem clearOverruns_q {d : Dev} (h : d.queuesWf) (id : Nat) : d.clearOverruns.q id = { d.q id with overrun := false } :=
  get_mapV (f := fun c : QCtl => { c with overrun := false }) (fun _ => rfl) h id

theorem clearOverruns_queuesWf {d : Dev} (h : d.queuesWf) : d.clearOverruns.queuesWf :=
  wf_mapV (f := fun c : QCtl => { c with overrun := false }) h

/-- The delivery of the one reply that waits sets no overrun bit. -/
theorem deliver_one_overrun {rep : Reply} {d : Dev} (hr : d.cmd.replyQ = [rep]) (ha : (d.q 1).agree = true)
    (hd : d.transportDown rep.src.tr = false) (hw : d.queuesWf) (id : Nat) : (d.deliver.q id).overrun = (d.q id).overrun := by
  have all : d.deliver = Dev.deliverAll [rep] [] d := by
    rw [Dev.deliver, if_neg (by rw [hr]; exact Bool.false_ne_true), Dev.qCheck, if_pos ha, ← hr]
    rfl
  have first : ¬(([] : List Reply).any (fun k => k.src.tr == rep.src.tr)) = true := Bool.false_ne_true
  rw [all, Dev.deliverAll, if_neg first]
  rcases deliverOne_ok rep d hd with ⟨stays, _⟩ | ⟨gone, _, _, _, queues, _, _⟩
  · rw [stays]
    rfl
  · have same (k : Nat) : (d.deliverOne rep).2.q k = d.q k := by rw [Dev.q, queues]; rfl
    have wf : (d.deliverOne rep).2.queuesWf := by rw [Dev.queuesWf, queues]; exact hw
    dsimp only
    rw [if_pos gone, qRead_ok 1 1 _ (by rw [same]; exact ha)]
    show ((Dev.setQ 1 _ (d.deliverOne rep).2).q id).overrun = _
    rw [q_setQ wf]
    split
    · next h => rw [h, same]
    · rw [same]

/-- The reply of an operation that has ended its request, and its delivery, set no overrun bit. -/
theorem finish_all_overrun {op : Byte} {r : Req} {n : Nat} {d : Dev} {f : Fin} {u : List Resource}
    (ht : d.cmd.tags = [{ op := op, req := r, started := true, resources := u, done := some f }])
    (hh : d.cmd.held = []) (hr : d.cmd.replyQ = []) (ha : (d.q 1).agree = true) (he : (d.q 1).held = 0)
    (hd : d.transportDown r.src.tr = false) (hw : d.queuesWf) (id : Nat) :
    ((Dev.unhold 64 (Dev.pump (n + 1) d).deliver).deliver.q id).overrun = (d.q id).overrun := by
  have pumped := pump_fin op r n d f u ht hh hr ha he
  generalize Dev.pump (n + 1) d = g at pumped ⊢
  have q (k : Nat) : g.q k = if k = 1 then { d.q 1 with
      wr := (d.q 1).wr + 1, wr2 := (d.q 1).wr + 1, lastNonEmpty := d.time.now } else d.q k := by
    rw [pumped]
    exact q_setQ hw 1 _ k
  have overrun : (g.q id).overrun = (d.q id).overrun := by
    rw [q]
    split
    · next h => rw [h]
    · rfl
  have agree : (g.q 1).agree = true := by
    simp only [q, QCtl.agree, Bool.and_eq_true, beq_iff_eq] at ha ⊢
    simp [ha]
  have wf : g.queuesWf := by
    rw [pumped]
    exact setQ_queuesWf hw 1 _
  have waits : g.cmd.replyQ = [replyOf op r (finalFlags f) f] := by rw [pumped]
  have held : g.cmd.held = [] := by rw [pumped]; exact hh
  have up : g.transportDown r.src.tr = false := by
    rw [← hd]
    refine transportDown_core _ ?_ ?_ ?_ ?_
    case refine_3 =>
      rw [pumped]
      rfl
    all_goals rw [pumped]
  have delivered := deliver_one_overrun waits agree up wf id
  have again : (Dev.unhold 64 g.deliver).deliver = g.deliver := by
    rcases deliver_one _ g waits agree up with ⟨stays, _⟩ | ⟨_, _, none_held, none_waits, _⟩
    · rw [stays, unhold_nil _ _ held, stays]
    · rw [unhold_nil _ _ (none_held.trans held), deliver_nil _ none_waits]
  rw [again, delivered, overrun]

/-! ### STATUS_READ -/

theorem le_length (n k : Nat) : (Bits.le n k).length = n := by
  induction n generalizing k with
  | zero => rfl
  | succ n ih => rw [Bits.le, List.length_cons, ih]

theorem statusBytes_length (d : Dev) : d.statusBytes.length = 32 := by
  simp [Dev.statusBytes, le_length]

theorem statusRead_runOp {r : Req} (h : r.target = 0) (d : Dev) : d.runOp 0x02 r = reads d.clearOverruns d.statusBytes := by
  have zero : r.tgt = 0 := by rw [Req.tgt, h]; rfl
  simp [Dev.runOp, zero, Dev.runData]

/-- What STATUS_READ leaves of the channel carries its reply. -/
theorem clearOverruns_carries {op : Byte} {r : Req} {u : List Resource} {b : Dev} (h : Carries op r u b) (hw : b.queuesWf) :
    Carries op r u b.clearOverruns :=
  ⟨h.tags, h.held, h.replyQ, by rw [clearOverruns_q hw]; exact h.agree, by rw [clearOverruns_q hw]; exact h.empty,
    by rw [← h.up]; exact transportDown_core _ rfl rfl rfl rfl⟩

/-- What an operation that ends at once leaves behind: its reply has been queued and delivered. -/
theorem exec_of_fin {i : Instr} {op : Byte} {r : Req} {s : State} {t : Nat} (h : exec i s = State.act i t (Dev.requestIn op r) s)
    (hw : i.wf = true) {d x y : Dev} {f : Fin} {u : List Resource} (hd : d = s.dev.reach t) (ha : d.admits op r = true)
    (hx : (d.begun op r).runOp op.toNat r = { dev := x, ans := .fin f }) (hc : Carries op r u x)
    (hy : y = { x with cmd := { x.cmd with
      tags := [{ op := op, req := r, started := true, resources := u, done := some (f.fitted r.src.tr) }] } })
    (hl : (Dev.unhold 64 (Dev.pump 65 y).deliver).deliver.life.activating = none) :
    exec i s = .next { s with dev := (Dev.unhold 64 (Dev.pump 65 y).deliver).deliver } := by
  simp only [Dev.admits, Bool.and_eq_true, Option.isNone_iff_eq_none] at ha
  obtain ⟨⟨⟨⟨hs, hi⟩, hr⟩, hp⟩, hg⟩ := ha
  rw [requestIn_exec i op r s t h hw, ← hd, requestIn_ok op r d hs hi hr hp, Dev.after, taken_ring op r d hi,
    settle_taken op r d hs hi hg, hx, takeAnswer_fin op r { dev := x, ans := .fin f } f rfl u hc.tags, ← hy]
  simp only [hl]

/-- R33, R60: what O6 says holds in every state whose queue words stand in canonical form. -/
theorem statusRead_clears_overruns {s : State} {t : Nat} {r : Req} {d : Dev} (hd : d = s.dev.reach t) (hr : r.wf = true)
    (h0 : r.target = 0) (ha : d.admits 0x02 r = true) (hw : d.queuesWf) :
    ∃ e, exec (.statusRead t r) s = .next { s with dev := e } ∧ e.alike (d.begun 0x02 r) ∧ e.cmd.tags = [] ∧
      e.answered 0x02 r rFinal { status := stOk, payload := (d.begun 0x02 r).statusBytes } ∧
      ∀ id, (e.q id).overrun = false := by
  obtain ⟨hi, hv⟩ := admits_idle ha
  have wf := begun_queuesWf (op := 0x02) (r := r) hi hw
  have carries := clearOverruns_carries (begun_carries 0x02 r d hi hv) wf
  have idle_act := begun_act 0x02 r d hi
  have run := statusRead_runOp h0 (d.begun 0x02 r)
  generalize hb : d.begun 0x02 r = b at wf carries idle_act run ⊢
  obtain ⟨f, hf⟩ : ∃ f : Fin, f = { status := stOk, payload := b.statusBytes } := ⟨_, rfl⟩
  have fits : f.fitted r.src.tr = f := by
    refine if_neg ?_
    rw [hf, statusBytes_length]
    cases r.src.tr <;> decide
  obtain ⟨y, hy⟩ : ∃ y : Dev, y = { b.clearOverruns with cmd := { b.clearOverruns.cmd with
    tags := [{ op := 0x02, req := r, started := true, resources := d.resourcesOf 0x02 r, done := some f }] } } := ⟨_, rfl⟩
  have tags : y.cmd.tags = [{ op := 0x02, req := r, started := true, resources := d.resourcesOf 0x02 r, done := some f }] := by
    rw [hy]
  have cleared (k : Nat) : y.q k = b.clearOverruns.q k := by rw [hy]; rfl
  have held : y.cmd.held = [] := by rw [hy]; exact carries.held
  have waits : y.cmd.replyQ = [] := by rw [hy]; exact carries.replyQ
  have agree : (y.q 1).agree = true := by rw [cleared]; exact carries.agree
  have empty : (y.q 1).held = 0 := by rw [cleared]; exact carries.empty
  have up : y.transportDown r.src.tr = false := by rw [hy]; exact carries.up
  have queues : y.queuesWf := by rw [hy]; exact clearOverruns_queuesWf wf
  have alike_b : y.alike b := by rw [hy]; rfl
  obtain ⟨alike_y, none_left, _, answered, _⟩ := finish_all 0x02 r 64 y f _ tags held waits agree empty up _ rfl
  have alike := alike_trans alike_y alike_b
  refine ⟨_, exec_of_fin (i := .statusRead t r) (y := y) (f := f) (u := d.resourcesOf 0x02 r) (x := b.clearOverruns)
    rfl hr hd ha ?_ carries ?_ ?_, alike, none_left, ?_, fun id => ?_⟩
  · rw [hb, hf]
    exact run
  · rw [fits, hy]
  · rw [(alike_fields alike).1, idle_act]
  · rw [← hf]
    have final : finalFlags f = rFinal := by rw [hf]; rfl
    rw [← final]
    exact answered
  · rw [finish_all_overrun tags held waits agree empty up queues, cleared, clearOverruns_q wf]

/-- A module ready for requests whose queue words stand out of order: the word of queue 1, whose pointers differ, stands behind
that of queue 5, so that it is not read until STATUS_READ clears queue 5's overrun bit and with it that word. -/
def tangled : State :=
  { dev := { State.reset.dev with
      life := { State.reset.dev.life with ready := true }
      cmd := { State.reset.dev.cmd with queues := [(5, { overrun := true }), (1, { rd := 1 })] } },
    pending := [] }

/-- A STATUS_READ on SPI. -/
def statusReadSpi : Req := { src := { tr := .spi }, tag := 1, flags := 0, target := 0, payload := [] }

theorem tangled_admits : (tangled.dev.reach 0).admits 0x02 statusReadSpi = true := by decide +kernel

/-- The reply finds the pointers of its queue apart, which sets that queue's overrun bit (R34). -/
theorem tangled_statusRead : ∀ e, exec (.statusRead 0 statusReadSpi) tangled = .next { tangled with dev := e } →
    (e.q 1).overrun = true := by
  have overrun : (((tangled.dev.reach 0).requestIn 0x02 statusReadSpi).after.q 1).overrun = true := by decide +kernel
  intro e he
  rw [requestIn_exec _ 0x02 statusReadSpi tangled 0 rfl rfl] at he
  injection he with he
  injection he with he
  rw [← he, overrun]

/-- Refutes O6: it is stated of every state, and in one whose queue words are not in canonical form the words behind the one that
STATUS_READ drops come to be read: queue 1's pointers differ, and the reply's access sets its overrun bit. With the canonical form
as a premise it holds (`statusRead_clears_overruns`). -/
theorem not_statusReadClearsOverruns : ¬ Obligations.StatusReadClearsOverruns := by
  unfold Obligations.StatusReadClearsOverruns
  intro h
  obtain ⟨e, he, _, _, _, clear⟩ := h tangled 0 statusReadSpi (tangled.dev.reach 0) rfl rfl rfl tangled_admits
  have set := tangled_statusRead e he
  rw [clear] at set
  exact absurd set (by decide)

end Sys2Proof.Machine
end

section
/-! PROOFS. The signal image reads back what was written (03 R78, R86). -/

namespace Sys2Proof.Machine

open Sys2Proof

theorem setPt_live (i : Nat) (p : Point) (d : Dev) :
    (d.setPt i p).image.live = Bits.put (fun _ => ({} : Point)) d.image.live i p := by
  unfold Dev.setPt Dev.markPt
  dsimp only
  (repeat' split) <;> rfl

theorem setPt_struckAt (i : Nat) (p : Point) {d : Dev} (hs : Bits.wfMap (fun _ => 0) d.image.struck = true) (j : Nat) :
    (d.setPt i p).struckAt j = if j = i then 0 else d.struckAt j := by
  rw [Dev.struckAt, setPt_struck, get_put _ _ _ hs]
  rfl

theorem setPt_pt_same (i : Nat) (p : Point) {d : Dev} (hl : Bits.wfMap (fun _ => ({} : Point)) d.image.live = true)
    (hs : Bits.wfMap (fun _ => 0) d.image.struck = true) : (d.setPt i p).pt i = p := by
  obtain ⟨sound, clean⟩ := setPt_sound i p hs
  have good : i ∉ (d.setPt i p).image.bad := by
    simpa using sound
  rw [pt_of_sound good (by rw [clean, uncorrectable_zero]), setPt_live, get_put _ _ _ hl, if_pos rfl]

theorem setPt_pt_ne {i j : Nat} (h : j ≠ i) (p : Point) {d : Dev} (hl : Bits.wfMap (fun _ => ({} : Point)) d.image.live = true)
    (hs : Bits.wfMap (fun _ => 0) d.image.struck = true) : (d.setPt i p).pt j = d.pt j := by
  have bad : (d.setPt i p).image.bad.contains j = d.image.bad.contains j := by
    rw [setPt_bad, Bool.eq_iff_iff]
    simp [h]
  rw [pt_eq, pt_eq, bad, setPt_struckAt i p hs, if_neg h, setPt_live, get_put _ _ _ hl, if_neg h]

/-- Settles O56: the written point, the other points, and the image's form, each by its own lemma. -/
theorem signalPointsReadBack : Obligations.SignalPointsReadBack := by
  unfold Obligations.SignalPointsReadBack
  intro d i p hl hs
  exact ⟨setPt_pt_same i p hl hs, fun j hj => setPt_pt_ne hj p hl hs, setPt_wf i p d hl⟩

end Sys2Proof.Machine
end

section
/-! PROOFS. Frames of the ring and of the PRP pair, the flows they feed and the flows' time-outs (03 R96, 11 R346 to R348). -/

namespace Sys2Proof.Machine

open Sys2Proof

/-! ### Flow time-outs (R96) -/

theorem flowTimeout_due {d y : Dev} {c : Nat} (hp : Bits.byteAt (d.flow c).payload 0 = 0)
    (hs : (d.flow c).state = 1 ∨ (d.flow c).state = 2)
    (ht : 1000000 * Bits.at' (d.flow c).payload 24 2 ≤ d.boundaryAge (d.flow c).from')
    (hy : y = (ctxPoints (d.flow c).payload).foldl (fun z i => z.flowDegrade (Bits.byteAt (d.flow c).payload 28) i) d) :
    d.flowTimeout c = (y.setFlow c { d.flow c with
      state := 3, staleAt := y.time.now, outages := (d.flow c).outages + 1 }).raiseI 0x0301 1 c (Bits.le 1 c ++ [3]) := by
  rw [Dev.flowTimeout, if_pos ⟨hp, hs, ht⟩, hy]

/-- A context that is already STALE has no TIMEOUT left to pass. -/
theorem flowTimeout_stale {d : Dev} {c : Nat} (hs : (d.flow c).state = 3) : d.flowTimeout c = d :=
  if_neg (by simp [hs])

theorem flowBadAfter_due {d y : Dev} {c : Nat} (hs : (d.flow c).state = 3)
    (ht : 1000000 * Bits.at' (d.flow c).payload 26 2 ≤ d.boundaryAge (d.flow c).from')
    (hy : y = (ctxPoints (d.flow c).payload).foldl (fun z i => z.degrade i 3) d) :
    d.flowBadAfter c = (y.setFlow c { d.flow c with state := 4 }).raiseI 0x0301 1 c (Bits.le 1 c ++ [4]) := by
  rw [Dev.flowBadAfter, flowTimeout_stale hs]
  dsimp only
  rw [if_pos ⟨hs, ht⟩, hy]

/-! ### Reception up to the duplicate discard (R347, R348) -/

/-- A port in use has counted a frame that it received. -/
abbrev Dev.counted (p : Nat) (d : Dev) : Dev := d.modPort p (fun x => { x with rx := x.rx + 1 })

/-- A duplicate has been counted. -/
def Dev.dupCounted (d : Dev) : Dev := { d with net := { d.net with dups := d.net.dups + 1 } }

theorem ethIntake_portDown {d : Dev} {p : Nat} (f : EthFrame) (hu : d.portUp p = false) : d.ethIntake p f = (false, d) :=
  if_pos (by rw [hu]; rfl)

theorem ethIntake_fcsBad {d : Dev} {p : Nat} {f : EthFrame} (hu : d.portUp p = true) (hb : f.fcsBad = true) :
    d.ethIntake p f = (false, d.modPort p (fun x => { x with errs := x.errs + 1 })) := by
  rw [Dev.ethIntake, if_neg (by rw [hu]; decide), if_pos hb]

theorem ethIntake_untagged {d : Dev} {p : Nat} {f : EthFrame} (hu : d.portUp p = true) (hb : f.fcsBad = false) (hr : f.red = none) :
    d.ethIntake p f = (true, d.counted p) := by
  rw [Dev.ethIntake, if_neg (by rw [hu]; decide), if_neg (by rw [hb]; decide), hr]

section
variable {d : Dev} {p : Nat} {f : EthFrame} {r : RedTag} (hu : d.portUp p = true) (hb : f.fcsBad = false) (hr : f.red = some r)
include hu hb hr

theorem ethIntake_ownReturns (hp : p < 2) (hs : f.src = (d.counted p).mac) (ht : f.ethType ≠ 0x88FB) :
    d.ethIntake p f = (false, d.counted p) := by
  rw [Dev.ethIntake, if_neg (by rw [hu]; decide), if_neg (by rw [hb]; decide), hr]
  dsimp only
  rw [if_pos hp, if_pos hs, if_neg ht]

/-- The discard table of the ring judges what has been forwarded; supervision frames go no further than the table. -/
theorem ethIntake_ring (hp : p < 2) {b e : Dev} {u : Bool × List Dup × Bool} (hs : f.src ≠ (d.counted p).mac)
    (hbb : b = ((d.counted p).seeNode f.src).hsrForward p f r.seq) (hv : u = dupTake b.time.now b.ddtForget f.src r.seq b.net.hsr)
    (he : e = Dev.tableFull u.2.2 0 { b with net := { b.net with hsr := u.2.1 } }) :
    d.ethIntake p f = if u.1 then (false, e.dupCounted) else (f.ethType != 0x88FB, e) := by
  rw [Dev.ethIntake, if_neg (by rw [hu]; decide), if_neg (by rw [hb]; decide), hr]
  dsimp only
  rw [if_pos hp, if_neg hs, he, hv, hbb]
  rfl

theorem ethIntake_prp (hp : 2 ≤ p) (hon : d.parB 0x20 0x40 = true) {a e : Dev} {u : Bool × List Dup × Bool} (ha : a = d.counted p)
    (hv : u = dupTake a.time.now a.ddtForget f.src r.seq a.net.prp)
    (he : e = Dev.tableFull u.2.2 1 { a with net := { a.net with prp := u.2.1 } }) :
    d.ethIntake p f = if u.1 then (false, e.dupCounted) else (f.ethType != 0x88FB, e) := by
  have on : (d.counted p).parB 0x20 0x40 = true := hon
  rw [Dev.ethIntake, if_neg (by rw [hu]; decide), if_neg (by rw [hb]; decide), hr]
  dsimp only
  rw [if_neg (Nat.not_lt.2 hp), he, hv, ha]
  exact if_pos on

end

/-! ### The module's own functions (R100, R531) -/

theorem ethReceived_kept {d a : Dev} {p : Nat} {f : EthFrame} (h : d.ethIntake p f = (false, a)) : d.ethReceived p f = a := by
  rw [Dev.ethReceived, h]
  rfl

theorem ethReceived_offered {d a : Dev} {p : Nat} {f : EthFrame} (h : d.ethIntake p f = (true, a)) :
    d.ethReceived p f = a.ownStack p f := by
  rw [Dev.ethReceived, h]
  rfl

theorem ownStack_unlimited {a : Dev} {p : Nat} {f : EthFrame} (h : a.parN 0x20 (0x22 + 8 * p) = 0 ∨ f.dst.testBit 40 = false) :
    a.ownStack p f = a.flowOffer p f := by
  have within : a.storm p f = (true, a) := if_pos h
  rw [Dev.ownStack, within]
  rfl

/-- What a discard table makes of a frame: a duplicate is counted, a supervision frame stays, any other is offered. -/
theorem ethReceived_judged {d e : Dev} {p : Nat} {f : EthFrame} {dup : Bool}
    (h : d.ethIntake p f = if dup then (false, e.dupCounted) else (f.ethType != 0x88FB, e)) :
    (dup = true → d.ethReceived p f = e.dupCounted) ∧
    (dup = false → f.ethType ≠ 0x88FB → d.ethReceived p f = e.ownStack p f) ∧
    (dup = false → f.ethType = 0x88FB → d.ethReceived p f = e) := by
  refine ⟨fun hd => ethReceived_kept ?_, fun hd ht => ethReceived_offered ?_, fun hd ht => ethReceived_kept ?_⟩
  · rw [h, if_pos hd]
  · rw [h, hd, bne_iff_ne.2 ht]
    rfl
  · rw [h, hd, ht]
    rfl

/-! ### Acknowledgements (R346) -/

theorem ackFrame_mine {d a : Dev} {p : Nat} {f : EthFrame} (hi : d.ethIntake p f = (true, a)) (ht : f.ethType = 0x88B5)
    (hd : f.dst = a.mac) : d.ackFrame p f = a.ackBytes f.payload := by
  rw [Dev.ackFrame, hi]
  dsimp only
  rw [if_pos (by rw [ht, hd]; simp)]

theorem ackBytes_sound {a : Dev} {bs : List Byte} {n : Nat} (hn : n = Bits.byteAt bs 3) (hm : Bits.at' bs 0 2 = 0x5D1C)
    (hv : Bits.byteAt bs 2 = 1) (hc : Bits.crc32c (Bits.fit 12 bs) = Bits.wordAt bs 12) (h1 : 1 ≤ n) (h24 : n ≤ 24)
    (hl : 16 + 8 * n ≤ bs.length) :
    a.ackBytes bs = (Bits.upTo n).foldl (fun x i => x.ackEntry (Bits.at' bs 4 4) ((bs.drop (16 + 8 * i)).take 8)) a := by
  subst hn
  refine if_neg ?_
  simp only [hm, hv, hc, bne_self_eq_false, Bool.or_eq_true, decide_eq_true_eq, Bool.false_eq_true, false_or]
  omega

theorem ackBytes_badCrc {a : Dev} {bs : List Byte} (hc : Bits.crc32c (Bits.fit 12 bs) ≠ Bits.wordAt bs 12) : a.ackBytes bs = a :=
  if_pos (by simp [hc])

/-- Settles O26: the time-outs by their own lemmas, a frame by what its intake answers. -/
theorem framesOfTheRingAreJudged : Obligations.FramesOfTheRingAreJudged := by
  unfold Obligations.FramesOfTheRingAreJudged
  have wf {p : Nat} {f : EthFrame} (hp : p < 4) (hf : f.wf = true) : (decide (p < 4) && f.wf) = true := by
    rw [hf, decide_eq_true hp]
    rfl
  refine ⟨fun s t c d hd hu hc => ⟨?_, ?_, ?_, ?_, ?_, fun p f a h => ownStack_unlimited h⟩,
    fun s t p f r d hd hu hp hf hport hb hr => ?_, fun s t p f d a bs hd hu hp hf hi ht hdst hbs => ?_⟩
  · rintro x y rfl h0 hs ht hy
    exact exec_whenRuns (i := .flowTimeout t c) rfl (decide_eq_true hc) hd hu (flowTimeout_due h0 hs ht hy)
  · rintro x y rfl hs ht hy
    exact exec_whenRuns (i := .flowBadAfter t c) rfl (decide_eq_true hc) hd hu (flowBadAfter_due hs ht hy)
  · intro p f hp hf h
    exact exec_whenRuns (i := .ethFrameReceived t p f) rfl (wf hp hf) hd hu (ethReceived_kept (ethIntake_portDown f h))
  · intro p f hp hf h hb
    exact exec_whenRuns (i := .ethFrameReceived t p f) rfl (wf hp hf) hd hu (ethReceived_kept (ethIntake_fcsBad h hb))
  · intro p f hp hf h hb hr
    exact exec_whenRuns (i := .ethFrameReceived t p f) rfl (wf hp hf) hd hu (ethReceived_offered (ethIntake_untagged h hb hr))
  · have run {e : Dev} (he : d.ethReceived p f = e) : exec (.ethFrameReceived t p f) s = .next (s.left e) :=
      exec_whenRuns (i := .ethFrameReceived t p f) rfl (wf hp hf) hd hu he
    refine ⟨fun a u e h2 hon ha hv he => ?_, fun a h2 ha => ⟨fun hs ht => ?_, fun b u e hs hbb hv he => ?_⟩⟩
    · obtain ⟨dup, offered, _⟩ := ethReceived_judged (ethIntake_prp hport hb hr h2 hon ha hv he)
      exact ⟨fun h => run (dup h), fun h ht => run (offered h ht)⟩
    · subst ha
      exact run (ethReceived_kept (ethIntake_ownReturns hport hb hr h2 hs ht))
    · subst ha
      obtain ⟨dup, offered, stays⟩ := ethReceived_judged (ethIntake_ring hport hb hr h2 hs hbb hv he)
      exact ⟨fun h => run (dup h), fun h ht => run (offered h ht), fun h ht => run (stays h ht)⟩
  · have run {e : Dev} (he : a.ackBytes bs = e) : exec (.ackFrameReceived t p f) s = .next (s.left e) :=
      exec_whenRuns (i := .ackFrameReceived t p f) rfl (wf hp hf) hd hu ((ackFrame_mine hi ht hdst).trans (hbs ▸ he))
    exact ⟨fun n hn hm hv hc h1 h24 hl => run (ackBytes_sound hn hm hv hc h1 h24 hl), fun h => run (ackBytes_badCrc h)⟩

end Sys2Proof.Machine
end

section
/-! PROOFS. Lane messages and the heartbeat (03 R103, 13 R377 to R386). -/

namespace Sys2Proof.Machine

open Sys2Proof

/-! ### Messages on the lanes (R377) -/

/-- A lane message of a unit that is ready has its own effect, which leaves it as e. -/
theorem exec_whenReady {i : Instr} {t : Nat} {f : Dev → Dev} {s : State} {d : Dev} (h : exec i s = s.act i t (Dev.whenReady f))
    (hw : i.wf = true) (hd : d = s.dev.reach t) (hr : d.runs = true) (hl : d.life.ready = true) {e : Dev} (he : f d = e) :
    exec i s = .next (s.left e) := by
  have run : d.whenReady f = e := (if_pos (by rw [hr, hl]; rfl)).trans he
  rw [h, State.act, if_pos hw, ← hd, run]
  rfl

/-- Before unit ready a lane message has none. -/
theorem exec_notReady {i : Instr} {t : Nat} {f : Dev → Dev} {s : State} {d : Dev} (h : exec i s = s.act i t (Dev.whenReady f))
    (hw : i.wf = true) (hd : d = s.dev.reach t) (hl : d.life.ready = false) : exec i s = .next (s.left d) := by
  have run : d.whenReady f = d := if_neg (by rw [hl, Bool.and_false]; decide)
  rw [h, State.act, if_pos hw, ← hd, run]
  rfl

theorem takeOnce_again {d : Dev} {typ f : Nat} (h : (d.takeOnce typ f).1 = false) : d.takeOnce typ f = (false, d) := by
  unfold Dev.takeOnce at h ⊢
  split
  · rfl
  · next hn => rw [if_neg hn] at h; cases h

theorem releaseReceived_new {d e : Dev} {bs p' : List Byte} {f g p n : Nat} (hl : laneOf bs = some (2, f, g, p, n, p'))
    (hn : (d.takeOnce 2 f).1 = true) (he : e = (d.takeOnce 2 f).2) :
    d.releaseReceived bs = { e with
      clasp := { e.clasp with
        releaseSeen := true, releaseCause := Bits.byteAt p' 0,
        returnSuspended := e.clasp.returnSuspended && !e.clasp.suspSeen, suspSeen := false } } := by
  rw [Dev.releaseReceived, hl, he]
  exact if_pos hn

theorem releaseReceived_again {d : Dev} {bs p' : List Byte} {f g p n : Nat} (hl : laneOf bs = some (2, f, g, p, n, p'))
    (hn : (d.takeOnce 2 f).1 = false) : d.releaseReceived bs = d := by
  rw [Dev.releaseReceived, hl]
  exact (if_neg (Bool.eq_false_iff.1 hn)).trans (congrArg Prod.snd (takeOnce_again hn))

theorem flowStateReceived_new {d e : Dev} {bs p' : List Byte} {f g p n : Nat} (hl : laneOf bs = some (7, f, g, p, n, p'))
    (hn : (d.takeOnce 7 f).1 = true) (he : e = (d.takeOnce 7 f).2) :
    d.flowStateReceived bs = { e with
      flows := { e.flows with partnerUp := BitVec.ofNat 256 (Bits.fromLe (p'.take 32)), partnerAge := 0 } } := by
  rw [Dev.flowStateReceived, hl, he]
  exact if_pos hn

theorem flowStateReceived_again {d : Dev} {bs p' : List Byte} {f g p n : Nat} (hl : laneOf bs = some (7, f, g, p, n, p'))
    (hn : (d.takeOnce 7 f).1 = false) : d.flowStateReceived bs = d := by
  rw [Dev.flowStateReceived, hl]
  exact (if_neg (Bool.eq_false_iff.1 hn)).trans (congrArg Prod.snd (takeOnce_again hn))

/-! ### The heartbeat (R377, R381, R385) -/

theorem beatReceived_invalid {d : Dev} {l : Nat} {bs : List Byte} (h : beatOf bs = none) : d.beatReceived l bs = d.laneError bs := by
  rw [Dev.beatReceived, h]

/-- The second copy of a frame's heartbeat counts for its lane alone. -/
theorem beatReceived_again {d : Dev} {l : Nat} {bs : List Byte} {b : Beat} (h : beatOf bs = some b)
    (hf : (d.laneGood l).clasp.lastBeatFrame = some b.frame) : d.beatReceived l bs = d.laneGood l := by
  rw [Dev.beatReceived, h]
  exact if_pos hf

/-- What the first heartbeat of a frame, b, leaves in the record c of the Clasp, where the module that met it was a. -/
structure Beat.ShownIn (b : Beat) (a : Dev) (c : ClaspSt) : Prop where
  partner : c.partner = some b
  beatAt : c.beatAt = a.time.now
  lastBeatFrame : c.lastBeatFrame = some b.frame
  partnerHere : c.partnerHere = true
  absent : c.absent = false
  frameDiffers : c.frameDiffers = (b.frame != a.frame.number)
  markSame : c.markSame = (b.hallmark == a.cfg.hallmark)
  clash : c.clash = (b.unit.getLsbD 0 == a.unitByte.getLsbD 0)
  role : c.role = a.clasp.role
  lease : c.lease = a.clasp.lease
  leaseBeat : b.hflags.getLsbD 0 = true → c.leaseBeat = true ∧ c.leaseBeatAt = a.time.now ∧ c.waiting = false ∧
    c.released = false ∧ c.takeBack = none

/-- Two records of the Clasp agree but for the answer owed to a ROLE_RELEASE and for whether a clash has been raised. -/
def ClaspSt.showsAs (c e : ClaspSt) : Prop := e = { c with releasing := e.releasing, clashRaised := e.clashRaised }

theorem showsAs_trans {a b c : ClaspSt} (h : a.showsAs b) (k : b.showsAs c) : a.showsAs c := by
  unfold ClaspSt.showsAs at *
  rw [h] at k
  exact k

theorem shownIn_of_showsAs {b : Beat} {a : Dev} {c e : ClaspSt} (h : c.showsAs e) (k : b.ShownIn a c) : b.ShownIn a e := by
  unfold ClaspSt.showsAs at h
  rw [h]
  exact ⟨k.partner, k.beatAt, k.lastBeatFrame, k.partnerHere, k.absent, k.frameDiffers, k.markSame, k.clash, k.role, k.lease,
    k.leaseBeat⟩

theorem raise_showsAs (code : Nat) {sev : Nat} (h : sev ≠ 4) (data : List Byte) (d : Dev) :
    d.clasp.showsAs (d.raise code sev data).clasp := by
  obtain ⟨_, _, _, _, clasp, _⟩ := recorded_keeps (raise_recorded code h data d)
  rw [clasp]
  rfl

theorem endRelease_showsAs (f : Fin) (d : Dev) : d.clasp.showsAs (d.endRelease f).clasp := by
  unfold Dev.endRelease
  split <;> rfl

/-- The first heartbeat of a frame: the events and the end of a release that follow it change nothing that it has shown. -/
theorem beatReceived_first {d a : Dev} {l : Nat} {bs : List Byte} {b : Beat} (h : beatOf bs = some b) (ha : a = d.laneGood l)
    (hf : a.clasp.lastBeatFrame ≠ some b.frame) : b.ShownIn a (d.beatReceived l bs).clasp := by
  rw [Dev.beatReceived, h]
  dsimp only
  rw [← ha, if_neg hf]
  generalize hx : Dev.modClasp _ a = x
  have shown : b.ShownIn a x.clasp := by
    rw [← hx]
    refine ⟨rfl, rfl, rfl, rfl, rfl, rfl, rfl, rfl, rfl, rfl, fun hl => ?_⟩
    simp [Dev.modClasp, hl]
  have acked : x.clasp.showsAs (x.ackMirror b).clasp := rfl
  generalize x.ackMirror b = y at acked
  generalize hz : ite (a.clasp.absent = true) (y.raise 0x0D0A 0 _) y = z
  have found : y.clasp.showsAs z.clasp := by
    rw [← hz]
    split
    · exact raise_showsAs 0x0D0A (by decide) _ y
    · rfl
  generalize hw : ite ((_ && _) = true) (Dev.raise 0x0D0D 3 _ _) z = w
  have clashed : z.clasp.showsAs w.clasp := by
    rw [← hw]
    split
    · exact showsAs_trans (b := (z.modClasp (fun c => { c with clashRaised := true })).clasp) rfl
        (raise_showsAs 0x0D0D (by decide) _ _)
    · rfl
  refine shownIn_of_showsAs (showsAs_trans acked (showsAs_trans found (showsAs_trans clashed ?_))) shown
  split
  · exact endRelease_showsAs _ _
  · rfl

/-- Settles O35: a lane message by whether it is valid and new, a heartbeat by whether it is its frame's first. -/
theorem laneMessagesAreTakenOnce : Obligations.LaneMessagesAreTakenOnce := by
  unfold Obligations.LaneMessagesAreTakenOnce
  have runs {d : Dev} (hu : d.up = true) : d.runs = true := ((Bool.and_eq_true _ _).mp hu).1
  have wf {l : Nat} {bs : List Byte} (hl : l < 2) (hb : bs.length ≤ 4096) : (decide (l < 2) && decide (bs.length ≤ 4096)) = true := by
    rw [decide_eq_true hl, decide_eq_true hb]
    rfl
  refine ⟨fun s t l bs d hd hu hl hb => ⟨fun hr => ?_, fun hr => ?_⟩, fun s t l bs d a b hd hu hr hl hb h ha hf => ?_⟩
  · simp only [List.forall_mem_cons, List.not_mem_nil, false_imp_iff, implies_true, and_true]
    exact ⟨exec_notReady rfl (wf hl hb) hd hr, exec_notReady rfl (wf hl hb) hd hr, exec_notReady rfl (wf hl hb) hd hr,
      exec_notReady rfl (wf hl hb) hd hr, exec_notReady rfl (wf hl hb) hd hr, exec_notReady rfl (wf hl hb) hd hr,
      exec_notReady rfl (wf hl hb) hd hr⟩
  · have run {i : Instr} {f : Dev → Dev} {e : Dev} (hi : exec i s = s.act i t (Dev.whenReady f)) (hw : i.wf = true) (he : f d = e) :
        exec i s = .next (s.left e) := exec_whenReady hi hw hd (runs hu) hr he
    have beat {e : Dev} (he : d.beatReceived l bs = e) : exec (.heartbeatReceived t l bs) s = .next (s.left e) :=
      run (f := Dev.beatReceived l bs) rfl (wf hl hb) he
    have release {e : Dev} (he : d.releaseReceived bs = e) : exec (.releaseReceived t l bs) s = .next (s.left e) :=
      run (f := Dev.releaseReceived bs) rfl (wf hl hb) he
    have flows {e : Dev} (he : d.flowStateReceived bs = e) : exec (.flowStateReceived t l bs) s = .next (s.left e) :=
      run (f := Dev.flowStateReceived bs) rfl (wf hl hb) he
    refine ⟨fun h => beat (beatReceived_invalid h), fun b h hf => beat (beatReceived_again h hf), fun h => ⟨release ?_,
      run (f := Dev.mirrorReceived bs) rfl (wf hl hb) ?_, run (f := Dev.commitReceived bs) rfl (wf hl hb) ?_,
      run (f := Dev.commitResult bs) rfl (wf hl hb) ?_, run (f := Dev.imageReceived bs) rfl (wf hl hb) ?_, flows ?_⟩,
      fun f g p n p' e h hn he => release (releaseReceived_new h hn he), fun f g p n p' h hn => release (releaseReceived_again h hn),
      fun f g p n p' e h hn he => flows (flowStateReceived_new h hn he), fun f g p n p' h hn => flows (flowStateReceived_again h hn)⟩
    · rw [Dev.releaseReceived, h]
    · rw [Dev.mirrorReceived, h]
    · rw [Dev.commitReceived, h]
    · rw [Dev.commitResult, h]
    · rw [Dev.imageReceived, h]
    · rw [Dev.flowStateReceived, h]
  · have k := beatReceived_first h ha hf
    exact ⟨_, exec_whenReady (i := .heartbeatReceived t l bs) (f := Dev.beatReceived l bs) rfl (wf hl hb) hd (runs hu) hr rfl,
      k.partner, k.beatAt, k.lastBeatFrame, k.partnerHere, k.absent, k.frameDiffers, k.markSame, k.clash, k.role, k.lease, k.leaseBeat⟩

end Sys2Proof.Machine
end

section
/-! PROOFS. Requests of the signal image and of the flows (03 R85 to R93). -/

namespace Sys2Proof.Machine

open Sys2Proof

/-! ### What an operation must spare for its reply to leave at once -/

/-- e keeps of d all that the reply of the request in progress needs: the channel but for the words of other queues, and what the
transports and a firmware activation depend on. -/
structure Dev.Spares (d e : Dev) : Prop where
  cmd : e.cmd = { d.cmd with queues := e.cmd.queues }
  replies : e.q 1 = d.q 1
  committed : e.cfg.committed = d.cfg.committed
  net : e.net = d.net
  hw : e.hw = d.hw
  activating : e.life.activating = d.life.activating

theorem spares_refl (d : Dev) : d.Spares d := ⟨rfl, rfl, rfl, rfl, rfl, rfl⟩

theorem spares_trans {a b c : Dev} (h : a.Spares b) (k : b.Spares c) : a.Spares c :=
  ⟨by rw [k.cmd, h.cmd], k.replies.trans h.replies, k.committed.trans h.committed, k.net.trans h.net, k.hw.trans h.hw,
    k.activating.trans h.activating⟩

/-- An effect beside the channel, the configuration, the network, the board and the life cycle. -/
theorem spares_of_eq {d e : Dev} (h1 : e.cmd = d.cmd) (h2 : e.cfg = d.cfg) (h3 : e.net = d.net) (h4 : e.hw = d.hw)
    (h5 : e.life = d.life) : d.Spares e :=
  ⟨by rw [h1], by rw [Dev.q, h1]; rfl, by rw [h2], h3, h4, by rw [h5]⟩

theorem spares_foldl {β : Type} {f : Dev → β → Dev} (h : ∀ (x : Dev) b, x.Spares (f x b)) (l : List β) (d : Dev) :
    d.Spares (l.foldl f d) := by
  induction l generalizing d with
  | nil => exact spares_refl d
  | cons b l ih => exact spares_trans (h d b) (ih _)

theorem carries_of_spares {op : Byte} {r : Req} {u : List Resource} {b e : Dev} (h : Carries op r u b) (hs : b.Spares e) :
    Carries op r u e := by
  refine ⟨?_, ?_, ?_, by rw [hs.replies]; exact h.agree, by rw [hs.replies]; exact h.empty, ?_⟩
  · rw [hs.cmd]; exact h.tags
  · rw [hs.cmd]; exact h.held
  · rw [hs.cmd]; exact h.replyQ
  · rw [← h.up]
    exact transportDown_core _ hs.committed hs.net (by rw [hs.cmd]) hs.hw

/-- An operation that ends at once and spares what its reply needs. -/
theorem served_of_spares {i : Instr} {op : Byte} {r : Req} {s : State} {t : Nat} {d b e : Dev} {f : Fin}
    (h : exec i s = State.act i t (Dev.requestIn op r) s) (hw : i.wf = true) (hd : d = s.dev.reach t) (hb : b = d.begun op r)
    (ha : d.admits op r = true) (hx : b.runOp op.toNat r = { dev := e, ans := .fin f }) (hs : b.Spares e) : Served i s op r f e := by
  subst hb
  obtain ⟨idle, receives⟩ := admits_idle ha
  exact served_fin i op r s t h hw d hd ha { dev := e, ans := .fin f } hx.symm f rfl _
    (carries_of_spares (begun_carries op r d idle receives) hs) (hs.activating.trans (begun_act op r d idle))

/-! ### Events leave the reply queue alone -/

theorem qCheck_q_ne {id k : Nat} (h : k ≠ id) (d : Dev) : (d.qCheck id).1.q k = d.q k := by
  unfold Dev.qCheck
  split
  · rfl
  · rw [setQ_ne _ _ _ _ (by simp) h, Dev.q, dropContents_queues]
    rfl

theorem qPush_q_ne {id k : Nat} (h : k ≠ id) (d : Dev) : (d.qPush id).2.1.q k = d.q k := by
  unfold Dev.qPush
  dsimp only
  split <;> exact (setQ_ne _ _ _ _ (by simp) h).trans (qCheck_q_ne h d)

theorem frontPush_q (r : Rec) (d : Dev) : (d.frontPush r).1.q 1 = d.q 1 := by
  have pushed := qPush_q_ne (show 1 ≠ 2 by decide) d
  unfold Dev.frontPush
  dsimp only
  split <;> exact pushed

theorem locketTake_q (r : Rec) (d : Dev) : (d.locketTake r).1.q 1 = d.q 1 := by
  unfold Dev.locketTake
  dsimp only
  split
  · rfl
  · split
    · split
      · rfl
      · split
        · exact frontPush_q r d
        · rfl
    · split
      · rfl
      · exact frontPush_q r (d.setBucket r.code _)

theorem faultTake_q (code source sev : Nat) (d : Dev) : (d.faultTake code source sev).1.q 1 = d.q 1 := by
  have pushed := qPush_q_ne (show 1 ≠ 3 by decide) d
  unfold Dev.faultTake
  split
  · rfl
  · split
    · rfl
    · dsimp only
      split <;> exact pushed

theorem foldl_q {β : Type} {f : Dev → β → Dev} (h : ∀ (x : Dev) b, (f x b).q 1 = x.q 1) (l : List β) (d : Dev) :
    (l.foldl f d).q 1 = d.q 1 := by
  induction l generalizing d with
  | nil => rfl
  | cons b l ih => exact (ih _).trans (h d b)

/-- An event below CRITICAL leaves the pointers of the reply queue as they are, in whatever form the words of the queues stand. -/
theorem raiseN_q (fuel kind code : Nat) {sev : Nat} (h : sev ≠ 4) (inst : Nat) (data : List Byte) (d : Dev) :
    (d.raiseN fuel kind code sev inst data).q 1 = d.q 1 := by
  induction fuel generalizing kind code sev inst data d with
  | zero => rfl
  | succ fuel ih =>
    have taken := locketTake_q (d.record kind code sev inst data) d
    have entered := faultTake_q code (d.record kind code sev inst data).source sev
      (d.locketTake (d.record kind code sev inst data)).1
    have events (ev : List (Nat × Nat)) (x : Dev) := foldl_q
      (f := fun x (e : Nat × Nat) => Dev.raiseN fuel 0 e.1 (queueEventSev e.1) e.2 (Bits.le 1 e.2) x)
      (fun x e => ih 0 e.1 (queueEventSev_ne_critical e.1) e.2 (Bits.le 1 e.2) x) ev x
    rw [Dev.raiseN.eq_def]
    dsimp only
    rw [if_neg (by simp [h])]
    exact (events _ _).trans (entered.trans taken)

theorem spares_of_recorded {d e : Dev} (h : d.recorded e) (hq : e.q 1 = d.q 1) : d.Spares e := by
  obtain ⟨_, _, cfg, _, _, life, _⟩ := recorded_keeps h
  unfold Dev.recorded at h
  refine ⟨?_, hq, by rw [cfg], ?_, ?_, by rw [life]⟩ <;> rw [h]

theorem raiseI_spares (code : Nat) {sev : Nat} (h : sev ≠ 4) (inst : Nat) (data : List Byte) (d : Dev) :
    d.Spares (d.raiseI code sev inst data) :=
  spares_of_recorded (raiseI_recorded code h inst data d) (raiseN_q 4 0 code h inst data d)

/-! ### SIGNAL_WRITE (R85 to R89) -/

theorem setPt_spares (i : Nat) (p : Point) (d : Dev) : d.Spares (d.setPt i p) := by
  unfold Dev.setPt Dev.markPt
  dsimp only
  (repeat' split) <;> exact spares_of_eq rfl rfl rfl rfl rfl

/-- Records that all pass, none of them published: they are written, and no member has a result of its own. -/
theorem signalWriteOp_writes {b : Dev} {r : Req} {n : Nat} {recs : List Point} (hn : n = r.len / 16)
    (hr : recs = (Bits.upTo n).map (fun k => pointOf ((r.payload.drop (16 * k)).take 16))) (hp : b.partnerActive = false)
    (hf : b.publishers r.tgt n = [])
    (hk : (Bits.upTo n).find? (fun k => !(b.hostRecordOk (r.tgt + k) (recs.getD k {}))) = none) :
    b.signalWriteOp r = {
      dev := (Bits.upTo n).foldl (fun x k => x.setPt (r.tgt + k) (hostRecord r.src.tr (recs.getD k {}))) b
      ans := .fin { status := stOk, rarg := BitVec.ofNat 16 n } } := by
  have unpublished : fanFin 3 ([] : List (Nat × Half)) (BitVec.ofNat 16 n) [] = { status := stOk, rarg := BitVec.ofNat 16 n } := rfl
  have whole : ¬stOk = stPartial := by decide
  subst hn hr
  rw [Dev.signalWriteOp]
  dsimp only
  rw [if_neg (by rw [hp]; decide), hk]
  dsimp only
  rw [hf, List.map_nil, List.take_nil, unpublished, if_neg whole]

/-! ### SIGNAL_NOTIFY (R90) -/

theorem signalNotifyOp_stands {b : Dev} {r : Req} (hc : r.cancels = false) (hk : notifyOk r (b.readPt r.tgt) = true)
    (hw : b.image.watches.length < 16) :
    b.signalNotifyOp r.tag r = {
      dev := { b with
        image := { b.image with
          watches := b.image.watches ++ [{
            tag := r.tag, index := r.tgt, cond := Bits.byteAt r.payload 0,
            minInterval := Bits.at' r.payload 2 2, thr := Bits.wordAt r.payload 4, hyst := Bits.wordAt r.payload 8,
            seen := some (b.readPt r.tgt) }] } }
      ans := .stand } := by
  have kept : ¬r.target.getLsbD 31 = true := Bool.eq_false_iff.1 hc
  rw [Dev.signalNotifyOp, if_neg kept]
  dsimp only
  rw [if_neg (by rw [hk]; decide), if_neg (by omega)]

/-! ### FLOW_OPEN and FLOW_CLOSE (R91, R93, R102) -/

theorem flowOpenOp_waits {b : Dev} {r : Req} (ht : r.tgt ≤ 255) (hs : (b.flow r.tgt).state = 0)
    (ho : b.flows.opening.any (fun x => x.1 == r.tgt && !x.2.2.isEmpty) = false)
    (hk : b.flowCheck (b.flows.opening.map (fun x => x.2.2)) r.payload = none) :
    b.flowOpenOp r.tag r =
      deferred { b with flows := { b.flows with opening := b.flows.opening ++ [(r.tgt, r.tag, r.payload)] } } (some 100000000) := by
  rw [Dev.flowOpenOp, if_neg (by omega), if_neg (by rw [hs, ho]; decide), hk]

theorem flowPair_spares (c : Nat) (p : List Byte) (d : Dev) : d.Spares (d.flowPair c p).1 := by
  unfold Dev.flowPair
  dsimp only
  (repeat' split) <;> exact spares_of_eq rfl rfl rfl rfl rfl

theorem flowCloseAt_spares (c : Nat) (d : Dev) : d.Spares (d.flowCloseAt c) := by
  unfold Dev.flowCloseAt
  dsimp only
  split
  · exact spares_of_eq rfl rfl rfl rfl rfl
  · split
    · refine spares_trans ?_ (spares_foldl (f := fun y i => y.setPt i {}) (fun x i => setPt_spares i {} x) _ _)
      exact spares_of_eq rfl rfl rfl rfl rfl
    · exact spares_of_eq rfl rfl rfl rfl rfl

theorem partialEvent_spares (op : Byte) (kind : Nat) (ms : List (Nat × Half)) (d : Dev) : d.Spares (d.partialEvent op kind ms) :=
  raiseI_spares 0x0204 (sev := 0) (by decide) 0 _ d

/-- A close is made at once, or behind the opening that waits. -/
theorem flowCloseOp_closes {b : Dev} {r : Req} {x : Dev × List (Nat × Half)} {f : Fin} {e : Dev} (ht : r.tgt ≤ 255)
    (hx : x = b.flowPair r.tgt []) (hf : f = fanFin 0 x.2 0 [])
    (he : e = if x.1.flows.opening.any (fun y => y.1 == r.tgt) then
        { x.1 with flows := { x.1.flows with opening := x.1.flows.opening ++ [(r.tgt, r.tag, [])] } }
      else x.1.flowCloseAt r.tgt) :
    b.flowCloseOp r.tag r = { dev := if f.status = stPartial then e.partialEvent 0x29 0 x.2 else e, ans := .fin f } := by
  subst hx hf he
  exact if_neg (Nat.not_lt.2 ht)

/-- Settles O9: what each of the four operations leaves, and that it spares what its reply needs. -/
theorem signalAndFlowRequestsAct : Obligations.SignalAndFlowRequestsAct := by
  unfold Obligations.SignalAndFlowRequestsAct
  refine ⟨fun s t r d hd hw => ⟨fun b n recs hb hn hr ha hp hf hk => ?_, fun b hb ha hc hk hl => ?_⟩,
    fun s t r d hd hw ht => ⟨fun b hb ha hs ho hk => ?_, fun x f e hx ha hf he => ?_⟩⟩
  · exact served_of_spares (i := .signalWrite t r) rfl hw hd hb ha (signalWriteOp_writes hn hr hp hf hk)
      (spares_foldl (fun x k => setPt_spares (r.tgt + k) _ x) _ b)
  · have wf : (Instr.signalNotify t r).wf = true := by
      show (r.wf && !r.cancels) = true
      rw [hw, hc]
      rfl
    exact standing_of_run (i := .signalNotify t r) rfl wf hd hb ha _ (signalNotifyOp_stands hc hk hl) rfl rfl rfl rfl rfl
  · exact accepted_of_run (i := .flowOpen t r) rfl hw hd hb ha _ (some 100000000) (flowOpenOp_waits ht hs ho hk) rfl rfl rfl rfl rfl
  · have closed : x.1.Spares e := by
      rw [he]
      split
      · exact spares_of_eq rfl rfl rfl rfl rfl
      · exact flowCloseAt_spares r.tgt x.1
    have paired : (d.begun 0x29 r).Spares x.1 := by
      rw [hx]
      exact flowPair_spares r.tgt [] _
    refine served_of_spares (i := .flowClose t r) rfl hw hd rfl ha (flowCloseOp_closes ht hx hf he)
      (spares_trans paired (spares_trans closed ?_))
    split
    · exact partialEvent_spares 0x29 0 x.2 e
    · exact spares_refl e

end Sys2Proof.Machine
end

section
/-! PROOFS. GNSS_CORR_FEED and CAN_FETCH (05 R162, 12 R371). -/

namespace Sys2Proof.Machine

open Sys2Proof

/-! ### GNSS_CORR_FEED -/

theorem modGnss_spares (f : GnssSt → GnssSt) (d : Dev) : d.Spares (d.modGnss f) := spares_of_eq rfl rfl rfl rfl rfl

theorem corrReject_spares (s reason : Nat) (d : Dev) : d.Spares (d.corrReject s reason) := raiseI_spares 0x0507 (by decide) s _ d

theorem spares_ite {c : Prop} [Decidable c] {d a b : Dev} (h : d.Spares a) (k : d.Spares b) : d.Spares (if c then a else b) := by
  split
  · exact h
  · exact k

theorem spares_ite_pair {α : Type} {c : Prop} [Decidable c] {d a : Dev} {x : α} {y : α × Dev} (h : d.Spares a)
    (k : d.Spares y.2) : d.Spares (if c then (x, a) else y).2 := by
  split
  · exact h
  · exact k

theorem corrMsm_spares (s typ station : Nat) (p : List Byte) (e : Int) (d : Dev) : d.Spares (d.corrMsm s typ station p e) :=
  spares_ite (spares_refl d) (modGnss_spares _ d)

/-- A frame is rejected, or it changes the record of its stream. -/
theorem corrFrame_spares (s : Nat) (p : List Byte) (d : Dev) : d.Spares (d.corrFrame s p).2 := by
  unfold Dev.corrFrame
  dsimp only
  split
  · exact spares_refl d
  · exact spares_ite_pair (corrReject_spares s 1 d) (spares_ite_pair (corrReject_spares s 2 d)
      (spares_ite_pair (modGnss_spares _ d) (spares_ite_pair (modGnss_spares _ d) (spares_ite_pair (corrReject_spares s 3 d)
        (spares_ite_pair (corrReject_spares s 4 d) (spares_ite_pair (corrReject_spares s 5 d) (corrMsm_spares s _ _ p _ d)))))))

theorem corrTake_spares (fuel s : Nat) (bs : List Byte) (n : Nat) (d : Dev) : d.Spares (Dev.corrTake fuel s bs n d).2.2 := by
  induction fuel generalizing bs n d with
  | zero => exact spares_refl d
  | succ fuel ih =>
    rw [Dev.corrTake]
    dsimp only
    split
    · exact spares_refl d
    · split
      · exact spares_trans (corrFrame_spares s _ d) (ih _ _ _)
      · exact spares_trans (corrReject_spares s 1 d) (ih _ _ _)

theorem corrBytes_spares (s : Nat) (bs : List Byte) (d : Dev) : d.Spares (d.corrBytes s bs).2 := by
  unfold Dev.corrBytes
  dsimp only
  exact spares_trans (corrTake_spares _ s _ 0 d) (modGnss_spares _ _)

theorem corrFeedOp_takes {b : Dev} {r : Req} {x : Nat × Dev} (ht : r.tgt < 4) (hg : b.gPar (0x10 + 4 * r.tgt) = 0)
    (hx : x = b.corrBytes r.tgt ((r.payload.drop 4).take (Bits.at' r.payload 0 4))) : b.corrFeedOp r = done x.2 x.1 := by
  rw [Dev.corrFeedOp]
  dsimp only
  rw [if_neg (Nat.not_le.2 ht), if_neg (by rw [hg]; decide), hx]

/-- R162: what O13 says of GNSS_CORR_FEED holds in every state. -/
theorem gnssCorrFeed_answers_frames_taken {s : State} {t : Nat} {r : Req} {d : Dev} (hd : d = s.dev.reach t) (hr : r.wf = true)
    {x : Nat × Dev} (hx : x = (d.begun 0x41 r).corrBytes r.tgt ((r.payload.drop 4).take (Bits.at' r.payload 0 4)))
    (ha : d.admits 0x41 r = true) (ht : r.tgt < 4) (hg : (d.begun 0x41 r).gPar (0x10 + 4 * r.tgt) = 0) :
    Served (.gnssCorrFeed t r) s 0x41 r { status := stOk, rarg := BitVec.ofNat 16 x.1 } x.2 := by
  refine served_of_spares (i := .gnssCorrFeed t r) rfl hr hd rfl ha (corrFeedOp_takes ht hg hx) ?_
  rw [hx]
  exact corrBytes_spares r.tgt _ _

/-! ### CAN_FETCH -/

/-- Served says nothing of the channel and of what has left the module. -/
theorem served_of_alike {i : Instr} {s : State} {op : Byte} {r : Req} {f : Fin} {e g : Dev} (h : Served i s op r f e) (k : e.alike g) :
    Served i s op r f g := by
  obtain ⟨d, run, answered, tags, alike⟩ := h
  exact ⟨d, run, answered, tags, alike_trans alike k⟩

/-- A read of another queue, the words of the queues standing in canonical form. -/
theorem qRead_spares {d : Dev} (h : d.queuesWf) {id : Nat} (hi : id ≠ 1) (ha : (d.q id).agree = true) (n : Nat) :
    d.Spares (d.qRead id n).1 := by
  rw [qRead_ok id n d ha]
  exact ⟨rfl, by rw [q_setQ h, if_neg (Ne.symm hi)], rfl, rfl, rfl, rfl⟩

theorem qRead_alike {d : Dev} {id : Nat} (ha : (d.q id).agree = true) (n : Nat) : (d.qRead id n).1.alike d := by
  rw [qRead_ok id n d ha]
  rfl

/-- The payload of CAN_FETCH for the frames fs of controller c (Table 12.3). -/
def Dev.fetchBytes (b : Dev) (c : Nat) (fs : List CanRx) : List Byte :=
  Bits.le 1 c ++ Bits.le 1 (b.canState c) ++ Bits.le 1 (b.ctrl c).lec ++ Bits.le 1 (b.ctrl c).blocked ++
    Bits.le 2 (b.ctrl c).tec ++ Bits.le 2 (b.ctrl c).rxErr ++ Bits.le 2 fs.length ++ Bits.le 2 (Bits.sat 0xFFFF (b.ctrl c).dropped) ++
    Bits.le 3 (b.ctrl c).confirmedPrev.toNat ++ [0] ++ fs.flatMap CanRx.bytes

/-- The frames fs have left controller c. -/
def Dev.fetched (c : Nat) (fs : List CanRx) (b : Dev) : Dev := b.modCtrl c (fun k => { k with rxq := k.rxq.drop fs.length, dropped := 0 })

theorem canFetch_runOp (r : Req) (b : Dev) : b.runOp (0x69 : Byte).toNat r = b.canFetchOp r := by
  simp [Dev.runOp, zeroTargetOps]

theorem canFetchOp_takes {b : Dev} {r : Req} {c n : Nat} {fs : List CanRx} (hc : c = r.tgt % 8) (hn : n = r.tgt / 256 % 256)
    (ha : (b.q (0x0C + c)).agree = true)
    (hf : fs = fetchFit (b.ctrl c).rxq (if n = 0 then (b.ctrl c).rxq.length else n)
      (if n = 0 then maxPayload r.src.tr - 16 else 1000000))
    (hl : 16 + (fs.flatMap CanRx.bytes).length ≤ maxPayload r.src.tr) :
    b.canFetchOp r = {
      dev := ((b.fetched c fs).qRead (0x0C + c) fs.length).1, ans := .fin { status := stOk, payload := b.fetchBytes c fs } } := by
  have checked : b.qCheck (0x0C + c) = (b, []) := if_pos ha
  have read : ((b.fetched c fs).qRead (0x0C + c) fs.length).2 = [] := by rw [qRead_ok (0x0C + c) fs.length (b.fetched c fs) ha]
  subst hc hn hf
  rw [Dev.canFetchOp]
  dsimp only
  rw [checked]
  dsimp only [Dev.raiseQ, List.foldl_nil]
  refine (if_neg (Nat.not_lt.2 hl)).trans ?_
  unfold Dev.fetched at read
  rw [read]
  rfl

/-- R371: what O13 says of CAN_FETCH holds in every state whose queue words stand in canonical form. -/
theorem canFetch_answers_frames_held {s : State} {t : Nat} {r : Req} {d b : Dev} {c n : Nat} {fs : List CanRx}
    (hd : d = s.dev.reach t) (hr : r.wf = true) (hb : b = d.begun 0x69 r) (hw : d.queuesWf) (hc : c = r.tgt % 8)
    (hn : n = r.tgt / 256 % 256) (ha : d.admits 0x69 r = true) (hq : (b.q (0x0C + c)).agree = true)
    (hf : fs = fetchFit (b.ctrl c).rxq (if n = 0 then (b.ctrl c).rxq.length else n)
      (if n = 0 then maxPayload r.src.tr - 16 else 1000000))
    (hl : 16 + (fs.flatMap CanRx.bytes).length ≤ maxPayload r.src.tr) :
    Served (.canFetch t r) s 0x69 r { status := stOk, payload := b.fetchBytes c fs } (b.fetched c fs) := by
  obtain ⟨idle, _⟩ := admits_idle ha
  have wf : b.queuesWf := by
    rw [hb]
    exact begun_queuesWf idle hw
  have taken : b.Spares (b.fetched c fs) := spares_of_eq rfl rfl rfl rfl rfl
  have agree : ((b.fetched c fs).q (0x0C + c)).agree = true := hq
  have read := qRead_spares (d := b.fetched c fs) wf (by omega) agree fs.length
  have run := (canFetch_runOp r b).trans (canFetchOp_takes hc hn hq hf hl)
  have served := served_of_spares (i := .canFetch t r) rfl hr hd hb ha run (spares_trans taken read)
  exact served_of_alike served (qRead_alike agree fs.length)

/-! ### The state that refutes O13 -/

theorem alike_locket {a b : Dev} (h : a.alike b) : a.locket = b.locket := by
  unfold Dev.alike at h
  rw [← h]

/-- A module ready for requests whose queue words stand out of order: the word of queue 1, whose pointers differ, stands behind a
word of queue 12 that holds nothing, so that it is not read until a CAN_FETCH of controller 0 drops that word. -/
def shadowed : State :=
  { tangled with dev := { tangled.dev with cmd := { tangled.dev.cmd with queues := [(12, {}), (1, { rd := 1 })] } } }

/-- A CAN_FETCH of controller 0 on SPI. -/
def canFetchSpi : Req := { src := { tr := .spi }, tag := 1, flags := 0, target := 0, payload := [] }

theorem shadowed_admits : (shadowed.dev.reach 0).admits 0x69 canFetchSpi = true := by decide +kernel

/-- The receive queue of controller 0 is sound and empty. -/
theorem shadowed_rxq : (((shadowed.dev.reach 0).begun 0x69 canFetchSpi).q 0x0C).agree = true ∧
    (((shadowed.dev.reach 0).begun 0x69 canFetchSpi).ctrl 0).rxq = [] := by decide +kernel

theorem shadowed_front : ((shadowed.dev.reach 0).begun 0x69 canFetchSpi).locket.front.length = 0 := by decide +kernel

/-- The reply finds the pointers of its queue apart (R34), and Locket takes the event. -/
theorem shadowed_canFetch : ∀ e, exec (.canFetch 0 canFetchSpi) shadowed = .next { shadowed with dev := e } →
    e.locket.front.length = 1 := by
  have front : ((shadowed.dev.reach 0).requestIn 0x69 canFetchSpi).after.locket.front.length = 1 := by decide +kernel
  intro e he
  rw [requestIn_exec _ 0x69 canFetchSpi shadowed 0 rfl rfl] at he
  injection he with he
  injection he with he
  rw [← he, front]

/-- Refutes O13: it is stated of every state, and in one whose queue words are not in canonical form a CAN_FETCH drops the word that
stood before that of the reply queue: the reply finds that queue's pointers apart, and 0107h is recorded. With the canonical form
as a premise CAN_FETCH does as O13 says (`canFetch_answers_frames_held`). -/
theorem not_feedFetchAndCancelEndAtOnce : ¬ Obligations.FeedFetchAndCancelEndAtOnce := by
  unfold Obligations.FeedFetchAndCancelEndAtOnce
  intro h
  obtain ⟨agree, empty⟩ := shadowed_rxq
  obtain ⟨_, fetch, _⟩ := h shadowed 0 canFetchSpi (shadowed.dev.reach 0) rfl rfl
  have short : 16 + (([] : List CanRx).flatMap CanRx.bytes).length ≤ maxPayload canFetchSpi.src.tr := by decide
  obtain ⟨e, he, _, _, alike⟩ := fetch _ 0 0 [] rfl rfl rfl shadowed_admits agree (by rw [empty]; rfl) short
  have locket : e.locket = ((shadowed.dev.reach 0).begun 0x69 canFetchSpi).locket := (alike_locket alike :)
  have recorded := shadowed_canFetch e he
  rw [locket, shadowed_front] at recorded
  exact absurd recorded (by decide)

end Sys2Proof.Machine
end

section
/-! PROOFS. Port frames, resamplers without a crossing and link frames (04 R108 to R131, 05 R140, R141). -/

namespace Sys2Proof.Machine

open Sys2Proof

/-! ### Port frames (R108, R131) and resamplers without a crossing (R126) -/

theorem portFrame_idle {d : Dev} {p : Nat} (slots : List Word) (stalled : Bool)
    (h : d.acq.ports.getLsbD p = false ∨ (d.frame.syncDue = true ∧ d.acq.finishing.getLsbD p = false)) :
    d.portFrame p slots stalled = d := by
  refine if_pos ?_
  rcases h with ports | ⟨due, fin⟩
  · rw [ports]
    rfl
  · rw [due, fin]
    exact Bool.or_true _

theorem portFrame_takes {d a b : Dev} {p : Nat} {slots : List Word} {stalled : Bool} {g : PortGeo} {m : Int} {used : List Nat}
    {dat : Nat → Word} (hr : d.acq.ports.getLsbD p = true) (ht : d.testing 2 = false)
    (hf : d.frame.syncDue = false ∨ d.acq.finishing.getLsbD p = true) (hg : g = d.portGeo p)
    (hm : m = ((d.dev : Int) - ((g.bits * 1000000000 / g.clk : Nat) : Int) - (d.frame.subAt : Int)) * (g.rate : Int) / 1000000000
      + (g.lead : Int))
    (hu : used = (d.usedChains p).filter (fun c => decide (c % 16 < g.slots)))
    (hd : ∀ c, dat c = if d.hw.vioOut.getLsbD 1 then 0 else slots.getD (c % 16) 0)
    (ha : a = { d with acq := { d.acq with finishing := d.acq.finishing &&& ~~~BitVec.ofNat 32 (2 ^ p) } })
    (hb : b = used.foldl (fun x c => if stalled then x.fifoSlot g c d.frame.subAt m (dat c)
      else (x.fifoSlot g c d.frame.subAt m (dat c)).fifoRead p) a) :
    d.portFrame p slots stalled = used.foldl (fun x c => x.chainRun x.dev c) b := by
  have takes : ¬(!(d.acq.ports.getLsbD p) || d.testing 2 || (d.frame.syncDue && !(d.acq.finishing.getLsbD p))) = true := by
    rcases hf with h | h <;> simp [hr, ht, h]
  have bits : dat = fun c => if d.hw.vioOut.getLsbD 1 then 0 else slots.getD (c % 16) 0 := funext hd
  subst hb ha hu hm hg bits
  exact if_neg takes

theorem rsNoCross_due {d : Dev} {u : Nat} {c : Int} (hc : (d.rs u).cross = some c) (hl : (d.rs u).lock = .locked)
    (h : 1600 * 4294967296 ≤ posOf d.dev - c) :
    d.rsNoCross u = (d.setRs u { d.rs u with lock := .unlocked, periods := [], settleTo := none }).raiseI 0x0407 1 u
      (Bits.le 1 u ++ [2]) := by
  simp only [Dev.rsNoCross, hc]
  exact if_pos ⟨hl, h⟩

/-! ### Link frames (R140, R141) -/

/-- Link x after the good frame f, its run of good frames not yet counted. -/
def Link.takeGood (f : LinkFrame) (x : Link) : Link :=
  { x with
    last := some (Bits.at' f.bytes 2 4), samples := (f.bytes.drop 14).take 1024, status := f.bytes.getD 1 0, agc := Bits.at' f.bytes 6 2,
    bad := 0 }

/-- The run of good frames of link x, one longer. -/
def Link.goodRun (x : Link) : Nat := if x.good < 64 then x.good + 1 else 64

/-- The run of bad frames of link x, one longer. -/
def Link.badRun (x : Link) : Nat := if x.bad < 8 then x.bad + 1 else 8

/-- One more bad frame brings link x down. -/
def Link.falls (x : Link) : Bool := x.up && decide (x.badRun = 8)

/-- Link x after the bad frame f of cause c at an instant. -/
def Link.takeBad (f : LinkFrame) (c now : Nat) (x : Link) : Link :=
  { x with
    samples := Bits.zeros 1024, up := x.up && !x.falls, bad := x.badRun, good := 0, badTotal := x.badTotal + 1,
    last := if 4 ≤ c then some (Bits.at' f.bytes 2 4) else x.last.map (fun z => (z + 1024) % 2 ^ 32),
    downAt := if x.falls then now else x.downAt }

/-- Link n replaced. -/
def Dev.putLink (n : Nat) (y : Link) (d : Dev) : Dev := d.modGnss (fun z => { z with links := Bits.setAt z.links n y })

theorem modGnss_modGnss (f g : GnssSt → GnssSt) (d : Dev) : (d.modGnss f).modGnss g = d.modGnss (fun z => g (f z)) := rfl

theorem linkFrame_unused {d : Dev} {n : Nat} (f : LinkFrame) (h : d.gnss.running = false ∨ d.linkUsed n = false) :
    d.linkFrame n f = d := by
  refine if_pos ?_
  rcases h with h | h <;> simp [h]

section
variable {d : Dev} {n : Nat} {f : LinkFrame} (hr : d.gnss.running = true) (hu : d.linkUsed n = true)
include hr hu

/-- A good frame either brings the link up, and with it its antenna, or is counted. -/
theorem linkFrame_of_good {e : Dev} (hc : d.linkCause n f = 0) (he : e = d.fitFrame n (Bits.at' f.bytes 2 4)) :
    d.linkFrame n f =
      if !(d.glink n).up && decide ((d.glink n).goodRun = 64) then
        ((e.putLink n { (d.glink n).takeGood f with up := true, good := (d.glink n).goodRun }).modGnss (fun z => { z with
          antLost := z.antLost &&& ~~~BitVec.ofNat 4 (2 ^ (n / 3)) })).raiseI 0x0502 0 n
            (Bits.le 1 n ++ Bits.le 4 ((e.time.now - (d.glink n).downAt) / 1000000))
      else e.putLink n { (d.glink n).takeGood f with good := (d.glink n).goodRun } := by
  simp only [Dev.linkFrame, hr, hu, hc, Bool.not_true, Bool.or_self, Bool.false_eq_true, if_false, true_or, if_true]
  rw [he]
  rfl

theorem linkFrame_good (hc : d.linkCause n f = 0) (hk : (d.glink n).up = true ∨ (d.glink n).goodRun ≠ 64) :
    d.linkFrame n f = (d.fitFrame n (Bits.at' f.bytes 2 4)).putLink n { (d.glink n).takeGood f with good := (d.glink n).goodRun } := by
  have stays : (!(d.glink n).up && decide ((d.glink n).goodRun = 64)) = false := by
    rcases hk with h | h <;> simp [h]
  exact (linkFrame_of_good hr hu hc rfl).trans (if_neg (Bool.eq_false_iff.1 stays))

theorem linkFrame_rises {y : Dev} (hc : d.linkCause n f = 0) (hd : (d.glink n).up = false) (hk : 63 ≤ (d.glink n).good)
    (hy : y = (d.fitFrame n (Bits.at' f.bytes 2 4)).modGnss (fun z => { z with
      antLost := z.antLost &&& ~~~BitVec.ofNat 4 (2 ^ (n / 3)),
      links := Bits.setAt z.links n { (d.glink n).takeGood f with up := true, good := 64 } })) :
    d.linkFrame n f = y.raiseI 0x0502 0 n (Bits.le 1 n ++ Bits.le 4 ((y.time.now - (d.glink n).downAt) / 1000000)) := by
  have full : (d.glink n).goodRun = 64 := by
    rw [Link.goodRun]
    split <;> omega
  have rises : (!(d.glink n).up && decide ((d.glink n).goodRun = 64)) = true := by
    rw [hd, full]
    rfl
  rw [linkFrame_of_good hr hu hc rfl, if_pos rises, full, hy, Dev.putLink, modGnss_modGnss, Dev.modGnss_time]

theorem linkFrame_bad {c : Nat} {y : Dev} (hc : c = d.linkCause n f) (hn : c ≠ 0)
    (hy : y = d.putLink n ((d.glink n).takeBad f c d.time.now)) :
    d.linkFrame n f = if (d.glink n).falls then (y.raiseI 0x0503 0 n (Bits.le 1 n ++ Bits.le 1 c)).linkFalls n
      else y.raiseI 0x0503 0 n (Bits.le 1 n ++ Bits.le 1 c) := by
  simp only [Dev.linkFrame, hr, hu, ← hc, hn, Bool.not_true, Bool.or_self, Bool.false_eq_true, if_false, false_or]
  rw [hy, Dev.putLink, Link.takeBad, Link.falls, Link.badRun]
  cases (d.glink n).last <;> rfl

end

/-- Settles O29: port frames and resamplers by their guards; link frames by what they are, unused, good, rising or bad. -/
theorem portAndLinkFramesAreJudged : Obligations.PortAndLinkFramesAreJudged := by
  unfold Obligations.PortAndLinkFramesAreJudged
  refine ⟨fun s t p slots stalled d hd hu hp hl => ?_, fun s t n f d e x good hd hu hn hw hx he hg => ?_⟩
  · have run {e : Dev} (he : d.portFrame p slots stalled = e) : exec (.samplePortFrame t p slots stalled) s = .next (s.left e) :=
      exec_whenRuns rfl (by simp [Instr.wf, hp, hl]) hd hu he
    refine ⟨fun g m used a b dat hg hm hs hdat ha hb hr ht hf => ?_, fun h => ?_, fun u c hn hc hk h => ?_⟩
    · exact run (portFrame_takes hr ht hf hg hm hs hdat ha hb)
    · exact run (portFrame_idle slots stalled h)
    · exact exec_whenRuns (i := .resamplerNoCrossing t u) rfl (decide_eq_true hn) hd hu (rsNoCross_due hc hk h)
  · have run {e : Dev} (he : d.linkFrame n f = e) : exec (.linkFrame t n f) s = .next (s.left e) :=
      exec_whenRuns rfl (by simp [Instr.wf, hn, hw]) hd hu he
    subst hx he hg
    refine ⟨fun h => ?_, fun g hk hr hs hc h => ?_, fun y hy hr hs hc hx0 hk => ?_, fun k c hk hc hr hs h0 y hy => ?_⟩
    · exact run (linkFrame_unused f h)
    · subst hk
      exact run (linkFrame_good hr hs hc h)
    · exact run (linkFrame_rises hr hs hc hx0 hk hy)
    · subst hk
      exact run (linkFrame_bad hr hs hc h0 hy)

end Sys2Proof.Machine
end

section
/-! PROOFS. Search passes, tracking channels, the ranging solution, corrections and the stores (05 R144 to R167, 07 R241). -/

namespace Sys2Proof.Machine

open Sys2Proof

/-! ### Search passes (R144 to R146) and tracking channels (R148, R166) -/

theorem acquisitionPass_idle {d : Dev}
    (h : d.gnss.running = false ∨ 100 ≤ d.health.x ∨ d.testedThisFrame 1 = true ∨ d.time.now < d.gnss.passDue) :
    d.acquisitionPass = d := by
  refine if_pos ?_
  rcases h with h | h | h | h <;> simp [h]

theorem acquisitionPass_packs {d e : Dev} {all done rest : List SearchJob} {dwell : Nat} (hr : d.gnss.running = true)
    (hx : d.health.x < 100) (ht : d.testedThisFrame 1 = false) (hp : d.gnss.passDue ≤ d.time.now)
    (ha : all = (if d.gnss.bank.isEmpty then (Bits.upTo d.antCount).flatMap d.searchesDue else d.gnss.bank))
    (hk : packPass 16384 all = (done, rest))
    (hd : dwell = (done ++ rest.take 1).foldl (fun m j => Nat.max m (searchDwell j.kind j.signal)) 0)
    (he : e = d.modGnss (fun g => { g with bank := rest, passDue := d.time.now + dwell * 100 / (100 - d.health.x) })) :
    d.acquisitionPass = done.foldl Dev.searchEnds e := by
  have runs : ¬(!d.gnss.running || decide (100 ≤ d.health.x) || d.testedThisFrame 1 || decide (d.time.now < d.gnss.passDue)) = true := by
    simp [hr, ht, Nat.not_le.2 hx, Nat.not_lt.2 hp]
  rw [Dev.acquisitionPass, if_neg runs, ← ha]
  dsimp only
  rw [hk, he, hd]

theorem lossOfLock_loses {d : Dev} {a c : Nat} (hs : (d.chan a c).now.system ≠ 0xFF) (hl : (d.chan a c).lostAt = none) :
    d.lossOfLock a c = d.setChan (96 * a + c) ((d.chan a c).lose d.time.now) :=
  if_neg (by simp [hs, hl])

theorem reacqExpiry_due {d : Dev} {a c z : Nat} (hl : (d.chan a c).lostAt = some z) (hz : 10000000000 ≤ d.time.now - z) :
    d.reacqExpiry a c = d.setChan (96 * a + c) {} := by
  rw [Dev.reacqExpiry, hl]
  exact if_pos hz

/-- Settles O30: a pass by whether it may run; a channel by what it loses and how long ago it lost it. -/
theorem trackingChannelsFollowTheirSignal : Obligations.TrackingChannelsFollowTheirSignal := by
  unfold Obligations.TrackingChannelsFollowTheirSignal
  intro s t a c d hd hu ha hc
  have pass {e : Dev} (he : d.acquisitionPass = e) : exec (.acquisitionPass t) s = .next (s.left e) :=
    exec_whenRuns (i := .acquisitionPass t) rfl rfl hd hu he
  refine ⟨fun h => pass (acquisitionPass_idle h), fun all done rest dwell e hr hx ht hp hall hk hdw he => ?_, fun hs hl => ?_,
    fun z hl hz => ?_⟩
  · exact pass (acquisitionPass_packs hr hx ht hp hall hk hdw he)
  · exact ⟨exec_whenRuns (i := .trackingLossOfLock t a c) rfl (by simp [Instr.wf, ha, hc]) hd hu (lossOfLock_loses hs hl), rfl⟩
  · exact exec_whenRuns (i := .reacquisitionExpiry t a c) rfl (by simp [Instr.wf, ha, hc]) hd hu (reacqExpiry_due hl hz)

/-! ### What the ranging engine leaves alone -/

/-- The ranging engine has worked from d to e: the frame, the parameters, the control engine, the safety island and the image
stand. -/
structure Dev.Ranged (d e : Dev) : Prop where
  frame : e.frame = d.frame
  cfg : e.cfg = d.cfg
  engine : e.engine = d.engine
  island : e.island = d.island
  image : e.image = d.image

/-- As Dev.Ranged, and the solution shows the same: whether it is complete, its mode and that of the attitude. -/
structure Dev.Shown (d e : Dev) : Prop extends Dev.Ranged d e where
  solved : e.gnss.solved = d.gnss.solved
  mode : e.gnss.mode = d.gnss.mode
  attitude : e.gnss.attitude = d.gnss.attitude

theorem ranged_trans {a b c : Dev} (h : a.Ranged b) (k : b.Ranged c) : a.Ranged c :=
  ⟨k.frame.trans h.frame, k.cfg.trans h.cfg, k.engine.trans h.engine, k.island.trans h.island, k.image.trans h.image⟩

theorem modGnss_ranged (f : GnssSt → GnssSt) (d : Dev) : d.Ranged (d.modGnss f) := ⟨rfl, rfl, rfl, rfl, rfl⟩

theorem shown_refl (d : Dev) : d.Shown d := ⟨⟨rfl, rfl, rfl, rfl, rfl⟩, rfl, rfl, rfl⟩

theorem shown_trans {a b c : Dev} (h : a.Shown b) (k : b.Shown c) : a.Shown c :=
  ⟨ranged_trans h.toRanged k.toRanged, k.solved.trans h.solved, k.mode.trans h.mode, k.attitude.trans h.attitude⟩

theorem shown_ite {p : Prop} [Decidable p] {d a b : Dev} (ha : d.Shown a) (hb : d.Shown b) : d.Shown (if p then a else b) := by
  split
  · exact ha
  · exact hb

theorem shown_foldl {β : Type} {f : Dev → β → Dev} (h : ∀ (x : Dev) b, x.Shown (f x b)) (l : List β) (d : Dev) :
    d.Shown (l.foldl f d) :=
  List.foldlRecOn l f (shown_refl d) (fun x hx b _ => shown_trans hx (h x b))

theorem modGnss_shown {f : GnssSt → GnssSt} {d : Dev} (hs : (f d.gnss).solved = d.gnss.solved) (hm : (f d.gnss).mode = d.gnss.mode)
    (ha : (f d.gnss).attitude = d.gnss.attitude) : d.Shown (d.modGnss f) := ⟨modGnss_ranged f d, hs, hm, ha⟩

/-- A change outside the parts that Dev.Shown names. -/
theorem shown_of_eq {d e : Dev} (hf : e.frame = d.frame) (hc : e.cfg = d.cfg) (hn : e.engine = d.engine) (hi : e.island = d.island)
    (hm : e.image = d.image) (hg : e.gnss = d.gnss) : d.Shown e :=
  ⟨⟨hf, hc, hn, hi, hm⟩, by rw [hg], by rw [hg], by rw [hg]⟩

theorem shown_of_recorded {d e : Dev} (h : d.recorded e) : d.Shown e := by
  rw [h]
  exact shown_of_eq rfl rfl rfl rfl rfl rfl

theorem raiseI_shown (code : Nat) {sev : Nat} (h : sev ≠ 4) (inst : Nat) (data : List Byte) (d : Dev) :
    d.Shown (d.raiseI code sev inst data) := shown_of_recorded (raiseI_recorded code h inst data d)

theorem raise_shown (code : Nat) {sev : Nat} (h : sev ≠ 4) (data : List Byte) (d : Dev) : d.Shown (d.raise code sev data) :=
  raiseI_shown code h 0 data d

theorem fresh_shown (d : Dev) : d.Shown d.fresh := shown_of_eq rfl rfl rfl rfl rfl rfl

theorem gnssLatch_shown (th : Option Int) (d : Dev) : d.Shown (d.gnssLatch th) := by
  cases th <;> exact shown_of_eq rfl rfl rfl rfl rfl rfl

theorem learnUtc_shown (off leap : Int) (d : Dev) : d.Shown (d.learnUtc off leap) := by
  unfold Dev.learnUtc
  extract_lets s utc dayEnd new pps nvm e
  have learned : d.Shown e := shown_of_eq rfl rfl rfl rfl rfl rfl
  exact shown_ite (shown_trans learned (raise_shown _ (by decide) _ e)) learned

/-! ### Integrity (R165) -/

theorem markUsed_shown (d : Dev) : d.Shown d.markUsed := modGnss_shown rfl rfl rfl

theorem residualTest_shown (n a : Nat) (d : Dev) : d.Shown (d.residualTest n a) := by
  induction n generalizing d with
  | zero => exact shown_refl d
  | succ n ih =>
    unfold Dev.residualTest
    dsimp only [Dev.gnssFree]
    have free : d.Shown d.fresh := fresh_shown d
    refine shown_ite free (shown_ite (shown_trans free (modGnss_shown rfl rfl rfl)) ?_)
    exact shown_trans (shown_trans free (shown_trans (modGnss_shown rfl rfl rfl) (markUsed_shown _))) (ih _)

theorem integrity_shown (d : Dev) : d.Shown d.integrity := by
  unfold Dev.integrity
  extract_lets old a b
  have marked : d.Shown a := shown_trans (modGnss_shown rfl rfl rfl) (markUsed_shown _)
  have tested : a.Shown b := shown_foldl (fun x k => residualTest_shown 3 k x) _ a
  exact shown_trans (shown_trans marked tested) (shown_foldl (fun x _ => raise_shown _ (by decide) _ x) _ b)

/-! ### Attitude (R157) -/

theorem fixBaseline_shown (n b : Nat) (d : Dev) : d.Shown (d.fixBaseline n b).2 := by
  induction n generalizing d with
  | zero => exact shown_refl d
  | succ n ih =>
    unfold Dev.fixBaseline
    dsimp only [Dev.gnssFree]
    have free : d.Shown d.fresh := fresh_shown d
    split
    · exact shown_trans (shown_trans free (raiseI_shown _ (by decide) b _ _)) (ih _)
    · exact free

theorem baselineStep_shown (b : Nat) (d : Dev) : d.Shown (d.baselineStep b) := by
  unfold Dev.baselineStep
  dsimp only [Dev.gnssFree]
  have free : d.Shown d.fresh := fresh_shown d
  split
  · exact modGnss_shown rfl rfl rfl
  · split
    · exact shown_trans free (modGnss_shown rfl rfl rfl)
    · exact shown_trans (shown_trans free (fixBaseline_shown _ b _)) (modGnss_shown rfl rfl rfl)

theorem attitudeStep_ranged (d : Dev) : d.Ranged d.attitudeStep := by
  have steps : d.Shown ((Bits.upTo 6).foldl (fun x b => x.baselineStep b) d) := shown_foldl (fun x b => baselineStep_shown b x) _ d
  unfold Dev.attitudeStep
  dsimp only [Dev.gnssFree]
  exact ranged_trans (shown_trans steps (fresh_shown _)).toRanged (modGnss_ranged _ _)

theorem attitudeStep_attitude_le (d : Dev) : d.attitudeStep.gnss.attitude ≤ 2 := by
  unfold Dev.attitudeStep
  dsimp only [Dev.gnssFree, Dev.modGnss_gnss]
  repeat' split
  all_goals decide

/-! ### Mode, positions and agreement (R154, R156, R165) -/

theorem rtk_mode_le (s v w : Nat) (moved : Bool) (d : Dev) : (d.rtk s v w moved).1 ≤ 4 := by
  unfold Dev.rtk
  dsimp only
  repeat' split
  all_goals decide

theorem positionStep_shown (d : Dev) : d.Shown d.positionStep := by
  unfold Dev.positionStep
  extract_lets e
  have placed : d.Shown e := by
    refine shown_foldl (fun x a => ?_) _ d
    dsimp only [Dev.gnssFree]
    have free : x.Shown x.fresh := fresh_shown x
    exact shown_ite free (shown_trans free (modGnss_shown rfl rfl rfl))
  exact shown_trans (shown_trans placed (fresh_shown e)) (modGnss_shown rfl rfl rfl)

theorem agreement_shown (newFix : Bool) (d : Dev) : d.Shown (d.agreement newFix) := by
  unfold Dev.agreement
  extract_lets e
  have kept : d.Shown e := shown_ite (modGnss_shown rfl rfl rfl) (shown_refl d)
  refine shown_ite ?_ kept
  split
  · exact shown_ite (shown_trans kept (modGnss_shown rfl rfl rfl)) kept
  · exact kept

/-! ### The solution (R153 to R158) -/

/-- From d the ranging engine has reached a complete solution e: its mode is one of Table 5.8 (R156), that of its attitude none, float or
fixed. -/
structure Dev.Solves (d e : Dev) : Prop extends Dev.Ranged d e where
  solved : e.gnss.solved = true
  mode : e.gnss.mode ≤ 4
  attitude : e.gnss.attitude ≤ 2

theorem solves_of_shown {d a e : Dev} (h : d.Solves a) (k : a.Shown e) : d.Solves e :=
  ⟨ranged_trans h.toRanged k.toRanged, k.solved.trans h.solved, k.mode ▸ h.mode, k.attitude ▸ h.attitude⟩

theorem shown_of_gnssFree {d e : Dev} {v : Nat} (h : d.gnssFree = (v, e)) : d.Shown e := by
  cases h
  exact fresh_shown d

/-- A solution that completes in time: the checks and the attitude leave what Dev.Ranged names, the solution's record then stands,
and what follows it, positions to UTC, shows the same solution. -/
theorem solutionComplete_solves {d : Dev} (hr : d.gnss.running = true) (hg : d.gnss.solving = true) (hs : d.gnss.solved = false)
    (ht : d.sinceT0 < 2000000) : d.Solves d.solutionComplete := by
  have works : ¬(!d.gnss.running || !d.gnss.solving || d.gnss.solved || decide (2000000 ≤ d.sinceT0)) = true := by
    simp [hr, hg, hs, ht]
  unfold Dev.solutionComplete
  rw [if_neg works]
  extract_lets a
  split
  next v b hb =>
  split
  next w c hc =>
  extract_lets old none0 stream station moved att
  have tilted : c.Ranged att := attitudeStep_ranged c
  have att_le : att.gnss.attitude ≤ 2 := attitudeStep_attitude_le c
  clear_value moved station stream none0 att
  split
  next mode held hm =>
  extract_lets sol pos agr modeEv lossEv latch
  have checked : d.Shown c := shown_trans (integrity_shown d) (shown_trans (shown_of_gnssFree hb) (shown_of_gnssFree hc))
  have mode_le : (mode, held).1 ≤ 4 := by
    rw [← hm]
    split
    · decide
    · split
      · exact rtk_mode_le _ _ _ _ _
      · decide
  have stands : d.Solves sol :=
    ⟨ranged_trans checked.toRanged (ranged_trans tilted (modGnss_ranged _ _)), rfl, mode_le, att_le⟩
  have placed : sol.Shown pos := shown_ite (shown_refl sol) (positionStep_shown sol)
  have agreed : pos.Shown agr := agreement_shown _ pos
  have mode_told : agr.Shown modeEv := shown_ite (raise_shown _ (by decide) _ agr) (shown_refl agr)
  have loss_told : modeEv.Shown lossEv := shown_ite (raise_shown _ (by decide) _ modeEv) (shown_refl modeEv)
  have latched : lossEv.Shown latch := shown_trans (gnssLatch_shown _ lossEv) (fresh_shown _)
  have shows : sol.Shown latch := shown_trans (shown_trans placed agreed) (shown_trans (shown_trans mode_told loss_told) latched)
  exact solves_of_shown (solves_of_shown stands shows) (shown_ite (shown_refl latch) (learnUtc_shown _ _ latch))

theorem solutionComplete_idle {d : Dev} (h : d.gnss.running = false ∨ d.gnss.solving = false) : d.solutionComplete = d := by
  refine if_pos ?_
  rcases h with h | h <;> simp [h]

/-! ### The deadline (R153) -/

theorem solutionDeadline_idle {d : Dev} (h : d.gnss.running = false ∨ d.gnss.solving = false) : d.solutionDeadline = d := by
  refine if_pos ?_
  rcases h with h | h <;> simp [h]

section
variable {d x : Dev} (hr : d.gnss.running = true) (hg : d.gnss.solving = true) (ht : 2000000 ≤ d.sinceT0)
  (hx : x = d.modGnss (fun g => { g with solving := false, solved := false }))
include hr hg ht hx

theorem solutionDeadline_solved (hs : d.gnss.solved = true) :
    d.solutionDeadline = x.gnssPoints.channelPoints (BitVec.ofNat 32 x.gnssPoints.frame.t0) := by
  rw [hx, Dev.solutionDeadline, if_neg (by simp [hr, hg, ht])]
  dsimp only
  rw [if_pos hs]

theorem solutionDeadline_abandons (hs : d.gnss.solved = false) {y z : Dev}
    (hy : y = (List.range' 1024 104).foldl (fun u i =>
      if Bits.get (fun _ => ({} : Point)) u.image.live i = {} then u else u.degrade i 1) (x.gnssLatch none))
    (hz : z = y.raise 0x050A 1 (Bits.le 4 y.frame.number)) :
    d.solutionDeadline = z.channelPoints (BitVec.ofNat 32 z.frame.t0) := by
  rw [hz, hy, hx, Dev.solutionDeadline, if_neg (by simp [hr, hg, ht])]
  dsimp only
  rw [if_neg (by simp [hs])]

end

/-! ### Corrections (R162, R164) and the stores (R167, R241) -/

theorem corrDatagram_portDown {d : Dev} {i : Nat} (p : Nat) (bs : List Byte) (h : d.portUp (2 + i) = false) :
    d.corrDatagram i p bs = d := if_pos (by simp [h])

theorem corrDatagram_portUp {d : Dev} {i : Nat} (p : Nat) (bs : List Byte) (h : d.portUp (2 + i) = true) :
    d.corrDatagram i p bs = (Bits.upTo 4).foldl (fun x k =>
      if x.gPar (0x10 + 4 * k) == 1 && x.gPar (0x11 + 4 * k) == p && (x.gPar (0x12 + 4 * k)).testBit i then
        (x.corrBytes k bs).2 else x) d := if_neg (by simp [h])

theorem corrStale_due {d : Dev} {k a : Nat} {c : Corr} (hc : c = d.gnss.streams.getD k {}) (ha : c.age d.time.now = some a)
    (hs : c.stale = false) (hm : 1000000000 * d.gPar 0xC < a) :
    d.corrStale k = (d.modGnss (fun g => { g with streams := Bits.setAt g.streams k { c with stale := true } })).raiseI 0x0506 1 k
      (Bits.le 1 k ++ Bits.le 4 (a / 1000000)) := by
  simp only [Dev.corrStale, ← hc, ha]
  exact if_pos (by simp [hs, hm])

theorem gnssStoreWrite_due {d : Dev} (hr : d.gnss.running = true) (h : 600000000000 ≤ d.time.now - d.gnss.storeAt) :
    d.gnssStoreWrite = d.gnssStore := if_pos (by simp [hr, h])

theorem refineStore_due {d : Dev} (hp : d.parB 0x10 9 = true) (h : 600000000000 ≤ d.time.now - d.solver.refine.storeAt) :
    d.refineStore = { d with
      solver := { d.solver with refine := { d.solver.refine with storeAt := d.time.now } },
      nvm := { d.nvm with refined := some d.solver.refine.values } } := if_pos (by simp [hp, h])

/-- Settles O31: a solution by whether it runs, completes in time or meets its deadline; corrections and stores by their guards. -/
theorem gnssSolutionAndCorrectionsAct : Obligations.GnssSolutionAndCorrectionsAct := by
  unfold Obligations.GnssSolutionAndCorrectionsAct
  refine ⟨fun s t d hd hu => ?_, fun s t d hd hu => ?_⟩
  · have completes {e : Dev} (he : d.solutionComplete = e) : exec (.gnssSolutionComplete t) s = .next (s.left e) :=
      exec_whenRuns (i := .gnssSolutionComplete t) rfl rfl hd hu he
    have ends {e : Dev} (he : d.solutionDeadline = e) : exec (.gnssSolutionDeadline t) s = .next (s.left e) :=
      exec_whenRuns (i := .gnssSolutionDeadline t) rfl rfl hd hu he
    refine ⟨fun h => ⟨completes (solutionComplete_idle h), ends (solutionDeadline_idle h)⟩, fun hr hg hs ht => ?_,
      fun x hr hg ht hx => ⟨fun hs => ends (solutionDeadline_solved hr hg ht hx hs), fun hs y z hy hz => ?_⟩⟩
    · obtain ⟨⟨frame, cfg, engine, island, image⟩, solved, mode, attitude⟩ := solutionComplete_solves hr hg hs ht
      exact ⟨_, completes rfl, solved, mode, attitude, frame, cfg, engine, island, image⟩
    · exact ends (solutionDeadline_abandons hr hg ht hx hs hy hz)
  · refine ⟨fun i p bs hi hp hb h => ?_, fun i p bs hi hp hb h => ?_, fun k a c hk hc ha hs hm => ?_, fun hr h => ?_, fun hp h => ?_⟩
    · exact exec_whenRuns (i := .correctionDatagram t i p bs) rfl (by simp [Instr.wf, hi, hp, hb]) hd hu (corrDatagram_portUp p bs h)
    · exact exec_whenRuns (i := .correctionDatagram t i p bs) rfl (by simp [Instr.wf, hi, hp, hb]) hd hu (corrDatagram_portDown p bs h)
    · exact exec_whenRuns (i := .correctionsStale t k) rfl (decide_eq_true hk) hd hu (corrStale_due hc ha hs hm)
    · exact exec_whenRuns (i := .gnssStoreWrite t) rfl rfl hd hu (gnssStoreWrite_due hr h)
    · exact exec_whenRuns (i := .refinedModelStoreWrite t) rfl rfl hd hu (refineStore_due hp h)

end Sys2Proof.Machine
end

section
/-! PROOFS. The timers of fusion (06 R175, R185, R186, R201). -/

namespace Sys2Proof.Machine

open Sys2Proof

/-! ### References that expire and are readmitted (R175, R186) -/

theorem maxgap_due {d : Dev} {r : Nat} (hr : r < 16) (hf : d.fusion.running = true) (ho : (d.ref r).state ≠ .off)
    (hu : (d.ref r).state ≠ .unavailable) (h : 1000000 * d.slotPar r 0xB ≤ d.time.now - (d.ref r).takenAt) :
    d.maxgap r = d.refGone r := if_pos ⟨hf, hr, ho, hu, h⟩

theorem readmit_due {d : Dev} {c r z : Nat} (hz : (d.ref r).passSince = some z) (hm : r ∈ d.members c)
    (hs : (d.ref r).state = .rejected ∨ (d.ref r).state = .probation) (h : 1000000000 * d.fPar 0xB ≤ d.time.now - z) :
    d.readmit c r = (d.modRef r (fun y => { y with state := .admitted, passSince := none })).raiseI 0x0602 0 (256 * c + refShown r)
      (Bits.le 1 c ++ Bits.le 1 (refShown r)) := by
  rw [Dev.readmit, hz]
  exact if_pos ⟨List.contains_iff_mem.2 hm, hs, h⟩

/-! ### Conflicts (R185) -/

theorem conflictExpired_due {d : Dev} {c : Nat} {k : Conflict} (hk : (d.cls c).conflict = some k) (he : k.expired = false)
    (h : 1000000000 * d.fPar 0xA ≤ d.time.now - k.since) :
    d.conflictExpired c = (d.modCls c (fun y => { y with conflict := some { k with expired := true } })).raiseI 0x0605 2 c
      (Bits.le 1 c ++ Bits.le 1 (match k.used with | some u => refShown u | none => 0xFF)) := by
  rw [Dev.conflictExpired, hk]
  exact if_pos (by simp [he, h])

/-- The class goes on both references of the pair (Dev.useAll). -/
theorem conflictCleared_due {d x : Dev} {c z : Nat} {k : Conflict} (hk : (d.cls c).conflict = some k) (hz : k.agreeSince = some z)
    (h : 1000000000 * d.fPar 0xB ≤ d.time.now - z) (hx : x = (d.modCls c (fun y => { y with conflict := none })).useAll c [k.a, k.b]) :
    d.conflictCleared c = x.raiseI 0x0604 0 c (Bits.le 1 c ++ Bits.le 4 ((x.rawT0 - k.since) / 1000000)) := by
  rw [Dev.conflictCleared, hk, hx]
  dsimp only
  rw [hz]
  exact if_pos h

/-! ### Settling (R201) -/

theorem fusionSettled_due {d : Dev} (hr : d.fusion.running = true) (hi : d.fusion.initialised = true) (hs : d.fusion.settled = false)
    (hf : 250 ≤ d.fusion.frames)
    (hp : ∀ i, i = 8 ∨ i = 9 → (d.fusion.record.getD i 0).toInt * 1000 < (d.fPar 0xF : Int) * 65536)
    (hh : (d.fusion.record.getD 10 0).toInt * 1000 < (d.fPar 0x10 : Int) * 4194304) :
    d.fusionSettled = (d.modFusion (fun y => { y with settled := true })).raise 0x060F 0 (Bits.le 4 d.frame.number) :=
  if_pos ⟨hr, hi, by simp [hs], hf, hp 8 (.inl rfl), hp 9 (.inr rfl), hh⟩

/-- Settles O32: each timer acts by its own lemma once its guard holds. -/
theorem fusionTimersAct : Obligations.FusionTimersAct := by
  unfold Obligations.FusionTimersAct
  intro s t c r d hd hu hc
  refine ⟨fun hr hf ho hg h => ?_, fun k hk he h => ?_, fun k z x hk hz h hx => ?_, fun z hr hz hm hs h => ?_,
    fun hr hi hs hf hp hh => ?_⟩
  · exact exec_whenRuns (i := .refMaxgapExpiry t r) rfl (decide_eq_true hr) hd hu (maxgap_due hr hf ho hg h)
  · exact exec_whenRuns (i := .conflictExpired t c) rfl (decide_eq_true hc) hd hu (conflictExpired_due hk he h)
  · exact exec_whenRuns (i := .conflictCleared t c) rfl (decide_eq_true hc) hd hu (conflictCleared_due hk hz h hx)
  · exact exec_whenRuns (i := .referenceReadmit t c r) rfl (by simp [Instr.wf, hc, hr]) hd hu (readmit_due hz hm hs h)
  · exact exec_whenRuns (i := .fusionSettled t) rfl rfl hd hu (fusionSettled_due hr hi hs hf hp hh)

end Sys2Proof.Machine
end

section
/-! PROOFS. Requests that give the solver its mode, target and stick (07 R233 to R239). -/

namespace Sys2Proof.Machine

open Sys2Proof

/-! ### MODE_SET (R233, R252) -/

theorem alike_solver {a b : Dev} (h : a.alike b) : a.solver = b.solver := by
  unfold Dev.alike at h
  rw [← h]

/-- No mode request stands when the operation of an admitted request begins. -/
theorem begun_modeReq {op : Byte} {r : Req} {d : Dev} (ha : d.admits op r = true) : (d.begun op r).solver.modeReq = none := by
  obtain ⟨idle, _⟩ := admits_idle ha
  rw [alike_solver (begun_blocks op r d idle), heard_keeps]
  simp only [Dev.idle, Bool.and_eq_true, Option.isNone_iff_eq_none] at idle
  simp only [idle]

/-- A mode that the life cycle, the masses and the full scales of the stick allow is requested, where no request stands. -/
theorem modeSetOp_requests {b : Dev} {r : Req} {tag : BitVec 6} {m : Mode} (hm : modeOf r.tgt = some m) (hn : b.solver.modeReq = none)
    (hl : m = .idle ∨ ((b.life.state = .commission ∨ b.life.state = .service) ∧ b.massesSet = true))
    (hs : m.stick = true → b.sPar 0x14 ≠ 0 ∧ b.sPar 0x15 ≠ 0) (hj : m = .joystick → b.sPar 0x16 ≠ 0) :
    b.modeSetOp tag r =
      deferred { b with solver := { b.solver with modeReq := some { mode := m, tag := some tag, since := b.time.now } } }
        (some 10000000000) := by
  have lifeAllows : ¬(m ≠ .idle ∧ b.life.state ≠ .commission ∧ b.life.state ≠ .service) := by
    rintro ⟨moves, notCommission, notService⟩
    obtain idle | ⟨commission | service, _⟩ := hl
    · exact moves idle
    · exact notCommission commission
    · exact notService service
  have massesAllow : ¬(m ≠ .idle ∧ !b.massesSet) := by
    rintro ⟨moves, unset⟩
    obtain idle | ⟨_, masses⟩ := hl
    · exact moves idle
    · rw [masses] at unset
      cases unset
  have stickAllows : ¬((m.stick && (b.sPar 0x14 == 0 || b.sPar 0x15 == 0)) || (m == .joystick && b.sPar 0x16 == 0)) = true := by
    simp only [Bool.or_eq_true, Bool.and_eq_true, beq_iff_eq]
    rintro (⟨stick, surge | sway⟩ | ⟨joystick, yaw⟩)
    · exact (hs stick).1 surge
    · exact (hs stick).2 sway
    · exact hj joystick yaw
  rw [Dev.modeSetOp, hm]
  dsimp only
  rw [if_neg lifeAllows, if_neg massesAllow, if_neg stickAllows, if_neg (by rw [hn]; decide)]
  rfl

theorem modeSet_runOp (r : Req) (b : Dev) : b.runOp (0x30 : Byte).toNat r = b.modeSetOp r.tag r := by
  simp [Dev.runOp, zeroTargetOps]

/-! ### TARGET_SET (R235) -/

/-- What TARGET_SET makes of the target o: position and heading where its flags name them, course, speed and TRACK always. -/
def targetOver (o : Target) (p : List Byte) : Target :=
  let fl := Bits.byteAt p 20
  { north := if fl.testBit 0 then Bits.atI p 0 4 * 1048576 else o.north,
    east := if fl.testBit 0 then Bits.atI p 4 4 * 1048576 else o.east,
    heading := if fl.testBit 1 then Bits.atI p 8 4 * 1024 else o.heading, course := Bits.atI p 12 4, speed := Bits.atI p 16 4,
    posValid := fl.testBit 0 || o.posValid, hdgValid := fl.testBit 1 || o.hdgValid, track := fl.testBit 2 }

/-- A target whose angles, speed, flags and reserved bytes are in range is staged: over the one staged in this frame, or else over
the one requested. -/
theorem targetSetOp_stages {b : Dev} {r : Req} (ht : r.tgt = 0) (h0 : 0 ≤ Bits.atI r.payload 8 4)
    (h1 : Bits.atI r.payload 8 4 < 360 * 4194304) (c0 : 0 ≤ Bits.atI r.payload 12 4) (c1 : Bits.atI r.payload 12 4 < 360 * 4194304)
    (s0 : 0 ≤ Bits.atI r.payload 16 4) (s1 : Bits.atI r.payload 16 4 ≤ 3 * 16777216) (hf : Bits.byteAt r.payload 20 < 8)
    (hz : ∀ k, k < 11 → Bits.byteAt r.payload (21 + k) = 0) :
    b.targetSetOp r = done { b with
      solver := { b.solver with staged := some (targetOver (b.solver.staged.getD b.solver.wanted) r.payload) } } := by
  have reserved : (Bits.upTo 11).find? (fun k => Bits.byteAt r.payload (21 + k) != 0) = none := by
    refine List.find?_eq_none.2 (fun k hk => ?_)
    rw [hz k (List.mem_range.1 hk)]
    decide
  rw [Dev.targetSetOp]
  simp only [ht, h0, h1, c0, c1, s0, s1, decide_true, Bool.and_self, Bool.not_true, Bool.false_eq_true, ne_eq, not_true_eq_false,
    if_false, if_neg (Nat.not_le.2 hf), reserved]
  rfl

theorem targetSet_runOp {r : Req} (ht : r.tgt = 0) (b : Dev) : b.runOp (0x31 : Byte).toNat r = b.targetSetOp r := by
  simp [Dev.runOp, ht]

/-! ### JOYSTICK_SET (R238, R239) -/

theorem joystickOp_takes {b : Dev} {r : Req} (ht : r.tgt = 0) (hz : Bits.at' r.payload 6 2 = 0) :
    b.joystickOp r = done { b with
      solver := { b.solver with
        stickNext := some (Bits.atI r.payload 0 2, Bits.atI r.payload 2 2, Bits.atI r.payload 4 2), joyAt := b.time.now } } :=
  if_neg (by rw [ht, hz]; decide)

theorem joystickSet_runOp {r : Req} (ht : r.tgt = 0) (b : Dev) : b.runOp (0x32 : Byte).toNat r = b.joystickOp r := by
  simp [Dev.runOp, ht]

/-- Settles O10: what each of the three operations leaves, none of it the channel's (`accepted_of_run`, `served_of_run`). -/
theorem controlRequestsSetModeTargetAndStick : Obligations.ControlRequestsSetModeTargetAndStick := by
  unfold Obligations.ControlRequestsSetModeTargetAndStick
  intro s t r d hd hw
  refine ⟨fun b m hb ha hm hl hs hj => ?_, fun b o p fl hb ho hp hfl ha ht h0 h1 c0 c1 s0 s1 hf hz g hg => ?_,
    fun b p hb hp ha ht hz k hk => ?_⟩
  · have standsAlone : b.solver.modeReq = none := by
      rw [hb]
      exact begun_modeReq ha
    have run := (modeSet_runOp r b).trans (modeSetOp_requests hm standsAlone hl hs hj)
    exact accepted_of_run (i := .modeSet t r) rfl hw hd hb ha _ (some 10000000000) run rfl rfl rfl rfl rfl
  · subst ho hp hfl hg
    have run := (targetSet_runOp ht b).trans (targetSetOp_stages ht h0 h1 c0 c1 s0 s1 hf hz)
    exact served_of_run (i := .targetSet t r) rfl hw hd hb ha _ run rfl rfl rfl rfl rfl
  · subst hp hk
    have run := (joystickSet_runOp ht b).trans (joystickOp_takes ht hz)
    exact served_of_run (i := .joystickSet t r) rfl hw hd hb ha _ run rfl rfl rfl rfl rfl

end Sys2Proof.Machine
end

section
/-! PROOFS. A what-if ends its group (08 R258, R263, R264, R267). -/

namespace Sys2Proof.Machine

open Sys2Proof

/-! ### What the evaluation of a what-if leaves alone -/

/-- The output of a what-if has been judged from d to e: the analysis, the parameters and the frame stand. -/
structure Dev.Judged (d e : Dev) : Prop where
  conseq : e.conseq = d.conseq
  cfg : e.cfg = d.cfg
  frame : e.frame = d.frame

theorem judged_refl (d : Dev) : d.Judged d := ⟨rfl, rfl, rfl⟩

theorem judged_trans {a b c : Dev} (h : a.Judged b) (k : b.Judged c) : a.Judged c :=
  ⟨k.conseq.trans h.conseq, k.cfg.trans h.cfg, k.frame.trans h.frame⟩

theorem judged_foldl {α β : Type} {f : α × Dev → β → α × Dev} (h : ∀ (a : α × Dev) b, a.2.Judged (f a b).2) (l : List β) (a : α × Dev) :
    a.2.Judged (l.foldl f a).2 :=
  List.foldlRecOn l f (judged_refl a.2) (fun x hx b _ => judged_trans hx (h x b))

theorem raiseI_judged (code : Nat) {sev : Nat} (h : sev ≠ 4) (inst : Nat) (data : List Byte) (d : Dev) :
    d.Judged (d.raiseI code sev inst data) := by
  rw [raiseI_recorded code h inst data d]
  exact ⟨rfl, rfl, rfl⟩

/-- A quotient takes at most a free value. -/
theorem percent_judged (num den : Int) (d : Dev) : d.Judged (d.percent num den).2 := by
  unfold Dev.percent
  split
  · exact judged_refl d
  · exact ⟨rfl, rfl, rfl⟩

/-- A quotient for each thruster, then one for each section. -/
theorem utilisation_judged (w : WhatIf) (s base : Stage) (d : Dev) : d.Judged (d.utilisation w s base).2 := by
  unfold Dev.utilisation
  refine judged_trans (judged_foldl ?_ s.forces ((-1, 0), d)) (judged_foldl ?_ _ _)
  · exact fun a f => percent_judged _ _ a.2
  · exact fun a b => percent_judged _ _ a.2

theorem unbalance_judged (w : WhatIf) (s : Stage) (d : Dev) : d.Judged (d.unbalance w s).2 :=
  judged_trans (percent_judged _ _ _) (judged_trans (percent_judged _ _ _) (percent_judged _ _ _))

theorem satEvent_judged (slot : Nat) (was now : SatCount) (d : Dev) : d.Judged (d.satEvent slot was now) := by
  unfold Dev.satEvent
  split
  · exact raiseI_judged _ (by decide) _ _ d
  · exact judged_refl d

/-! ### The result of a group (R264) -/

/-- The code is 4 exactly where the what-if saturated, whatever its conditions and its utilisation. -/
theorem resultCode_range (n fails : Nat) (marginal : Prop) [Decidable marginal] {c : Nat}
    (hc : c = if n ≠ 0 then 4 else if fails ≠ 0 then 3 else if marginal then 2 else 1) : 1 ≤ c ∧ c ≤ 4 ∧ (c = 4 ↔ n ≠ 0) := by
  by_cases saturated : n ≠ 0
  · rw [if_pos saturated] at hc
    exact ⟨by omega, by omega, fun _ => saturated, fun _ => hc⟩
  · rw [if_neg saturated] at hc
    have conditions : 1 ≤ c ∧ c ≤ 3 := by
      rw [hc]
      split
      · exact ⟨by decide, by decide⟩
      · split
        · exact ⟨by decide, by decide⟩
        · exact ⟨by decide, by decide⟩
    exact ⟨by omega, by omega, fun four => by omega, fun h => absurd h saturated⟩

/-! ### WHATIF_COMPLETE -/

theorem whatifComplete_idle {d : Dev} (h : d.conseq.window = false ∨ d.conseq.current = none) : d.whatifComplete = d := by
  have nothing : (if d.conseq.window then d.conseq.current else none) = none := by
    rcases h with closed | idle
    · rw [closed]
      rfl
    · rw [idle, ite_self]
  rw [Dev.whatifComplete, nothing]

section
variable {d : Dev} {w : WhatIf} {f : List FactorStage} {a b : SatCount} {iter : Nat} {it : Iterate} {conv : Bool} {cost : Nat}
  (hw : d.conseq.window = true) (hc : d.conseq.current = some w) (hf : w.problem.factorise w.sat = (f, a))
  (hr : w.problem.run f w.epsP w.epsD w.most 0 w.point a = (iter, it, b, conv))
  (hk : cost = setupCycles w.base.length w.n w.m + factorCycles w.base.length w.n w.m + iter * iterCycles w.base.length w.n w.m)
include hw hc hf hr hk

theorem whatifComplete_early (h : w.progress + (d.windowCycles - d.conseq.spent) < cost + 2000) : d.whatifComplete = d := by
  simp only [Dev.whatifComplete, hw, if_true, hc, hf, hr, ← hk, if_pos h]

/-- The what-if has had its cycles: its result is held, its output and duals replace its group's, the analysis goes on. -/
theorem whatifComplete_due {e : Dev} (h : cost + 2000 ≤ w.progress + (d.windowCycles - d.conseq.spent))
    (he : e = d.modConseq (fun c => { c with spent := c.spent + (cost + 2000 - w.progress) })) :
    ∃ (x : Dev) (r : ConseqRes) (y : SolRec) (p : Plan),
      d.whatifComplete =
        ((x.modGroup w.group (fun g => { g with sol := y, prev := some p })).holdResult w.group r w.mainKey).conseqWork 64 ∧
      e.Judged x ∧
      r.start = w.start ∧ r.startFrame = w.startFrame ∧ r.stage0 = w.stage0 ∧ r.startRaw = w.startRaw ∧ r.iter = iter ∧
      p.key = w.key ∧ p.thrusters = w.thrusters ∧ p.sections = w.sections ∧ p.z = it.z ∧ p.y = it.y ∧
      p.stages = e.whatOut w it.x ∧
      1 ≤ r.result ∧ r.result ≤ 4 ∧ (r.result = 4 ↔ b.n ≠ 0) := by
  simp only [Dev.whatifComplete, hw, if_true, hc, hf, hr, ← hk, if_neg (Nat.not_lt.2 h), ← he]
  refine ⟨_, _, _, _, rfl, ?_, rfl, rfl, rfl, rfl, rfl, rfl, rfl, rfl, rfl, rfl, rfl, resultCode_range _ _ _ rfl⟩
  have judged (s base : Stage) := judged_trans (utilisation_judged w s base e) (unbalance_judged w s _)
  split
  · exact judged _ _
  · exact judged_trans (judged _ _) (judged_trans (satEvent_judged _ _ _ _) (raiseI_judged _ (by decide) _ _ _))

end

/-- Settles O20, by whether a what-if is in an open window and has had its cycles. -/
theorem whatifEndsItsGroup : Obligations.WhatifEndsItsGroup := by
  unfold Obligations.WhatifEndsItsGroup
  intro s t d hd hu
  have run {e : Dev} (he : d.whatifComplete = e) : exec (.whatifComplete t) s = .next (s.left e) :=
    exec_whenRuns (i := .whatifComplete t) rfl rfl hd hu he
  refine ⟨fun h => run (whatifComplete_idle h), fun w f a b iter it conv cost hw hc hf hr hk => ⟨fun h => ?_, fun h => ?_⟩⟩
  · exact run (whatifComplete_early hw hc hf hr hk h)
  · obtain ⟨x, r, y, p, ends, judged, result⟩ := whatifComplete_due hw hc hf hr hk h rfl
    exact ⟨x, r, y, p, run ends, judged.conseq, judged.cfg, judged.frame, result⟩

end Sys2Proof.Machine
end

section
/-! PROOFS. Raising an event changes its recorders alone (09 R291, 15 R452, R453, 16 R464). -/

namespace Sys2Proof.Machine

open Sys2Proof

/-- A fence that needs the lease does not happen to x, d but for its recorders, where d is without the lease; the probes may then
have been met. -/
theorem recorded_unless_fenced {d x fenced : Dev} {critical : Bool} {probes : List Probe} (h : d.clasp.lease = false)
    (k : d.recorded x) : d.recorded (if critical && x.clasp.lease then fenced else { x with probes := probes }) := by
  obtain ⟨_, _, _, _, clasp, _⟩ := recorded_keeps k
  rw [if_neg (by rw [clasp, h, Bool.and_false]; decide)]
  exact recorded_trans k (probes_recorded _ _)

/-- Without the lease an event of any severity, CRITICAL among them, changes the recorders alone: there is nothing to fence, and
the queue events that it sets off are below CRITICAL. -/
theorem raiseN_recorded_unleased (fuel kind code sev inst : Nat) (data : List Byte) {d : Dev} (h : d.clasp.lease = false) :
    d.recorded (d.raiseN fuel kind code sev inst data) := by
  cases fuel with
  | zero => exact recorded_refl d
  | succ fuel =>
    have taken := locketTake_recorded (d.record kind code sev inst data) d
    have entered := faultTake_recorded code (d.record kind code sev inst data).source sev
      (d.locketTake (d.record kind code sev inst data)).1
    have events (ev : List (Nat × Nat)) (x : Dev) := recorded_foldl
      (f := fun x (e : Nat × Nat) => Dev.raiseN fuel 0 e.1 (queueEventSev e.1) e.2 (Bits.le 1 e.2) x)
      (fun x e => raiseN_recorded fuel 0 e.1 (queueEventSev_ne_critical e.1) e.2 (Bits.le 1 e.2) x) ev x
    rw [Dev.raiseN.eq_def]
    dsimp only
    exact recorded_unless_fenced h (recorded_trans taken (recorded_trans entered (events _ _)))

/-- Settles O55: below CRITICAL an event fences nothing (`raiseI_recorded`), and without the lease there is nothing to fence. -/
theorem eventsChangeTheirRecordersAlone : Obligations.EventsChangeTheirRecordersAlone := by
  unfold Obligations.EventsChangeTheirRecordersAlone
  intro code sev inst data d e he unfenced
  subst he
  obtain belowCritical | unleased := unfenced
  · exact raiseI_recorded code belowCritical inst data d
  · exact raiseN_recorded_unleased 4 0 code sev inst data unleased

end Sys2Proof.Machine
end

section
/-! PROOFS. Requests that are accepted and finished later (09 R290, 11 R332, 13 R400, 15 R446, 17 R485 to R488). -/

namespace Sys2Proof.Machine

open Sys2Proof

/-! ### SELFTEST_RUN (R446) -/

theorem selftestRun_runOp (r : Req) (b : Dev) : b.runOp (0x90 : Byte).toNat r = b.selftestRunOp r.tag r := by
  simp [Dev.runOp, zeroTargetOps]

/-- A test of a domain there is, where none waits and nothing refuses it, waits for the next frame. -/
theorem selftestRunOp_waits {b : Dev} {r : Req} {tag : BitVec 6} (domain : r.tgt ≤ 4) (free : b.health.test = none)
    (allowed : b.testRefusal b.nextNo false = none) :
    b.selftestRunOp tag r =
      deferred { b with health := { b.health with test := some { domain := r.tgt, frame := b.nextNo, tag := some tag } } }
        (some 200000000) := by
  rw [Dev.selftestRunOp, if_neg (Nat.not_lt.2 domain), free, Option.isSome_none, allowed]

/-! ### ROLE_RELEASE (R399, R400) -/

theorem alike_clasp {a b : Dev} (h : a.alike b) : a.clasp = b.clasp := by
  unfold Dev.alike at h
  rw [← h]

/-- No release stands when the operation of an admitted request begins. -/
theorem begun_releasing {op : Byte} {r : Req} {d : Dev} (ha : d.admits op r = true) : (d.begun op r).clasp.releasing = .no := by
  obtain ⟨idle, _⟩ := admits_idle ha
  rw [alike_clasp (begun_blocks op r d idle), heard_keeps]
  simp only [Dev.idle, Bool.and_eq_true, beq_iff_eq] at idle
  simp only [idle]

theorem roleRelease_runOp {r : Req} (ht : r.tgt = 0) (b : Dev) : b.runOp (0x71 : Byte).toNat r = b.roleReleaseOp r.tag := by
  simp [Dev.runOp, ht]

/-- With a partner that is SYNCED and ELIGIBLE the release is due at t0+16 ms: of this frame, or of the next where this frame's
launch is too near. -/
theorem roleReleaseOp_due {b : Dev} {tag : BitVec 6} (synced : b.beatFlag 1 = true) (eligible : b.beatFlag 2 = true)
    (free : b.clasp.releasing = .no) :
    b.roleReleaseOp tag =
      deferred { b with
        clasp := { b.clasp with
          releasing := .due (if b.sinceT0 < 15800000 then b.frame.number else b.nextNo) (some tag) } } (some 200000000) := by
  rw [Dev.roleReleaseOp, if_neg (by rw [synced, eligible]; decide), if_neg (by rw [free]; decide)]
  rfl

/-! ### TIME_STEP (R332, notes/assumptions/27.md) -/

theorem timeStep_runOp (r : Req) (b : Dev) : b.runOp (0x61 : Byte).toNat r = b.timeStepOp r.tag r := by
  simp [Dev.runOp, zeroTargetOps]

/-- A step waits for its tick: by the offset of the selected source, or by an amount that leaves device time at zero or above. -/
theorem timeStepOp_waits {b : Dev} {r : Req} {tag : BitVec 6} {v : Option Int} {first : Nat} {behind : Bool}
    (hfirst : first = (b.frame.nextTick / 20000000 + Bits.b2n b.tickClosed) % 2 ^ 32)
    (hbehind : behind = decide (Bits.diff32 r.tgt first < 0))
    (amount : (v = none ∧ Bits.at' r.payload 0 8 = 2 ^ 63 ∧ b.time.source ≠ 0) ∨
      (v = some (Bits.atI r.payload 0 8) ∧ Bits.at' r.payload 0 8 ≠ 2 ^ 63 ∧ 0 ≤ (b.dev : Int) + Bits.atI r.payload 0 8)) :
    b.timeStepOp tag r =
      deferred { b with
        time := { b.time with
          steps := b.time.steps ++ [{
            tag := tag, step := v, frame := r.tgt, next := r.nextTick, closed := b.tickClosed, asap := behind,
            limit := ((if r.nextTick || behind then first else r.tgt) + 2) % 2 ^ 32 }] } } none := by
  subst hfirst hbehind
  rw [Dev.timeStepOp]
  obtain ⟨rfl, byOffset, selected⟩ | ⟨rfl, byAmount, fromZero⟩ := amount
  · have sourced : (b.time.source == 0) = false := beq_false_of_ne selected
    simp only [byOffset, beq_self_eq_true, sourced, Bool.and_false, Bool.not_true, Bool.false_and, Bool.false_eq_true, if_false,
      if_true]
  · have stated : (Bits.at' r.payload 0 8 == 2 ^ 63) = false := beq_false_of_ne byAmount
    have inRange : decide ((b.dev : Int) + Bits.atI r.payload 0 8 < 0) = false := decide_eq_false (Int.not_lt.2 fromZero)
    simp only [stated, inRange, Bool.and_false, Bool.false_and, Bool.false_eq_true, if_false]

/-! ### TRACE_ARM (R290) -/

theorem traceArm_runOp (r : Req) (b : Dev) : b.runOp (0x58 : Byte).toNat r = b.traceArmOp r.tag r := by
  simp [Dev.runOp, zeroTargetOps]

theorem stopProbe_idle {d : Dev} {n : Nat} (h : (d.probe n).live = false) (cause flag : Nat) (f : Fin) :
    d.stopProbe n cause flag f = d := by
  simp [Dev.stopProbe, h]

/-- A probe that is not live is armed with the payload: it fills where it keeps samples from before the trigger, and waits for the
trigger where it does not. -/
theorem traceArmOp_arms {b : Dev} {r : Req} {tag : BitVec 6} (ok : traceArmOk r = true) (idle : (b.probe r.tgt).live = false)
    (cool : b.health.x = 0) :
    b.traceArmOp tag r =
      deferred (b.modProbe r.tgt (fun _ => {
        payload := r.payload, state := if Bits.at' r.payload 14 2 = 0 then 2 else 1, tag := some tag,
        period := b.tracePeriod (Bits.byteAt r.payload 0) (Bits.at' r.payload 2 2) (Bits.at' r.payload 12 2) })) none := by
  rw [Dev.traceArmOp, ok, if_neg (by decide), if_neg (not_not_intro cool), stopProbe_idle idle]

/-! ### LIFECYCLE_ADVANCE (R485 to R488) -/

theorem lifecycleAdvance_runOp (r : Req) (b : Dev) : b.runOp (0xA1 : Byte).toNat r = b.lifecycleAdvanceOp r.tag r := by
  simp [Dev.runOp, zeroTargetOps]

/-- When the operation of an admitted request begins, no request of another tag stands. -/
theorem begun_only_tag {op : Byte} {r : Req} {d : Dev} (ha : d.admits op r = true) (p : Pend → Bool) :
    (d.begun op r).cmd.tags.any (fun q => q.req.tag != r.tag && p q) = false := by
  obtain ⟨idle, receives⟩ := admits_idle ha
  rw [(begun_carries op r d idle receives).tags]
  simp

/-- A transition that exists, of a unit whose role allows it and where no other change waits, stands once its challenge, and the
Hallmark, SERIAL and AUTH that it asks for, are right and the fields it does not ask for are zero. -/
theorem lifecycleAdvanceOp_stands {b : Dev} {r : Req} {tag : BitVec 6} {next : Life} {hall ser auth : Bool}
    (target : lifeOf r.tgt = some next) (edge : transition b.life.state next = some (hall, ser, auth))
    (role : b.advanceRole = none)
    (free : b.cmd.tags.any (fun q => q.req.tag != tag && (q.started && q.done.isNone && advanceBusy q.op)) = false)
    (challenge : Bits.at' r.payload 24 8 = b.life.challenge.toNat)
    (hallmark : if hall then Bits.at' r.payload 0 8 = b.cfg.hallmark.toNat else (r.payload.drop 0).take 8 = Bits.zeros 8)
    (serial : if ser then (r.payload.drop 8).take 16 = b.serial else (r.payload.drop 8).take 16 = Bits.zeros 16)
    (signed : if auth then Config.ecdsaOk (b.authDigest next) ((r.payload.drop 32).take 64) = true
      else (r.payload.drop 32).take 64 = Bits.zeros 64) :
    b.lifecycleAdvanceOp tag r = deferred { b with life := { b.life with advance := some (tag, next) } } (some 1000000000) := by
  have noOther : ¬b.cmd.tags.any (fun q => q.req.tag != tag && q.started && q.done.isNone && advanceBusy q.op) = true := by
    simpa only [Bool.and_assoc, Bool.not_eq_true] using free
  have hallmarkOk : ¬(if hall then Bits.at' r.payload 0 8 != b.cfg.hallmark.toNat
      else !((r.payload.drop 0).take 8 == Bits.zeros 8)) = true := by
    cases hall <;> simpa using hallmark
  have serialOk : ¬(if ser then (r.payload.drop 8).take 16 != b.serial
      else !((r.payload.drop 8).take 16 == Bits.zeros 16)) = true := by
    cases ser <;> simpa using serial
  have authOk : ¬(if auth then !(Config.ecdsaOk (b.authDigest next) ((r.payload.drop 32).take 64))
      else !((r.payload.drop 32).take 64 == Bits.zeros 64)) = true := by
    cases auth <;> simpa using signed
  simp only [Dev.lifecycleAdvanceOp, target, Option.bind_some, edge, Option.map_some, role]
  rw [if_neg noOther, if_neg (not_not_intro challenge), if_neg hallmarkOk, if_neg serialOk, if_neg authOk]
  rfl

/-- Settles O11: what each of the five operations leaves standing, none of it the channel's (`accepted_of_run`). -/
theorem deferredRequestsStand : Obligations.DeferredRequestsStand := by
  unfold Obligations.DeferredRequestsStand
  intro s t r d hd hw
  refine ⟨fun b hb ha domain free allowed => ?_, fun b f hb hf ha ht synced eligible => ?_,
    fun b v first behind hb hfirst hbehind ha amount q hq => ?_, fun b hb ha ok idle cool => ?_,
    fun b next hall ser auth hb ha target edge role challenge hallmark serial signed => ?_⟩
  · have run := (selftestRun_runOp r b).trans (selftestRunOp_waits domain free allowed)
    exact accepted_of_run (i := .selftestRun t r) rfl hw hd hb ha _ (some 200000000) run rfl rfl rfl rfl rfl
  · subst hf
    have free : b.clasp.releasing = .no := by
      rw [hb]
      exact begun_releasing ha
    have run := (roleRelease_runOp ht b).trans (roleReleaseOp_due synced eligible free)
    exact accepted_of_run (i := .roleRelease t r) rfl hw hd hb ha _ (some 200000000) run rfl rfl rfl rfl rfl
  · subst hq
    have run := (timeStep_runOp r b).trans (timeStepOp_waits hfirst hbehind amount)
    exact accepted_of_run (i := .timeStep t r) rfl hw hd hb ha _ none run rfl rfl rfl rfl rfl
  · have run := (traceArm_runOp r b).trans (traceArmOp_arms ok idle cool)
    exact accepted_of_run (i := .traceArm t r) rfl hw hd hb ha _ none run rfl rfl rfl rfl rfl
  · have free (p : Pend → Bool) : b.cmd.tags.any (fun q => q.req.tag != r.tag && p q) = false := by
      rw [hb]
      exact begun_only_tag ha p
    have run := (lifecycleAdvance_runOp r b).trans
      (lifecycleAdvanceOp_stands target edge role (free _) challenge hallmark serial signed)
    exact accepted_of_run (i := .lifecycleAdvance t r) rfl hw hd hb ha _ (some 1000000000) run rfl rfl rfl rfl rfl

end Sys2Proof.Machine
end

section
/-! PROOFS. PTP messages and the time inputs (11 R330, R335 to R338). -/

namespace Sys2Proof.Machine

open Sys2Proof

/-! ### PTP messages on a port (R336 to R338) -/

theorem ptpOn_portLive {d : Dev} {p : Nat} (h : d.ptpOn p = true) : d.portLive p = true :=
  (Bool.and_eq_true_iff.1 h).2

/-- Forwarding sends a message and leaves the PTP clock as it is. -/
theorem ptpForward_ptpOn (q : Nat) (m : PtpMsg) (d : Dev) (p : Nat) : (d.ptpForward q m).ptpOn p = d.ptpOn p := by
  unfold Dev.ptpForward
  split
  · rfl
  · rfl

theorem ptpForward_parN (q : Nat) (m : PtpMsg) (d : Dev) (dom f : Nat) : (d.ptpForward q m).parN dom f = d.parN dom f := by
  unfold Dev.ptpForward
  split
  · rfl
  · rfl

/-- A message of the peer delay, which no clock sends on (R337). -/
def ofPeerDelay : PtpMsg → Bool
  | .pdelayReq => true
  | .pdelayResp _ => true
  | _ => false

theorem ptpReceive_portDead {d : Dev} {p : Nat} (n : Nat) (m : PtpMsg) (h : d.portLive p = false) : d.ptpReceive p n m = d :=
  if_pos (by rw [h]; rfl)

/-- A message of the peer delay is not forwarded; the PTP clock takes one of its domain. -/
theorem ptpReceive_peerDelay {d : Dev} {p : Nat} (n : Nat) {m : PtpMsg} (hl : d.portLive p = true) (hm : ofPeerDelay m = true) :
    d.ptpReceive p n m = if d.ptpOn p && n == d.parN 0x20 0x11 then d.ptpTake p m else d := by
  cases m with
  | announce | sync | followUp => exact absurd hm Bool.false_ne_true
  | pdelayReq | pdelayResp => exact if_neg (by rw [hl]; decide)

/-- Any other message is forwarded first. -/
theorem ptpReceive_forwards {d : Dev} {p : Nat} (n : Nat) {m : PtpMsg} (hl : d.portLive p = true) (hm : ofPeerDelay m = false) :
    d.ptpReceive p n m =
      if d.ptpOn p && n == d.parN 0x20 0x11 then (d.ptpForward p m).ptpTake p m else d.ptpForward p m := by
  rw [← ptpForward_ptpOn p m d p, ← ptpForward_parN p m d]
  cases m with
  | announce | sync | followUp => exact if_neg (by rw [hl]; decide)
  | pdelayReq | pdelayResp => exact absurd hm.symm Bool.false_ne_true

section
variable {d : Dev} {p n : Nat} (hn : n = d.parN 0x20 0x11) (hon : d.ptpOn p = true)
include hn hon

theorem ptpReceive_takes_peerDelay {m : PtpMsg} (hm : ofPeerDelay m = true) : d.ptpReceive p n m = d.ptpTake p m := by
  rw [ptpReceive_peerDelay n (ptpOn_portLive hon) hm, hon, hn, beq_self_eq_true]
  rfl

theorem ptpReceive_takes_forwarded {m : PtpMsg} {a : Dev} (hm : ofPeerDelay m = false) (ha : a = d.ptpForward p m) :
    d.ptpReceive p n m = a.ptpTake p m := by
  rw [ptpReceive_forwards n (ptpOn_portLive hon) hm, hon, hn, beq_self_eq_true, ← ha]
  rfl

end

/-- A message of the peer delay of another domain does nothing. -/
theorem ptpReceive_peerDelay_otherDomain {d : Dev} {p k : Nat} {m : PtpMsg} (hon : d.ptpOn p = true) (hm : ofPeerDelay m = true)
    (hk : k ≠ d.parN 0x20 0x11) : d.ptpReceive p k m = d := by
  rw [ptpReceive_peerDelay k (ptpOn_portLive hon) hm, beq_false_of_ne hk, Bool.and_false]
  rfl

theorem ptpTake_followUp {a : Dev} {p arr : Nat} {c0 : Int} (o c : Int) (h : (a.net.ports.getD p {}).pending = some (c0, arr)) :
    a.ptpTake p (.followUp o c) = Dev.ptpSync p arr o (c0 + c) { a with
      net := { a.net with ports := Bits.modAt a.net.ports p (fun x => { x with pending := none }) } } := by
  rw [Dev.ptpTake, h]

/-! ### What a port sends, and the announce time-out (R338) -/

theorem ptpSend_sync {d : Dev} {p : Nat} (hon : d.ptpOn p = true) :
    d.ptpSend p .sync = if (d.net.ports.getD p {}).ptp == 6 then d.emit (.ptp p (.sync false d.dev 0)) else d := by
  rw [Dev.ptpSend, if_neg (by rw [hon]; decide)]

theorem ptpSend_announce {d : Dev} {p : Nat} (hon : d.ptpOn p = true) :
    d.ptpSend p .announce = if (d.net.ports.getD p {}).ptp == 6 then d.emit (.ptp p d.ptpAnnounced) else d := by
  rw [Dev.ptpSend, if_neg (by rw [hon]; decide)]

theorem ptpSend_pdelayReq {d : Dev} {p : Nat} (hon : d.ptpOn p = true) : d.ptpSend p .pdelayReq = d.emit (.ptp p .pdelayReq) := by
  rw [Dev.ptpSend, if_neg (by rw [hon]; decide)]

theorem announceLost_due {d : Dev} {p : Nat} (hon : d.ptpOn p = true)
    (h : 1000000000 * 2 ^ (d.parI 0x20 0x16).toNat * d.parN 0x20 0x17 ≤ d.time.now - (d.net.ports.getD p {}).annAt) :
    d.announceLost p = Dev.bmca { d with
      net := { d.net with ports := Bits.modAt d.net.ports p (fun y => { y with gm := none }) } } :=
  if_pos (by rw [hon, decide_eq_true h]; rfl)

/-! ### PPS_IN (R330, R335) -/

section
variable {d : Dev} {e : Bool} {a : Int} (hen : d.parB 0x20 0x0C = true) (he : e = (d.par 0x20 0x0D == 0#32))
  (hv : d.hw.vioOut.getLsbD 2 = false) (ha : a = (d.time.now : Int) - d.parI 0x20 0x0E)
include hen he hv ha

theorem ppsIn_first (h : d.pps.inLast = none) : d.ppsIn e = { d with pps := { d.pps with inLast := some a.toNat } } := by
  rw [Dev.ppsIn, hen, he, hv, bne_self_eq_false, if_neg (by decide), ← ha, h]

/-- An edge within 10 us of 1 s after the last one. -/
theorem ppsIn_good {k : Nat} (h : d.pps.inLast = some k) (hg : Bits.absI ((a.toNat : Int) - (k : Int) - 1000000000) ≤ 10000)
    (hvalid : d.timeValid = true) :
    d.ppsIn e = { d with
      pps := { d.pps with inLast := some a.toNat, inBad := 0, inLen := a.toNat - k, inValid := true } } := by
  rw [Dev.ppsIn, hen, he, hv, bne_self_eq_false, if_neg (by decide), ← ha, h]
  dsimp only
  rw [decide_eq_true hg, hvalid]
  rfl

/-- The third interval in a row that is further from 1 s. -/
theorem ppsIn_thirdBad {k : Nat} (h : d.pps.inLast = some k) (hb : 10000 < Bits.absI ((a.toNat : Int) - (k : Int) - 1000000000))
    (h2 : d.pps.inBad = 2) :
    d.ppsIn e = Dev.raise 0x0B10 1 [] { d with
      pps := { d.pps with inLast := some a.toNat, inBad := 3, inValid := false } } := by
  rw [Dev.ppsIn, hen, he, hv, bne_self_eq_false, if_neg (by decide), ← ha, h]
  dsimp only
  rw [decide_eq_false (Int.not_le.2 hb), h2]
  rfl

end

/-- Settles O27: a message of the peer delay is taken as it comes, any other as forwarded; the time inputs by their own lemmas. -/
theorem timeInputsAndPtpAct : Obligations.TimeInputsAndPtpAct := by
  unfold Obligations.TimeInputsAndPtpAct
  refine ⟨fun s t p n d hd hu hp h256 hn hon => ?_,
    fun s t d hd hu => ⟨fun e l a hen he hv ha => ?_, fun h => ?_, fun h => ?_, fun h => ?_⟩⟩
  · have received {q k : Nat} {m : PtpMsg} {e : Dev} (hq : q < 4) (hk : k < 256) (hm : m.wf = true) (he : d.ptpReceive q k m = e) :
        exec (.ptpMessageReceived t q ⟨k, m⟩) s = .next (s.left e) :=
      exec_whenRuns (i := .ptpMessageReceived t q ⟨k, m⟩) rfl (by simp [Instr.wf, hq, hk, hm]) hd hu he
    have sent {k : PtpSend} {e : Dev} (he : d.ptpSend p k = e) : exec (.ptpMessageSend t p k) s = .next (s.left e) :=
      exec_whenRuns (i := .ptpMessageSend t p k) rfl (decide_eq_true hp) hd hu he
    refine ⟨fun o c a ha => ?_, fun o c a ha => ?_, fun o c c0 arr a b ha hw hb => ?_, ?_, fun k hk => ?_, fun q m hq hm hl => ?_,
      fun k hk hne => ?_, fun master => ⟨?_, ?_⟩, fun other => ⟨?_, ?_⟩, ?_, fun h => ?_⟩
    · exact received hp h256 rfl (ptpReceive_takes_forwarded hn hon rfl ha)
    · exact received hp h256 rfl (ptpReceive_takes_forwarded hn hon rfl ha)
    · subst hb
      exact received hp h256 rfl ((ptpReceive_takes_forwarded hn hon rfl ha).trans (ptpTake_followUp o c hw))
    · exact received hp h256 rfl (ptpReceive_takes_peerDelay hn hon rfl)
    · exact received hp h256 (decide_eq_true hk) (ptpReceive_takes_peerDelay hn hon rfl)
    · exact received hq h256 hm (ptpReceive_portDead n m hl)
    · exact received hp hk rfl (ptpReceive_peerDelay_otherDomain hon rfl (hn ▸ hne))
    · exact sent ((ptpSend_sync hon).trans (if_pos (beq_iff_eq.2 master)))
    · exact sent ((ptpSend_announce hon).trans (if_pos (beq_iff_eq.2 master)))
    · exact sent ((ptpSend_sync hon).trans (if_neg (mt beq_iff_eq.1 other)))
    · exact sent ((ptpSend_announce hon).trans (if_neg (mt beq_iff_eq.1 other)))
    · exact sent (ptpSend_pdelayReq hon)
    · exact exec_whenRuns (i := .announceTimeout t p) rfl (decide_eq_true hp) hd hu (announceLost_due hon h)
  · have edge {x : Dev} (hx : d.ppsIn e = x) : exec (.ppsInEdge t e) s = .next (s.left x) :=
      exec_whenRuns (i := .ppsInEdge t e) rfl rfl hd hu hx
    refine ⟨fun h => ?_, fun k h hl hg hvalid => ?_, fun k h hl hb h2 => ?_⟩
    · exact edge (ppsIn_first hen he hv ha h)
    · exact edge (ppsIn_good hen he hv ha h (hl ▸ hg) hvalid)
    · exact edge (ppsIn_thirdBad hen he hv ha h (hl ▸ hb) h2)
  · exact exec_whenRuns (f := Dev.ref10Bad) rfl rfl hd hu (if_pos h)
  · exact exec_whenRuns (f := Dev.ref10Bad) rfl rfl hd hu (if_neg (by rw [h]; decide))
  · exact exec_whenRuns (f := Dev.ref10Good) rfl rfl hd hu (if_pos h)

end Sys2Proof.Machine
end

section
/-! PROOFS. Launch queues, ports, relays and the ring (11 R341 to R349). -/

namespace Sys2Proof.Machine

open Sys2Proof

/-! ### Launch queues (R341, R342, R344) -/

/-- The head of a queue leaves once its time has come, behind what goes before it at its instant on a port of its own. -/
theorem launchDue_head {d : Dev} {q : Nat} {e : LaunchEnt} {l : List LaunchEnt} (h : d.net.launch.getD q [] = e :: l) :
    d.launchDue q = if e.due ≤ d.dev then
      ((d.launchOrder e).takeWhile (fun x => x != (q, e)) ++ [(q, e)]).foldl (fun x y => x.launchOne y.1 y.2) d else d := by
  rw [Dev.launchDue, h]

/-! ### Ports and the ring (R347) -/

theorem ringOpens_unreturned {d : Dev} (hc : d.net.ringOpen = false) (h : d.net.supA = none ∨ d.net.supB = none) :
    d.ringOpens = Dev.raise 0x0B0B 1 [] { d with net := { d.net with ringOpen := true, openSince := d.time.now } } := by
  refine if_pos ?_
  rcases h with none | none
  · rw [hc, none]
    rfl
  · rw [hc, none, Bool.or_true]
    rfl

theorem linkChange_up {d : Dev} {p : Nat} (h : (d.port p).link = false) :
    d.linkChange p true =
      ((d.modPort p (fun x => { x with link := true, gm := x.gm })).raiseI 0x0B0A 0 p (Bits.le 1 p)).bmca := by
  rw [Dev.linkChange, if_neg (by rw [h]; decide)]
  simp only [if_true]

theorem linkChange_down {d : Dev} {p : Nat} (h : (d.port p).link = true) :
    d.linkChange p false =
      ((d.modPort p (fun x => { x with link := false, gm := none })).raiseI 0x0B09 1 p (Bits.le 1 p)).bmca := by
  rw [Dev.linkChange, if_neg (by rw [h]; decide)]
  simp only [Bool.false_eq_true, if_false]

/-- Settles O28, event by event: forgetting and a relay that does not follow do what they say wherever the module runs. -/
theorem portsAndRingFollowTheirEvents : Obligations.PortsAndRingFollowTheirEvents := by
  unfold Obligations.PortsAndRingFollowTheirEvents
  intro s t d hd hu
  have launched {q : Nat} {e : Dev} (hq : q < 8) (he : d.launchDue q = e) : exec (.launchQueueLaunch t q) s = .next (s.left e) :=
    exec_whenRuns (i := .launchQueueLaunch t q) rfl (decide_eq_true hq) hd hu he
  have changed {p : Nat} {up : Bool} {e : Dev} (hp : p < 4) (he : d.linkChange p up = e) :
      exec (.portLinkChange t p up) s = .next (s.left e) :=
    exec_whenRuns (i := .portLinkChange t p up) rfl (decide_eq_true hp) hd hu he
  refine ⟨fun q e l hq h due => ?_, fun q e l hq h early => ?_, fun b hb x hx => ?_, fun hc h => ?_, fun keep hk => ?_,
    fun p hp h => ?_, fun p hp h => ?_, fun r hr => ?_⟩
  · exact launched hq ((launchDue_head h).trans (if_pos due))
  · exact launched hq ((launchDue_head h).trans (if_neg (Nat.not_le.2 early)))
  · subst hb hx
    exact exec_whenRuns (f := Dev.supervise) rfl rfl hd hu rfl
  · exact exec_whenRuns (f := Dev.ringOpens) rfl rfl hd hu (ringOpens_unreturned hc h)
  · subst hk
    exact exec_whenRuns (f := Dev.forget) rfl rfl hd hu rfl
  · exact changed hp (linkChange_up h)
  · exact changed hp (linkChange_down h)
  · exact exec_whenRuns (i := .bypassMismatch t r) rfl (decide_eq_true hr) hd hu rfl

end Sys2Proof.Machine
end

section
/-! PROOFS. The CAN controllers: reception, locks, mappings, attempts, receive errors and the recovery (12 R357 to R369). -/

namespace Sys2Proof.Machine

open Sys2Proof

/-! ### Frames received (R355, R357, R358) -/

/-- A frame that controller c does not take (R353, R355). -/
def Dev.canDeaf (c : Nat) (f : CanFrame) (d : Dev) : Bool :=
  decide (d.canMode c = 0) || (d.ctrl c).off || (f.fdf && d.canPar c 1 == 0#32) || d.hw.vioOut.getLsbD 0

/-- The receive error count after a good frame (R360). -/
def Dev.canGood (c : Nat) (d : Dev) : Dev :=
  if d.canMode c = 1 then (d.modCtrl c (fun k => { k with
    rxErr := if 127 < k.rxErr then 119 + Config.canRec % 9 else k.rxErr - 1 })).canErrState c else d

/-- A frame for buffer b waits in the one-frame slot, over the one that stood there (R357). -/
def Dev.canHold (c b : Nat) (f : CanFrame) (d : Dev) : Dev :=
  let e := d.modCtrl c (fun k => { k with
    slot := some { idw := canIdw f, esi := f.esi, held := true, buf := b, stamp := d.shortAt (d.time.now - f.sinceSof), data := f.data },
    dropped := if k.slot.isSome then k.dropped + 1 else k.dropped })
  match (d.ctrl c).slot with
  | some o => e.raiseI 0x0C06 0 (256 * c + o.buf) (Bits.le 1 c ++ Bits.le 1 o.buf)
  | none => e

theorem canDeaf_iff {c : Nat} {f : CanFrame} {d : Dev} :
    d.canDeaf c f = true ↔
      d.canMode c = 0 ∨ (d.ctrl c).off = true ∨ (f.fdf = true ∧ d.canPar c 1 = 0) ∨ d.hw.vioOut.getLsbD 0 = true := by
  simp only [Dev.canDeaf, Bool.or_eq_true, Bool.and_eq_true, decide_eq_true_eq, beq_iff_eq, or_assoc]
  rfl

theorem canDeaf_eq_false {c : Nat} {f : CanFrame} {d : Dev} (mode : d.canMode c ≠ 0) (on : (d.ctrl c).off = false)
    (format : f.fdf = false ∨ d.canPar c 1 ≠ 0) (bank : d.hw.vioOut.getLsbD 0 = false) : d.canDeaf c f = false := by
  refine Bool.eq_false_iff.2 fun deaf => ?_
  rcases canDeaf_iff.1 deaf with unused | off | ⟨fd, classic⟩ | out
  · exact mode unused
  · exact Bool.false_ne_true (on.symm.trans off)
  · exact format.elim (fun h => Bool.false_ne_true (h.symm.trans fd)) (fun h => h classic)
  · exact Bool.false_ne_true (bank.symm.trans out)

theorem canReceive_deaf {c : Nat} {f : CanFrame} {d : Dev} (h : d.canDeaf c f = true) : d.canReceive c f = d := if_pos h

section
variable {c : Nat} {f : CanFrame} {d : Dev} (taken : d.canDeaf c f = false)
include taken

/-- A frame that is taken: its place is found after the receive error count has changed. -/
theorem canReceive_taken :
    d.canReceive c f =
      if f.remote then (d.canGood c).modCtrl c (fun k => { k with remotes := k.remotes + 1 })
      else match (d.canGood c).canMatch c f with
        | none => (d.canGood c).modCtrl c (fun k => { k with unmatched := k.unmatched + 1 })
        | some b =>
          if (((d.canGood c).ctrl c).buf b).lock.isSome then (d.canGood c).canHold c b f
          else (d.canGood c).canMove c b f false ((d.canGood c).shortAt ((d.canGood c).time.now - f.sinceSof)) :=
  if_neg (Bool.eq_false_iff.1 taken)

theorem canReceive_remote (h : f.remote = true) :
    d.canReceive c f = (d.canGood c).modCtrl c (fun k => { k with remotes := k.remotes + 1 }) :=
  (canReceive_taken taken).trans (if_pos h)

theorem canReceive_unmatched (h : f.remote = false) (hm : (d.canGood c).canMatch c f = none) :
    d.canReceive c f = (d.canGood c).modCtrl c (fun k => { k with unmatched := k.unmatched + 1 }) := by
  rw [canReceive_taken taken, if_neg (Bool.eq_false_iff.1 h), hm]

theorem canReceive_unlocked {b : Nat} (h : f.remote = false) (hm : (d.canGood c).canMatch c f = some b)
    (hl : (((d.canGood c).ctrl c).buf b).lock = none) :
    d.canReceive c f =
      (d.canGood c).canMove c b f false ((d.canGood c).shortAt ((d.canGood c).time.now - f.sinceSof)) := by
  rw [canReceive_taken taken, if_neg (Bool.eq_false_iff.1 h), hm]
  exact if_neg (by rw [hl]; exact Bool.false_ne_true)

theorem canReceive_locked {b z : Nat} (h : f.remote = false) (hm : (d.canGood c).canMatch c f = some b)
    (hl : (((d.canGood c).ctrl c).buf b).lock = some z) : d.canReceive c f = (d.canGood c).canHold c b f := by
  rw [canReceive_taken taken, if_neg (Bool.eq_false_iff.1 h), hm]
  exact if_pos (by rw [hl]; rfl)

end

/-! ### Locks and mappings that time out (R357, R369) -/

theorem canLockTimeout_over {c b z : Nat} {d : Dev} (hl : ((d.ctrl c).buf b).lock = some z) (late : 20000 < d.time.now - z) :
    d.canLockTimeout c b = (d.canUnlock c b).raiseI 0x0C09 3 (256 * c + b) (Bits.le 1 c ++ Bits.le 1 b) := by
  rw [Dev.canLockTimeout, hl]
  exact if_pos late

theorem canLockTimeout_within {c b z : Nat} {d : Dev} (hl : ((d.ctrl c).buf b).lock = some z)
    (within : d.time.now - z ≤ 20000) : d.canLockTimeout c b = d := by
  rw [Dev.canLockTimeout, hl]
  exact if_neg (Nat.not_lt.2 within)

/-- A mapping that has run out: its point STALE, the first time with 0C0Bh. -/
def Dev.mapStale (e : Nat) (d : Dev) : Dev :=
  if (d.rxMap e).stale then d
  else ((d.degrade (d.parN 0x24 (0x802 + 4 * e)) 1).setRxMap e { d.rxMap e with stale := true }).raiseI 0x0C0B 1 e
    (Bits.le 2 e ++ Bits.le 4 (d.parN 0x24 (0x802 + 4 * e)))

theorem mapTimeout_due {e : Nat} {d : Dev} (enabled : (d.par 0x24 (0x800 + 4 * e)).getLsbD 15 = true)
    (alive : (d.rxMap e).alive = true) (limited : 0 < 1000000 * d.parN 0x24 (0x803 + 4 * e))
    (late : 1000000 * d.parN 0x24 (0x803 + 4 * e) ≤ d.boundaryAge (d.rxMap e).last) :
    d.mapTimeout e =
      if 4 * (1000000 * d.parN 0x24 (0x803 + 4 * e)) ≤ d.boundaryAge (d.rxMap e).last && !(d.rxMap e).bad then
        ((d.mapStale e).degrade (d.parN 0x24 (0x802 + 4 * e)) 3).setRxMap e { d.rxMap e with stale := true, bad := true }
      else d.mapStale e := by
  refine if_neg ?_
  simp [enabled, alive, Nat.pos_iff_ne_zero.1 limited, Nat.not_lt.2 late]

/-- Settles O33, command by command: what a frame meets, what the two reads of a buffer do, and the two time-outs. -/
theorem canFramesReachTheirBuffer : Obligations.CanFramesReachTheirBuffer := by
  unfold Obligations.CanFramesReachTheirBuffer
  refine ⟨fun s t c f d a hd hu hc hf ha => ?_, fun s t c b d hd hu hc h32 h64 => ?_⟩
  · subst ha
    have received {e : Dev} (he : d.canReceive c f = e) : exec (.canFrameReceived t c f) s = .next (s.left e) :=
      exec_whenRuns (i := .canFrameReceived t c f) rfl (by simp [Instr.wf, hc, hf]) hd hu he
    refine ⟨fun deaf => received (canReceive_deaf (canDeaf_iff.2 deaf)), fun mode on format bank => ?_⟩
    have taken := canDeaf_eq_false mode on format bank
    refine ⟨fun remote => received (canReceive_remote taken remote), fun data hm => received (canReceive_unmatched taken data hm),
      fun b data hm hl => received (canReceive_unlocked taken data hm hl), fun b z e data hm hl he => ?_⟩
    subst he
    exact received (canReceive_locked taken data hm hl)
  · have released {e : Dev} (he : d.canLockTimeout c b = e) : exec (.canLockTimeout t c b) s = .next (s.left e) :=
      exec_whenRuns (i := .canLockTimeout t c b) rfl (by simp [Instr.wf, hc, h32, h64]) hd hu he
    refine ⟨?lock, ?release, fun z hl late => released (canLockTimeout_over hl late),
      fun z hl within => released (canLockTimeout_within hl within), fun e lim i x he hlim hi enabled alive limited late hx => ?mapping⟩
    case lock => exact exec_whenRuns (i := .canBufferLock t c b) rfl (by simp [Instr.wf, hc, h32, h64]) hd hu rfl
    case release => exact exec_whenRuns (i := .canBufferRelease t c b) rfl (by simp [Instr.wf, hc, h32, h64]) hd hu rfl
    case mapping =>
      subst hlim hi hx
      exact exec_whenRuns (i := .rxmapTimeout t e) rfl (decide_eq_true he) hd hu (mapTimeout_due enabled alive limited late)

/-! ### Attempts that end (R359, R360) -/

/-- An attempt from a buffer that is not pending, out of turn, or in another mode than normal is none. -/
theorem canAttempt_none {c b u : Nat} {r : CanEnd} {d : Dev}
    (h : d.canMode c ≠ 1 ∨ ((d.ctrl c).buf b).state ≠ .pending ∨ (d.ctrl c).before b (d.time.now - u) = true) :
    d.canAttempt c b r u = d := by
  refine if_pos ?_
  rcases h with mode | state | before
  · simp [mode]
  · simp [state]
  · simp [before]

theorem canAttempt_made {c b u : Nat} {r : CanEnd} {d : Dev} (hb : b < 32) (mode : d.canMode c = 1)
    (pending : ((d.ctrl c).buf b).state = .pending) (first : (d.ctrl c).before b (d.time.now - u) = false) :
    d.canAttempt c b r u =
      match r with
      | .ok => d.canSent c b (d.time.now - u)
      | .ackError dom => d.canFail c b 3 true (dom || (d.ctrl c).err != .passive)
      | .error lec counted => d.canFail c b lec false counted := by
  refine if_neg ?_
  simp [mode, pending, first, hb]

/-! ### Receive errors and the recovery (R360, R364) -/

theorem canRxError_counts {c : Nat} {e : CanRxError} {d : Dev} (mode : d.canMode c ≠ 0) (on : (d.ctrl c).off = false) :
    d.canRxError c e =
      match e with
      | .plain lec => (d.modCtrl c (fun k => { k with
          lec := lec, rxErr := if d.canMode c = 1 then k.rxErr + 1 else k.rxErr })).canErrState c
      | .severe lec => (d.modCtrl c (fun k => { k with
          lec := lec, rxErr := if d.canMode c = 1 then k.rxErr + 8 else k.rxErr })).canErrState c := by
  have counted : ¬(decide (d.canMode c = 0) || (d.ctrl c).off) = true := by simp [mode, on]
  cases e with
  | plain lec => exact if_neg counted
  | severe lec => exact if_neg counted

/-- Settles O34, command by command: what ends an attempt, what a receive error counts, and what a recovery completes. -/
theorem canAttemptsAndErrorsCount : Obligations.CanAttemptsAndErrorsCount := by
  unfold Obligations.CanAttemptsAndErrorsCount
  refine ⟨fun s t c b u d x hd hu hc hb hx => ?_, fun s t c d hd hu hc => ?_⟩
  · subst hx
    have ended {r : CanEnd} (hr : r.wf = true) {e : Dev} (he : d.canAttempt c b r u = e) :
        exec (.canAttemptEnd t c b ⟨r, u⟩) s = .next (s.left e) :=
      exec_whenRuns (i := .canAttemptEnd t c b ⟨r, u⟩) rfl (by simp [Instr.wf, hc, hb, hr]) hd hu he
    refine ⟨fun mode pending first => ⟨fun e he => ?_, fun dom => ended rfl (canAttempt_made hb mode pending first),
      fun lec counted hr => ended hr (canAttempt_made hb mode pending first)⟩, fun r hr h => ended hr (canAttempt_none h)⟩
    subst he
    exact ended rfl (canAttempt_made hb mode pending first)
  · have errs {x : CanRxError} (hw : x.wf = true) {e : Dev} (he : d.canRxError c x = e) :
        exec (.canReceiveError t c x) s = .next (s.left e) :=
      exec_whenRuns (i := .canReceiveError t c x) rfl (by simp [Instr.wf, hc, hw]) hd hu he
    have recovers {e : Dev} (he : d.canRecovered c = e) : exec (.canRecoveryComplete t c) s = .next (s.left e) :=
      exec_whenRuns (i := .canRecoveryComplete t c) rfl (decide_eq_true hc) hd hu he
    refine ⟨fun lec h1 h7 mode on => ?_, fun e recovering he => ?_, fun other => recovers (if_neg other)⟩
    · have code : (decide (1 ≤ lec) && decide (lec < 7)) = true := by simp [h1, h7]
      exact ⟨errs (x := .plain lec) code (canRxError_counts mode on), errs (x := .severe lec) code (canRxError_counts mode on)⟩
    · subst he
      exact recovers (if_pos recovering)

end Sys2Proof.Machine
end

section
/-! PROOFS. Packets and lane messages as bytes: what is written at an offset is read there (02 R38 to R41, 13 R380). -/

namespace Sys2Proof

/-- Bytes 2 and 3 of a request: tag, reserved bits and flags. -/
def Req.tagWord (r : Req) : Nat := r.tag.toNat + 64 * r.rsv.toNat + 256 * r.flags.toNat

/-- The payload of a request and its CRC; nothing where there is no payload. -/
def Req.tail (r : Req) : List Byte := if r.payload.isEmpty then [] else r.payload ++ Machine.Bits.le 4 r.pcrc.toNat

end Sys2Proof

namespace Sys2Proof.Machine

open Sys2Proof

/-! ### Numbers in bytes -/

theorem fromLe_le (len n : Nat) : Bits.fromLe (Bits.le len n) = n % 256 ^ len := by
  induction len generalizing n with
  | zero => simp [Bits.le, Bits.fromLe, Nat.mod_one]
  | succ k ih =>
    rw [Bits.le, Bits.fromLe, ih, Nat.pow_succ', Nat.mod_mul]
    simp

/-- A number written after other bytes is read at their length. -/
theorem at'_append_le {a : List Byte} {off : Nat} (h : a.length = off) (len n : Nat) (c : List Byte) :
    Bits.at' (a ++ (Bits.le len n ++ c)) off len = n % 256 ^ len := by
  rw [Bits.at', List.drop_left' h, List.take_left' (le_length len n), fromLe_le]

/-- A word written after other bytes is read at their length. -/
theorem wordAt_append_le {a : List Byte} {off : Nat} (h : a.length = off) (w : Word) (c : List Byte) :
    Bits.wordAt (a ++ (Bits.le 4 w.toNat ++ c)) off = w := by
  rw [Bits.wordAt, at'_append_le h, Nat.mod_eq_of_lt (by exact w.isLt), BitVec.ofNat_toNat, BitVec.setWidth_eq]

/-- A list that begins with n bytes, cut to n. -/
theorem fit_append {a : List Byte} {n : Nat} (h : a.length = n) (c : List Byte) : Bits.fit n (a ++ c) = a := by
  have none_missing : n - (a ++ c).length = 0 := by rw [List.length_append]; omega
  rw [Bits.fit, List.take_left' h, none_missing, Bits.zeros, List.replicate_zero, List.append_nil]

/-! ### Request packets (Table 2.1) -/

theorem head_length (op : Byte) (r : Req) : (r.head op).length = 12 := by simp [Req.head, le_length]

/-- The fields of a packet in their order. -/
theorem packetBytes_fields (op : Byte) (r : Req) : packetBytes op r =
    [0xA5, op] ++ (Bits.le 2 (r.tagWord) ++ (Bits.le 4 r.len ++ (Bits.le 4 r.tgt ++ (Bits.le 4 (r.hcrc op).toNat ++ r.tail)))) := by
  simp only [packetBytes, Req.head, Req.tagWord, Req.tail, List.append_assoc]

/-- A packet as its header, the header's CRC and the rest. -/
theorem packetBytes_parts (op : Byte) (r : Req) : packetBytes op r = r.head op ++ (Bits.le 4 (r.hcrc op).toNat ++ r.tail) := by
  simp only [packetBytes, Req.tail, List.append_assoc]

/-- What the module reads from the packet of a request (Table 2.1). -/
theorem packetOf_packetBytes (op : Byte) {r : Req} (h : r.len < 2 ^ 32) : packetOf (packetBytes op r) =
    { version := 0xA5, op := op, tagWord := r.tagWord, len := r.len, target := r.target, hcrc := r.hcrc op, crcOk := true, rest := r.tail } := by
  have fields := packetBytes_fields op r
  have parts := packetBytes_parts op r
  have tagWord : Bits.at' (packetBytes op r) 2 2 = r.tagWord := by
    rw [fields, at'_append_le (by rfl)]
    have := r.tag.isLt; have := r.rsv.isLt; have := r.flags.isLt
    exact Nat.mod_eq_of_lt (by unfold Req.tagWord; omega)
  have len : Bits.at' (packetBytes op r) 4 4 = r.len := by
    rw [fields, ← List.append_assoc, at'_append_le (by simp [le_length])]
    exact Nat.mod_eq_of_lt h
  have target : Bits.wordAt (packetBytes op r) 8 = r.target := by
    rw [fields, ← List.append_assoc, ← List.append_assoc]
    exact wordAt_append_le (by simp [le_length]) _ _
  have hcrc : Bits.wordAt (packetBytes op r) 12 = r.hcrc op := by
    rw [parts]
    exact wordAt_append_le (head_length op r) _ _
  have head : Bits.fit 12 (packetBytes op r) = r.head op := by rw [parts, fit_append (head_length op r)]
  have rest : (packetBytes op r).drop 16 = r.tail := by
    rw [parts, ← List.append_assoc]
    exact List.drop_left' (by simp [head_length, le_length])
  have version : (packetBytes op r).getD 0 0 = 0xA5 := by rw [fields]; rfl
  have opcode : (packetBytes op r).getD 1 0 = op := by rw [fields]; rfl
  simp only [packetOf, version, opcode, tagWord, len, target, hcrc, head, rest, Req.hcrc, beq_self_eq_true]

theorem tagWord_tag (r : Req) : BitVec.ofNat 6 (r.tagWord) = r.tag := by unfold Req.tagWord; bv_omega
theorem tagWord_rsv (r : Req) : BitVec.ofNat 2 (r.tagWord / 64) = r.rsv := by unfold Req.tagWord; bv_omega
theorem tagWord_flags (r : Req) : BitVec.ofNat 8 (r.tagWord / 256) = r.flags := by unfold Req.tagWord; bv_omega

theorem tail_of_payload {r : Req} (h : r.payload ≠ []) : r.tail = r.payload ++ (Bits.le 4 r.pcrc.toNat ++ []) := by
  simp [Req.tail, h]

/-- The payload of a request is what the tail of its packet spells. -/
theorem fit_tail (r : Req) : Bits.fit r.len (r.tail) = r.payload := by
  by_cases h : r.payload = []
  · simp [Req.tail, Req.len, h, Bits.fit, Bits.zeros]
  · rw [tail_of_payload h]
    exact fit_append rfl _

/-- The payload CRC of a request holds. -/
theorem tail_payloadOk (r : Req) : (r.len == 0 || Bits.crc32c (Bits.fit r.len (r.tail)) == Bits.wordAt (r.tail) r.len) = true := by
  by_cases h : r.payload = []
  · simp [Req.len, h]
  · have crc : Bits.wordAt (r.tail) r.len = Bits.crc32c r.payload := by
      rw [tail_of_payload h, Req.len, wordAt_append_le rfl]
      simp [Req.pcrc, h]
    rw [fit_tail, crc, beq_self_eq_true, Bool.or_true]

theorem packetBytes_length (op : Byte) (r : Req) : (packetBytes op r).length = if r.len = 0 then 16 else 20 + r.len := by
  rw [packetBytes_parts, List.length_append, List.length_append, head_length, le_length]
  by_cases h : r.payload = []
  · simp [Req.tail, Req.len, h]
  · rw [tail_of_payload h, if_neg (by simpa [Req.len] using h)]
    simp [le_length, Req.len]
    omega

/-- Settles O49: each field is read at its offset, and the tail spells the payload under its CRC. -/
theorem requestPacketsReadBack : Obligations.RequestPacketsReadBack := by
  unfold Obligations.RequestPacketsReadBack
  intro op r p hw hp
  have short : r.len < 2 ^ 32 := by
    simp only [Req.wf, Bool.and_eq_true, decide_eq_true_eq] at hw
    exact hw.2
  rw [packetOf_packetBytes op short] at hp
  subst hp
  refine ⟨?_, rfl, rfl, rfl, rfl, rfl, tail_payloadOk r, (packetBytes_length op r).symm⟩
  simp only [Packet.req, tagWord_tag, tagWord_rsv, tagWord_flags, fit_tail]

/-! ### Lane messages (Table 13.11) -/

/-- A message whose length field is no multiple of 4 is not in format (R380). -/
theorem laneOf_unaligned {bs : List Byte} (h : Bits.at' bs 14 2 % 4 ≠ 0) : laneOf bs = none := by
  have bad : (Bits.at' bs 14 2 % 4 == 0) = false := beq_false_of_ne h
  simp only [laneOf, bad, Bool.and_false, Bool.false_and, Bool.false_eq_true, if_false]

/-- Refutes O50: it is stated of every payload, and laneOf takes only payloads of whole words: a message with a payload of one
byte is read as no message. -/
theorem not_laneMessagesReadBack : ¬ Obligations.LaneMessagesReadBack := by
  unfold Obligations.LaneMessagesReadBack
  intro h
  have read := h 2 0 0 0 1 [0] (by decide) (by decide) (by decide) (by decide) (by decide) (by decide)
  rw [laneOf_unaligned (by decide)] at read
  exact absurd read (by simp)

end Sys2Proof.Machine
end

section
/-! PROOFS. The step and the commands as a whole: each acts at its instant, out of range it has no effect of its own, and in a
module that does not run it takes no part (00, 17 R493 to R499). -/

namespace Sys2Proof.Machine

open Sys2Proof

/-! ### A step -/

theorem step_cons {s : State} {c : Instr} {rest : List Instr} (h : s.pending = c :: rest) :
    step s = exec c { s with pending := rest } := by
  rw [step, h]

theorem step_nil {s : State} (h : s.pending = []) : step s = .next s := by
  rw [step, h]

/-- Settles O1, by whether a command waits. -/
theorem stepRunsTheFrontCommand : Obligations.StepRunsTheFrontCommand := by
  unfold Obligations.StepRunsTheFrontCommand
  exact ⟨fun s c rest h => step_cons h, fun s h => step_nil h⟩

/-! ### Commands and their instants -/

/-- Every command but PASS_OVERRUN is some effect at its instant. -/
theorem exec_act (i : Instr) (h : ∀ t m, i ≠ .passOverrun t m) : ∃ f : Dev → Dev, ∀ s, exec i s = s.act i i.time f := by
  cases i with
  | passOverrun t m => exact absurd rfl (h t m)
  | _ => exact ⟨_, fun _ => rfl⟩

/-- PASS_OVERRUN is its effect in the pass that it meets. -/
theorem exec_passOverrun_act (t m : Nat) (s : State) :
    exec (.passOverrun t m) s = s.actInPass (.passOverrun t m) t (Dev.whenRuns (Dev.overrunSlot m)) := rfl

/-- A command with operands out of range: time moves, and the supervisor's work follows. -/
theorem act_illFormed {i : Instr} (h : i.wf = false) (t : Nat) (f : Dev → Dev) (s : State) :
    s.act i t f = .next (s.left (s.dev.reach t)) := by
  rw [State.act, h]
  rfl

theorem actInPass_illFormed {i : Instr} (h : i.wf = false) (t : Nat) (f : Dev → Dev) (s : State) :
    s.actInPass i t f = .next (s.left (s.dev.advance t)) := by
  rw [State.actInPass, h]
  rfl

/-- Every command of every state answers a next state, which differs in the module alone. -/
theorem exec_completes (i : Instr) (s : State) : ∃ d : Dev, exec i s = .next { s with dev := d } := by
  by_cases h : ∃ t m, i = .passOverrun t m
  · obtain ⟨t, m, rfl⟩ := h
    exact ⟨_, exec_passOverrun_act t m s⟩
  · obtain ⟨f, acts⟩ := exec_act i (fun t m e => h ⟨t, m, e⟩)
    exact ⟨_, acts s⟩

/-- Settles O2: each command is an effect at its instant, and one out of range is no effect. -/
theorem commandsWithLegalOperandsComplete : Obligations.CommandsWithLegalOperandsComplete := by
  unfold Obligations.CommandsWithLegalOperandsComplete
  refine ⟨exec_completes, fun i s hw hp => ?_, fun s t m hw => ?_⟩
  · obtain ⟨f, acts⟩ := exec_act i hp
    rw [acts, act_illFormed hw]
  · rw [exec_passOverrun_act, actInPass_illFormed hw]

/-! ### A module that does not run -/

section
variable {d : Dev} (h : d.runs = false)
include h

theorem whenRuns_stopped (f : Dev → Dev) : d.whenRuns f = d := if_neg (by simp [h])
theorem whenReady_stopped (f : Dev → Dev) : d.whenReady f = d := if_neg (by simp [h])
theorem whenPowered_stopped (f : Dev → Dev) : d.whenPowered f = d := if_neg (by simp [h])

theorem ringServed_stopped : d.ringServed = false := by rw [Dev.ringServed, h]; rfl

/-- No transport takes a request. -/
theorem requestIn_stopped (op : Byte) (r : Req) : d.requestIn op r = d := by
  unfold Dev.requestIn
  cases r.src.tr with
  | pcie => simp only [ringServed_stopped h, h, Bool.false_and, Bool.false_eq_true, if_false]
  | spi =>
    have down : d.spiUp = false := by rw [Dev.spiUp, h]; rfl
    simp only [down, Bool.not_false, if_true]
  | udp => simp only [h, Bool.false_and, Bool.not_false, if_true]

theorem after_stopped : d.after = d := by
  have quiet : d.ringService = d := if_neg (by rw [ringServed_stopped h]; decide)
  rw [Dev.after, quiet]
  exact if_pos (by rw [h]; rfl)

theorem reach_stopped (t : Nat) : d.reach t = d.advance t := by
  rw [Dev.reach, if_neg (by simp [h])]

end

/-- But for what power and reset take, every command is an effect that a module takes no part in while it does not run. -/
theorem exec_inert (i : Instr) (h : i.reachesReset = false) (hp : ∀ t m, i ≠ .passOverrun t m) :
    ∃ f : Dev → Dev, (∀ s, exec i s = s.act i i.time f) ∧ ∀ d : Dev, d.runs = false → f d = d := by
  cases i with
  | passOverrun t m => exact absurd rfl (hp t m)
  | feedInvalid | feedValid | powerUp | rstNAssert | rstNRelease | resetStuck | holdupExhausted | thermalOffDiodeRead | oscWarm =>
    cases h
  | _ =>
    refine ⟨_, fun _ => rfl, fun d hd => ?_⟩
    simp only [whenRuns_stopped hd, whenReady_stopped hd, whenPowered_stopped hd, requestIn_stopped hd]

/-- Settles O3: no effect of a command reaches a module that does not run, and the supervisor has no work there. -/
theorem aStoppedModuleTakesNoPart : Obligations.AStoppedModuleTakesNoPart := by
  unfold Obligations.AStoppedModuleTakesNoPart
  intro i s hw hr hs
  have stopped (t : Nat) : (s.dev.advance t).runs = false := hs
  by_cases h : ∃ t m, i = .passOverrun t m
  · obtain ⟨t, m, rfl⟩ := h
    rw [exec_passOverrun_act, State.actInPass, if_pos hw, whenRuns_stopped (stopped t), after_stopped (stopped t)]
    rfl
  · obtain ⟨f, acts, inert⟩ := exec_inert i hr (fun t m e => h ⟨t, m, e⟩)
    rw [acts, State.act, if_pos hw, reach_stopped hs, inert _ (stopped _), after_stopped (stopped _)]

end Sys2Proof.Machine
end

section
/-! PROOFS. The life-cycle states: their transitions and the two copies in MRAM (17 R483 to R488). -/

namespace Sys2Proof.Machine

open Sys2Proof

/-! ### Transitions (R486) -/

/-- A target that no transition of the state in force reaches is out of range. -/
theorem lifecycleAdvanceOp_noTransition {r : Req} {b : Dev} (h : ∀ x, lifeOf r.tgt = some x → transition b.life.state x = none) :
    b.lifecycleAdvanceOp r.tag r = refuse b stRange := by
  have nowhere : (lifeOf r.tgt).bind (fun x => (transition b.life.state x).map (fun n => (x, n))) = none := by
    cases target : lifeOf r.tgt with
    | none => rfl
    | some x => rw [Option.bind_some, h x target, Option.map_none]
  rw [Dev.lifecycleAdvanceOp, nowhere]

theorem begun_life {op : Byte} {r : Req} {d : Dev} (ha : d.admits op r = true) : (d.begun op r).life = d.life := by
  rw [(alike_fields (begun_blocks op r d (admits_idle ha).1)).1, heard_keeps]

/-- Settles O53: the table has the eleven pairs, by its cases; a target without a transition is refused. -/
theorem onlyTheTransitionsOfTheTableExist : Obligations.OnlyTheTransitionsOfTheTableExist := by
  unfold Obligations.OnlyTheTransitionsOfTheTableExist
  refine ⟨fun a b => by cases a <;> cases b <;> decide, fun s t r d hd hw ha hn => ?_⟩
  have refused : (d.begun 0xA1 r).lifecycleAdvanceOp r.tag r = refuse (d.begun 0xA1 r) stRange :=
    lifecycleAdvanceOp_noTransition (by rw [begun_life ha]; exact hn)
  exact served_of_run (i := .lifecycleAdvance t r) rfl hw hd rfl ha _ ((lifecycleAdvance_runOp r _).trans refused) rfl rfl rfl rfl rfl

/-! ### The two copies (R483) -/

theorem signed_valid (c : LifeCopy) : c.signed.valid = true := beq_self_eq_true _

/-- The number that a new copy exceeds: the highest of a valid copy. -/
def Dev.lifeSeq (d : Dev) : Nat :=
  let a := if d.nvm.lifeA.valid then d.nvm.lifeA.seq else 0
  let b := if d.nvm.lifeB.valid then d.nvm.lifeB.seq else 0
  if a < b then b else a

/-- The copy that a change to state b writes. -/
def Dev.lifeCopy (d : Dev) (b : Life) : LifeCopy := LifeCopy.signed { seq := d.lifeSeq + 1, state := b }

/-- Copy A is the one that start-up does not read: it is lost, or the other is newer. -/
def Dev.lifeAOld (d : Dev) : Bool := !d.nvm.lifeA.valid || (d.nvm.lifeB.valid && decide (d.nvm.lifeA.seq < d.nvm.lifeB.seq))

/-- A change of state writes copy A where that is the old one, and else copy B. -/
theorem storeLife_eq (d : Dev) (b : Life) : d.storeLife b =
    if d.lifeAOld then { d with nvm := { d.nvm with lifeA := d.lifeCopy b } } else { d with nvm := { d.nvm with lifeB := d.lifeCopy b } } := by
  have old : (!d.nvm.lifeA.valid || (d.nvm.lifeB.valid && decide ((if d.nvm.lifeA.valid then d.nvm.lifeA.seq else 0) <
      (if d.nvm.lifeB.valid then d.nvm.lifeB.seq else 0)))) = d.lifeAOld := by
    unfold Dev.lifeAOld
    cases d.nvm.lifeA.valid <;> cases d.nvm.lifeB.valid <;> rfl
  rw [← old]
  rfl

/-- Neither of two numbers exceeds the larger one. -/
theorem le_larger (a b : Nat) : a ≤ (if a < b then b else a) ∧ b ≤ (if a < b then b else a) := by
  split <;> omega

theorem seq_le_lifeSeqA {d : Dev} (h : d.nvm.lifeA.valid = true) : d.nvm.lifeA.seq ≤ d.lifeSeq := by
  rw [Dev.lifeSeq, if_pos h]
  exact (le_larger _ _).1

theorem seq_le_lifeSeqB {d : Dev} (h : d.nvm.lifeB.valid = true) : d.nvm.lifeB.seq ≤ d.lifeSeq := by
  rw [Dev.lifeSeq, if_pos h]
  exact (le_larger _ _).2

/-- The copy A that is not the old one is valid. -/
theorem validA_of_newer {d : Dev} (h : ¬ d.lifeAOld = true) : d.nvm.lifeA.valid = true := by
  cases ha : d.nvm.lifeA.valid with
  | true => rfl
  | false => exact absurd (by rw [Dev.lifeAOld, ha]; rfl) h

/-- The copy B that start-up reads is valid, where one of the two is. -/
theorem validB_of_newer {d : Dev} (h : d.nvm.lifeA.valid = true ∨ d.nvm.lifeB.valid = true) (old : d.lifeAOld = true) :
    d.nvm.lifeB.valid = true := by
  cases ha : d.nvm.lifeA.valid with
  | false => exact h.resolve_left (by rw [ha]; exact Bool.false_ne_true)
  | true =>
    rw [Dev.lifeAOld, ha] at old
    exact (Bool.and_eq_true_iff.1 old).1

/-- Start-up reads copy B where copy A is lost. -/
theorem storedLife_lostA {d : Dev} (h : d.nvm.lifeA.valid = false) (hb : d.nvm.lifeB.valid = true) : d.storedLife = d.nvm.lifeB.state :=
  if_pos (by rw [h, hb]; rfl)

theorem storedLife_lostB {d : Dev} (h : d.nvm.lifeB.valid = false) : d.storedLife = d.nvm.lifeA.state :=
  if_neg (by rw [h]; exact Bool.false_ne_true)

/-- Start-up reads the copy that is not the old one. -/
theorem storedLife_newer {d : Dev} (h : d.nvm.lifeA.valid = true ∨ d.nvm.lifeB.valid = true) :
    d.storedLife = if d.lifeAOld then d.nvm.lifeB.state else d.nvm.lifeA.state := by
  unfold Dev.storedLife Dev.lifeAOld
  by_cases ha : d.nvm.lifeA.valid = true
  · simp [ha]
  · simp [ha, h.resolve_left ha]

/-- After a change start-up reads the new state, whatever the copies were. -/
theorem storeLife_storedLife (d : Dev) (b : Life) : (d.storeLife b).storedLife = b := by
  have written : (d.lifeCopy b).valid = true := signed_valid _
  rw [storeLife_eq]
  split
  · rename_i old
    refine if_neg ?_
    by_cases hb : d.nvm.lifeB.valid = true
    · have newest : ¬ (d.lifeCopy b).seq < d.nvm.lifeB.seq := Nat.not_lt.2 (Nat.le_succ_of_le (seq_le_lifeSeqB hb))
      simp [written, newest]
    · simp [hb]
  · rename_i new
    have ha : d.nvm.lifeA.valid = true := validA_of_newer new
    have newest : d.nvm.lifeA.seq < (d.lifeCopy b).seq := Nat.lt_succ_of_le (seq_le_lifeSeqA ha)
    exact if_pos (by simp [written, newest])

/-- With the written copy lost start-up reads the old state. -/
theorem storeLife_lost {d : Dev} (h : d.nvm.lifeA.valid = true ∨ d.nvm.lifeB.valid = true) (b : Life) {c : LifeCopy} (hc : c.valid = false) :
    ((d.storeLife b).nvm.lifeA ≠ d.nvm.lifeA →
      Dev.storedLife { d.storeLife b with nvm := { (d.storeLife b).nvm with lifeA := c } } = d.storedLife) ∧
    ((d.storeLife b).nvm.lifeB ≠ d.nvm.lifeB →
      Dev.storedLife { d.storeLife b with nvm := { (d.storeLife b).nvm with lifeB := c } } = d.storedLife) := by
  rw [storedLife_newer h, storeLife_eq]
  by_cases old : d.lifeAOld = true
  · have hb : d.nvm.lifeB.valid = true := validB_of_newer h old
    rw [if_pos old, if_pos old]
    exact ⟨fun _ => storedLife_lostA hc hb, fun differs => absurd rfl differs⟩
  · rw [if_neg old, if_neg old]
    exact ⟨fun differs => absurd rfl differs, fun _ => storedLife_lostB hc⟩

/-- Settles O60: a change writes the copy that start-up does not read, with a higher number. -/
theorem lifeCycleCopiesSurviveAChange : Obligations.LifeCycleCopiesSurviveAChange := by
  unfold Obligations.LifeCycleCopiesSurviveAChange
  intro d e b hv he
  subst he
  refine ⟨storeLife_storedLife d b, ?_, fun c hc => storeLife_lost hv b hc⟩
  rw [storeLife_eq]
  split
  · exact Or.inr rfl
  · exact Or.inl rfl

end Sys2Proof.Machine
end

section
/-! PROOFS. The pair: feeds, fences, ownership and the timers of the pair (13). -/

namespace Sys2Proof.Machine

open Sys2Proof

/-! ### Feeds (R402, R403) -/

/-- A command that a module that does not run takes part in too has its own effect, which leaves it as e. -/
theorem exec_effect {i : Instr} {t : Nat} {f : Dev → Dev} {s : State} {d : Dev} (h : exec i s = s.act i t f) (hw : i.wf = true)
    (hd : d = s.dev.reach t) {e : Dev} (he : f d = e) : exec i s = .next (s.left e) := by
  rw [h, State.act, if_pos hw, ← hd, he]
  rfl

theorem feedFalls_valid {d x : Dev} {f v : Nat} (hr : d.runs = true) (hv : d.clasp.feeds.getLsbD f = true)
    (hx : x = (d.setFeed f v false).raiseI 0x0D10 1 f (Bits.le 1 f ++ Bits.le 2 v)) :
    d.feedFalls f v = if x.clasp.feeds = 0 then x.bothFeedsFailed else x := by
  rw [Dev.feedFalls, if_pos hr, Dev.feedInvalid, if_pos hv, hx]

theorem feedFalls_invalid {d : Dev} {f : Nat} (v : Nat) (hr : d.runs = true) (hv : d.clasp.feeds.getLsbD f = false) :
    d.feedFalls f v = d := by
  rw [Dev.feedFalls, if_pos hr, Dev.feedInvalid, if_neg (Bool.eq_false_iff.1 hv)]

theorem feedRises_invalid {d x : Dev} {f v : Nat} (hr : d.runs = true) (hv : d.clasp.feeds.getLsbD f = false)
    (hx : x = ((d.setFeed f v true).modClasp (fun c => { c with onHoldup := false })).relays) :
    d.feedRises f v = x.raiseI 0x0D11 0 f (Bits.le 1 f) := by
  rw [Dev.feedRises, if_pos hr, Dev.feedValid, if_neg (Bool.eq_false_iff.1 hv), hx]

theorem feedRises_valid {d : Dev} {f : Nat} (v : Nat) (hr : d.runs = true) (hv : d.clasp.feeds.getLsbD f = true) :
    d.feedRises f v = d := by
  rw [Dev.feedRises, if_pos hr, Dev.feedValid, if_pos hv]

/-- Settles O21, by whether the module runs and whether the feed was valid. -/
theorem feedsFallAndRise : Obligations.FeedsFallAndRise := by
  unfold Obligations.FeedsFallAndRise
  intro s t f v d hd hf h16
  refine ⟨fun hv => ?_, fun h1 h2 => ?_⟩
  · have hw : (Instr.feedInvalid t f v).wf = true := by simp [Instr.wf, hf, h16, hv]
    have run {e : Dev} (he : d.feedFalls f v = e) : exec (.feedInvalid t f v) s = .next (s.left e) := exec_effect rfl hw hd he
    exact ⟨fun x hx hr hb => run (feedFalls_valid hr hb hx), fun hr hb => run (feedFalls_invalid v hr hb),
      fun hr => run (if_neg (Bool.eq_false_iff.1 hr))⟩
  · have hw : (Instr.feedValid t f v).wf = true := by simp [Instr.wf, hf, h1, h2]
    have run {e : Dev} (he : d.feedRises f v = e) : exec (.feedValid t f v) s = .next (s.left e) := exec_effect rfl hw hd he
    exact ⟨fun x hx hr hb => run (feedRises_invalid hr hb hx), fun hr hb => run (feedRises_valid v hr hb),
      fun hr => run (if_neg (Bool.eq_false_iff.1 hr))⟩

/-! ### The fence and its acknowledgement (R383, R384) -/

/-- Entries that leave a launch queue, and the check of its pointers, are none of the pair's. -/
theorem qDrop_clasp (id n : Nat) (d : Dev) : (d.qDrop id n).1.clasp = d.clasp := by
  have dropped : (d.dropContents id).clasp = d.clasp := by
    unfold Dev.dropContents
    repeat' split
    all_goals rfl
  have checked : (d.qCheck id).1.clasp = d.clasp := by
    unfold Dev.qCheck
    split
    · rfl
    · exact dropped
  exact checked

theorem fenceQueues_clasp (n : List Nat) (d : Dev) : (d.fenceQueues n).1.clasp = d.clasp := by
  unfold Dev.fenceQueues
  generalize Bits.upTo 8 = l
  generalize hx : (d, ([] : List (Nat × Nat))) = x
  have start : x.1.clasp = d.clasp := by rw [← hx]
  clear hx
  induction l generalizing x with
  | nil => exact start
  | cons q l ih => exact ih _ ((qDrop_clasp _ _ _).trans start)

/-- What a fence sends and empties is none of the pair's. -/
theorem fenceWith_clasp (cause : Nat) (d : Dev) : (d.fenceWith cause).1.clasp = (d.fenceCore cause).clasp := by
  unfold Dev.fenceWith
  extract_lets old n
  have core := fenceQueues_clasp n (d.fenceCore cause)
  generalize (d.fenceCore cause).fenceQueues n = x at core
  obtain ⟨d1, qs⟩ := x
  dsimp only at core ⊢
  rw [← core]
  split <;> rfl

/-- A fence for expiry drops the lease and waits for its acknowledgement. -/
theorem fenceWith_expiry (d : Dev) : (d.fenceWith 1).1.clasp.lease = false ∧ (d.fenceWith 1).1.clasp.ackSince = some d.time.now := by
  rw [fenceWith_clasp]
  exact ⟨rfl, rfl⟩

theorem leaseExpires_due {d : Dev} (hl : d.clasp.lease = true) (ht : d.clasp.leaseAt ≤ d.time.now) :
    d.leaseExpires = (d.fenceWith 1).2.foldl (fun x e => x.raiseI e.1 e.2.1 e.2.2.1 e.2.2.2) (d.fenceWith 1).1 := by
  rw [Dev.leaseExpires, if_pos (by simp [hl, ht]), Dev.fence, if_pos hl]

theorem leaseExpires_early {d : Dev} (ht : d.time.now < d.clasp.leaseAt) : d.leaseExpires = d :=
  if_neg (by simp [Nat.not_le.2 ht])

theorem fenceAck_waiting {d : Dev} {z : Nat} (h : d.clasp.ackSince = some z) :
    d.fenceAck = Dev.raise 0x0D03 0 (Bits.le 1 1) (Dev.sendRelease { d with
      clasp := { d.clasp with ackSince := none, released := true, releaseUntil := some (d.time.now + 40000000) } }) := by
  rw [Dev.fenceAck, h]
  rfl

theorem fenceAckTimeout_due {d : Dev} {z : Nat} (h : d.clasp.ackSince = some z) (ht : 20000000 ≤ d.time.now - z) :
    d.fenceAckTimeout = d.restart 3 := by
  rw [Dev.fenceAckTimeout, h]
  exact if_pos ht

/-- Settles O38: an expiry by the instant of the lease, an acknowledgement and its time-out by whether one is waited for. -/
theorem expiryFencesAndWaitsForTheSupervisor : Obligations.ExpiryFencesAndWaitsForTheSupervisor := by
  unfold Obligations.ExpiryFencesAndWaitsForTheSupervisor
  intro s t d hd hu
  refine ⟨fun w hl ht hw => ?_, fun _ ht => ?_, fun z h => ?_, fun z h ht => ?_, fun h => ⟨?_, ?_⟩⟩
  · subst hw
    obtain ⟨lease, waits⟩ := fenceWith_expiry d
    exact ⟨lease, waits, exec_whenRuns (f := Dev.leaseExpires) rfl rfl hd hu (leaseExpires_due hl ht)⟩
  · exact exec_whenRuns (f := Dev.leaseExpires) rfl rfl hd hu (leaseExpires_early ht)
  · exact exec_whenRuns (f := Dev.fenceAck) rfl rfl hd hu (fenceAck_waiting h)
  · exact exec_whenRuns (f := Dev.fenceAckTimeout) rfl rfl hd hu (fenceAckTimeout_due h ht)
  · exact exec_whenRuns (f := Dev.fenceAck) rfl rfl hd hu (by rw [Dev.fenceAck, h])
  · exact exec_whenRuns (f := Dev.fenceAckTimeout) rfl rfl hd hu (by rw [Dev.fenceAckTimeout, h])

/-! ### Ownership lines (R376, R387, R401) -/

theorem ownEdge_counts {d : Dev} {n : Nat}
    (hn : n = if d.clasp.ownEdges ≠ 0 ∧ 300000 < d.time.now - d.clasp.ownEdgeAt then 1 else d.clasp.ownEdges + 1) :
    d.ownEdge = { d with
      clasp := { d.clasp with
        ownEdges := n, ownEdgeAt := d.time.now, ownIn := d.clasp.ownIn || decide (3 ≤ n),
        ownSince := if d.clasp.ownIn = false ∧ 3 ≤ n then d.time.now else d.clasp.ownSince } } := by
  have count : (if d.clasp.ownEdges != 0 && decide (300000 < d.time.now - d.clasp.ownEdgeAt) then 1 else d.clasp.ownEdges + 1) = n := by
    rw [hn]
    simp only [Bool.and_eq_true, bne_iff_ne, decide_eq_true_eq]
  rw [Dev.ownEdge, Dev.modClasp]
  dsimp only
  rw [count]
  simp only [Bool.and_eq_true, Bool.not_eq_true', decide_eq_true_eq]

theorem secondOwner_due {d x : Dev} (hl : d.clasp.lease = true) (ho : d.clasp.ownIn = true) (h2 : d.clasp.twoOwners = false)
    (ht : 1000000 ≤ d.time.now - d.clasp.ownSince)
    (hx : x = Dev.raise 0x0D0E 3 (Bits.le 1 (if d.fencesAsSecond then d.unitId else 1 - d.unitId)) { d with
      clasp := { d.clasp with secondSeen := true, twoOwners := true } }) :
    d.secondOwner = if d.fencesAsSecond then x.fence 6 else x := by
  rw [Dev.secondOwner, if_pos (by simp [hl, ho, h2, ht]), hx]
  rfl

theorem mismatch_due {d : Dev} {k : Nat} (h1 : 1 ≤ k) (h3 : k < 3)
    (hin : k = 1 → d.clasp.ownIn = true ∧ 1000000000 ≤ d.time.now - d.clasp.beatAt)
    (hbeat : k = 2 → d.clasp.role.inControl = false ∧ d.beatFlag 0 = true ∧ d.clasp.ownIn = false ∧
      100000000 ≤ d.time.now - d.clasp.ownSince)
    (hr : d.life.ready = true) (hm : d.clasp.mismatch.getLsbD (k - 1) = false) :
    d.mismatch k = Dev.raise 0x0D0D 3 (Bits.le 1 k) { d with
      clasp := { d.clasp with mismatch := d.clasp.mismatch ||| BitVec.ofNat 2 k } } := by
  have kinds : k = 1 ∨ k = 2 := by omega
  rcases kinds with rfl | rfl
  · obtain ⟨own, silent⟩ := hin rfl
    exact if_pos (by rw [hr, hm]; simp [own, silent])
  · obtain ⟨role, beat, own, since⟩ := hbeat rfl
    exact if_pos (by rw [hr, hm]; simp [role, beat, own, since])

/-! ### The timers of the pair (R381, R385, R392 to R397) -/

theorem partnerLost_due {d : Dev} (hr : d.life.ready = true) (ha : d.clasp.absent = false) (ht : 80000000 ≤ d.time.now - d.clasp.beatAt) :
    d.partnerLost = Dev.raise 0x0D09 (if d.parB 0x28 4 then 1 else 0) [] { d with
      clasp := { d.clasp with partnerHere := false, absent := true, lastBeatFrame := none } } :=
  if_pos (by simp [hr, ha, ht])

theorem laneDown_due {d : Dev} {l : Nat} {x : Lane} (hx : x = d.clasp.lanes.getD l {}) (hu : x.up = true) (hb : 3 ≤ x.bad) :
    d.laneDown l = Dev.raiseI 0x0D07 1 l (Bits.le 1 l) { d with
      clasp := { d.clasp with lanes := Bits.setAt d.clasp.lanes l { x with up := false, good := 0 } } } := by
  subst hx
  exact if_pos (by rw [hu, decide_eq_true hb]; rfl)

theorem claimWaitEnds_due {d : Dev} {z : Nat} (h : d.clasp.claimWaitAt = some z) (hw : d.clasp.waiting = true) (ht : z ≤ d.time.now) :
    d.claimWaitEnds = { d with
      clasp := { d.clasp with
        waiting := false, claimWaitAt := none,
        claimDue := !d.clasp.ownIn && !d.beatFlag 0 && !d.criticalStands && d.life.state.mayControl && !d.life.stuck } } := by
  rw [Dev.claimWaitEnds, h]
  exact if_pos (by rw [hw, decide_eq_true ht]; rfl)

theorem orphanSolo_due {d : Dev} (hc : d.clasp.role.inControl = false) (ho : d.orphanTime = true) (hw : d.clasp.waiting = false)
    (hi : d.clasp.ownIn = false) (h8 : d.clasp.causes.getLsbD 8 = false) (h2 : d.clasp.causes.getLsbD 2 = false)
    (hs : d.criticalStands = false) (hr : d.life.ready = true) :
    d.orphanSolo = { d with clasp := { d.clasp with orphanDue := true } } :=
  if_pos (by rw [hc, ho, hw, hi, h8, h2, hs, hr]; rfl)

theorem holdoffEnds_due {d : Dev} {z : Nat} (h : d.clasp.holdoffFrom = some z) (hp : d.preferred = true) (ha : d.parB 0x28 5 = true)
    (hr : d.clasp.role = .standby) (hs : d.clasp.synced = true) (hn : d.clasp.returnSuspended = false)
    (ht : d.holdoffNs ≤ d.time.now - z) :
    d.holdoffEnds = { d with clasp := { d.clasp with returnReq := true } } := by
  rw [Dev.holdoffEnds, h]
  exact if_pos (by rw [hp, ha, hr, hs, hn, decide_eq_true ht]; rfl)

theorem resyncRetry_due {d : Dev} (ht : 10000000000 ≤ d.time.now - d.clasp.resyncAt) (hc : d.clasp.role.inControl = false)
    (h3 : d.clasp.resync = 3) : d.resyncRetry = { d with clasp := { d.clasp with resync := 1 } } := by
  rw [Dev.resyncRetry, if_pos ht, if_neg (Bool.eq_false_iff.1 hc), if_pos h3]
  rfl

/-- Settles O39: each line and each timer acts by its own lemma once its guard holds. -/
theorem ownershipAndPairTimersAct : Obligations.OwnershipAndPairTimersAct := by
  unfold Obligations.OwnershipAndPairTimersAct
  refine ⟨fun s t d hd hu => ⟨fun n hn => ?_, fun ht => ?_, fun x hl ho h2 ht hx => ?_, fun k h1 h3 hin hbeat hr hm => ?_⟩,
    fun s t d hd hu => ⟨fun hr ha ht => ?_, fun l x hl hx hup hb => ?_, fun z h hw ht => ?_,
      fun hc ho hw hi h8 h2 hs hr => ?_, fun z h hp ha hr hs hn ht => ?_, fun ht hc h3 => ?_⟩⟩
  · exact exec_whenRuns (f := Dev.ownEdge) rfl rfl hd hu (ownEdge_counts hn)
  · exact exec_whenRuns (f := Dev.ownQuiet) rfl rfl hd hu (if_pos ht)
  · exact exec_whenRuns (f := Dev.secondOwner) rfl rfl hd hu (secondOwner_due hl ho h2 ht hx)
  · have hw : (Instr.ownershipMismatch t k).wf = true := by simp [Instr.wf, h1, h3]
    exact exec_whenRuns (f := Dev.mismatch k) rfl hw hd hu (mismatch_due h1 h3 hin hbeat hr hm)
  · exact exec_whenRuns (f := Dev.partnerLost) rfl rfl hd hu (partnerLost_due hr ha ht)
  · exact exec_whenRuns (i := .laneDown t l) rfl (decide_eq_true hl) hd hu (laneDown_due hx hup hb)
  · exact exec_whenRuns (f := Dev.claimWaitEnds) rfl rfl hd hu (claimWaitEnds_due h hw ht)
  · exact exec_whenRuns (f := Dev.orphanSolo) rfl rfl hd hu (orphanSolo_due hc ho hw hi h8 h2 hs hr)
  · exact exec_whenRuns (f := Dev.holdoffEnds) rfl rfl hd hu (holdoffEnds_due h hp ha hr hs hn ht)
  · exact exec_whenRuns (f := Dev.resyncRetry) rfl rfl hd hu (resyncRetry_due ht hc h3)

end Sys2Proof.Machine
end

section
/-! PROOFS. Bodies in arrival: the mirror and the configuration image (13 R388 to R392). -/

namespace Sys2Proof.Machine

open Sys2Proof

/-! ### The mirror (R388, R389) -/

/-- A segment of a body that is the only one of its type keeps the bodies as they are. -/
theorem bodies_sameFrame {typ f : Nat} {l : List Body} (h : ∀ b ∈ l, b.typ = typ → b.frame = f) :
    l.any (fun b => b.typ == typ && b.frame != f) = false := by
  refine List.any_eq_false.2 (fun b hb => ?_)
  simp only [Bool.and_eq_true, beq_iff_eq, bne_iff_ne, ne_eq, not_and, Decidable.not_not]
  exact h b hb

/-- The mirror with one more segment. -/
def Dev.withSeg (g : Nat) (b : List Byte) (l : List Body) (d : Dev) : Dev :=
  { d with clasp := { d.clasp with bodies := l, segs := d.clasp.segs ++ [(g, b)] } }

section
variable {d : Dev} {bs p' : List Byte} {f g p n : Nat} {x : List Body × Option (List Byte)}

theorem mirrorReceived_inControl (hl : laneOf bs = some (3, f, g, p, n, p')) (hc : d.clasp.role.inControl = true) :
    d.mirrorReceived bs = d := by
  simp only [Dev.mirrorReceived, hl, hc, Bool.true_or, if_true]

/-- What a segment does while the mirror is open: it is kept, and the body it completes joins the segments. -/
theorem mirrorReceived_open (hl : laneOf bs = some (3, f, g, p, n, p')) (hc : d.clasp.role.inControl = false)
    (ho : d.clasp.mirrorOpen = true) (hg : g ≤ 8) (hf : ∀ b ∈ d.clasp.bodies, b.typ = 3 → b.frame = f)
    (hx : x = takePart 3 f g p n p' d.clasp.bodies) :
    d.mirrorReceived bs = match x.2 with
      | none => { d with clasp := { d.clasp with bodies := x.1 } }
      | some b =>
        if (d.withSeg g b x.1).mirrorWhole then
          { d.withSeg g b x.1 with
            clasp := { (d.withSeg g b x.1).clasp with
              mirror := some (d.withSeg g b x.1).clasp.segs, mirrorDone := true, mirrorOpen := false,
              mirrorMatch := Bits.at' ((d.withSeg g b x.1).seg 0) 4 8 == (d.withSeg g b x.1).cfg.hallmark.toNat } }
        else d.withSeg g b x.1 := by
  have taken : (d.clasp.role.inControl || !d.clasp.mirrorOpen || decide (8 < g)) = false := by
    rw [hc, ho, decide_eq_false (Nat.not_lt.2 hg)]
    rfl
  simp only [Dev.mirrorReceived, hl, taken, bodies_sameFrame hf, Bool.false_eq_true, if_false, ← hx]
  rfl

/-! ### The configuration image (R392) -/

theorem imageReceived_inControl (hl : laneOf bs = some (6, f, g, p, n, p')) (hc : d.clasp.role.inControl = true) :
    d.imageReceived bs = d := by
  simp only [Dev.imageReceived, hl, hc, Bool.true_or, if_true]

/-- The causes after a whole image: its flows are judged against the unit's own. -/
def Dev.imageCauses (d : Dev) (im : List (Nat × List Byte)) : BitVec 16 :=
  if flowsOf 256 (segOf im 1) = (d.flows.ctxs.filter (fun c => c.2.state != 0)).map (fun c => (c.1, c.2.payload)) then d.clasp.causes
  else d.clasp.causes ||| 0x20

/-- What a part of an image does: it is kept, and the body it completes joins the image, which with three bodies is ready. -/
theorem imageReceived_standby (hl : laneOf bs = some (6, f, g, p, n, p')) (hc : d.clasp.role.inControl = false) (hg : g ≤ 2)
    (hf : ∀ b ∈ d.clasp.bodies, b.typ = 6 → b.frame = f) (hx : x = takePart 6 f g p n p' d.clasp.bodies) :
    d.imageReceived bs = match x.2 with
      | none => { d with clasp := { d.clasp with bodies := x.1 } }
      | some b =>
        if (Bits.insert g b d.clasp.image).length = 3 then
          { d with
            clasp := { d.clasp with
              image := Bits.insert g b d.clasp.image, resync := 1, bodies := x.1.filter (fun b => b.typ != 6),
              causes := d.imageCauses (Bits.insert g b d.clasp.image) } }
        else { d with clasp := { d.clasp with bodies := x.1, image := Bits.insert g b d.clasp.image } } := by
  have taken : (d.clasp.role.inControl || decide (2 < g)) = false := by
    rw [hc, decide_eq_false (Nat.not_lt.2 hg)]
    rfl
  simp only [Dev.imageReceived, hl, taken, bodies_sameFrame hf, Bool.false_eq_true, if_false, ← hx]
  rfl

end

/-- Settles O36: the unit in control takes no body; another keeps a part, and joins what it completes. -/
theorem mirrorAndImageAreBuiltFromParts : Obligations.MirrorAndImageAreBuiltFromParts := by
  unfold Obligations.MirrorAndImageAreBuiltFromParts
  intro s t l bs p' f g p n d hd hu hy hl h4096
  have hr : d.runs = true := (Bool.and_eq_true_iff.1 hu).1
  have mirror {e : Dev} (he : d.mirrorReceived bs = e) : exec (.mirrorSegmentReceived t l bs) s = .next (s.left e) :=
    exec_whenReady (i := .mirrorSegmentReceived t l bs) rfl (by simp [Instr.wf, hl, h4096]) hd hr hy he
  have image {e : Dev} (he : d.imageReceived bs = e) : exec (.configImageReceived t l bs) s = .next (s.left e) :=
    exec_whenReady (i := .configImageReceived t l bs) rfl (by simp [Instr.wf, hl, h4096]) hd hr hy he
  refine ⟨fun hc => ⟨fun h => mirror (mirrorReceived_inControl h hc), fun h => image (imageReceived_inControl h hc)⟩,
    fun x h hc ho hg hf hx => ?_, fun x h hc hg hf hx => ?_⟩
  · have takes := mirrorReceived_open h hc ho hg hf hx
    refine ⟨fun none => mirror (by rw [takes, none]), fun b e some he => ?_⟩
    rw [some] at takes
    subst he
    exact ⟨fun open' => mirror (takes.trans (if_neg (Bool.eq_false_iff.1 open'))), fun whole => mirror (takes.trans (if_pos whole))⟩
  · have takes := imageReceived_standby h hc hg hf hx
    refine ⟨fun none => image (by rw [takes, none]), fun b some part => ?_, fun b some whole => ?_⟩
    · rw [some] at takes
      exact image (takes.trans (if_neg part))
    · rw [some] at takes
      exact ⟨_, image (takes.trans (if_pos whole)), rfl, rfl, rfl, rfl⟩

end Sys2Proof.Machine
end

section
/-! PROOFS. The safety island: its tick, its inputs and outputs, its faults and the Bezel (14). -/

namespace Sys2Proof.Machine

open Sys2Proof

/-- A part of the module that each step keeps stands after all of them. -/
theorem foldl_keeps {δ α β : Type} {P : δ → α} {f : δ → β → δ} (h : ∀ (x : δ) b, P (f x b) = P x) (l : List β) (d : δ) :
    P (l.foldl f d) = P d := by
  induction l generalizing d with
  | nil => rfl
  | cons b l ih => exact (ih _).trans (h d b)

/-! ### What a tick of the island leaves as it is (R407, R408) -/

/-- The parts of the module beside the island that its work leaves alone. -/
def Dev.besideIsland (d : Dev) : CfgSt × SolverSt × EngineSt × CanSt × NetSt × ClaspSt × LifeSt :=
  (d.cfg, d.solver, d.engine, d.can, d.net, d.clasp, d.life)

/-- What the steps of an island tick leave: the island's state, tick count and Bezel, and what lies beside the island. -/
def Dev.tickPart (d : Dev) : IslState × Nat × Word × (CfgSt × SolverSt × EngineSt × CanSt × NetSt × ClaspSt × LifeSt) :=
  (d.island.state, d.island.tick, d.island.bezel, d.besideIsland)

theorem tickPart_of_recorded {d e : Dev} (h : d.recorded e) : e.tickPart = d.tickPart := by
  unfold Dev.recorded at h
  rw [h]
  rfl

theorem raiseI_tickPart (code : Nat) {sev : Nat} (h : sev ≠ 4) (inst : Nat) (data : List Byte) (d : Dev) :
    (d.raiseI code sev inst data).tickPart = d.tickPart := tickPart_of_recorded (raiseI_recorded code h inst data d)

theorem raise_tickPart (code : Nat) {sev : Nat} (h : sev ≠ 4) (data : List Byte) (d : Dev) :
    (d.raise code sev data).tickPart = d.tickPart := raiseI_tickPart code h 0 data d

theorem tpsStep_tickPart (m : IslandIn) (g : Nat) (d : Dev) : (d.tpsStep m g).tickPart = d.tickPart := by
  unfold Dev.tpsStep
  extract_lets s lim run pulse bad now bits e
  split
  · exact raiseI_tickPart _ (by decide) _ _ _
  · rfl

theorem inputsStep_tickPart (m : IslandIn) (d : Dev) : (d.inputsStep m).tickPart = d.tickPart := by
  refine foldl_keeps (P := Dev.tickPart) (fun x i => ?_) _ d
  dsimp only
  split
  · exact raiseI_tickPart _ (by decide) _ _ _
  · rfl

theorem switchOn_tickPart (n : Nat) (d : Dev) : (d.switchOn n).tickPart = d.tickPart := by
  unfold Dev.switchOn
  dsimp only
  split
  · rfl
  · split
    · exact raiseI_tickPart _ (by decide) _ _ _
    · rfl

theorem permitReturns_tickPart (n : Nat) (d : Dev) : (d.permitReturns n).tickPart = d.tickPart := by
  unfold Dev.permitReturns
  split
  · rfl
  · exact switchOn_tickPart n _

theorem permitStep_tickPart (n : Nat) (d : Dev) : (d.permitStep n).tickPart = d.tickPart := by
  unfold Dev.permitStep
  dsimp only
  split
  · split <;> rfl
  · split
    · exact permitReturns_tickPart n _
    · split
      · exact permitReturns_tickPart n _
      · split
        · exact switchOn_tickPart n _
        · rfl

theorem outputFault_tickPart (n cause : Nat) (d : Dev) : (d.outputFault n cause).tickPart = d.tickPart := by
  unfold Dev.outputFault
  extract_lets a b
  have opened : b.tickPart = d.tickPart := by
    unfold b
    split <;> rfl
  split
  · exact (raiseI_tickPart _ (by decide) _ _ _).trans opened
  · exact (raiseI_tickPart _ (by decide) _ _ _).trans opened

theorem readBack_tickPart (m : IslandIn) (n : Nat) (d : Dev) : (d.readBack m n).tickPart = d.tickPart := rfl

theorem pulseCheck_tickPart (m : IslandIn) (n : Nat) (d : Dev) : (d.pulseCheck m n).tickPart = d.tickPart := by
  unfold Dev.pulseCheck
  dsimp only
  split
  · rfl
  · split
    · split <;> rfl
    · split
      · exact outputFault_tickPart n 6 _
      · split
        · split
          · rfl
          · exact outputFault_tickPart n 7 _
        · rfl

theorem pulseStart_tickPart (n : Nat) (d : Dev) : (d.pulseStart n).tickPart = d.tickPart := by
  unfold Dev.pulseStart
  split <;> rfl

theorem resetInput_tickPart (was : InState) (d : Dev) : (d.resetInput was).tickPart = d.tickPart := by
  have waiting (x : Dev) (n : Nat) : (if (x.safeOut n).state = .waitReset then x.switchOn n else x).tickPart = x.tickPart := by
    split
    · exact switchOn_tickPart n x
    · rfl
  unfold Dev.resetInput
  dsimp only
  split
  · rfl
  · split
    · rfl
    · split
      · rfl
      · split
        · split
          · exact foldl_keeps (P := Dev.tickPart) waiting _ _
          · rfl
        · split <;> rfl

theorem demandEvents_tickPart (was : List InState) (on : Nat) (d : Dev) : (d.demandEvents was on).tickPart = d.tickPart := by
  refine foldl_keeps (P := Dev.tickPart) (fun x i => ?_) _ d
  split
  · exact raiseI_tickPart _ (by decide) _ _ _
  · rfl

theorem post_tickPart (block i typ : Nat) (v : DWord) (st : Word) (q : Nat) (d : Dev) : (d.post block i typ v st q).tickPart = d.tickPart := by
  simp only [Dev.post, Dev.tickPart, Dev.besideIsland, Dev.setPt_island, Dev.setPt_cfg, Dev.setPt_solver, Dev.setPt_engine,
    Dev.setPt_can, Dev.setPt_net, Dev.setPt_clasp, Dev.setPt_life]

theorem islandPoints_tickPart (d : Dev) : d.islandPoints.tickPart = d.tickPart := by
  unfold Dev.islandPoints
  extract_lets q st u d1 d2
  have posted (i v : Nat) (z : Dev) : (u i v z).tickPart = z.tickPart := post_tickPart ..
  have states : d1.tickPart = d.tickPart :=
    (posted _ _ _).trans ((posted _ _ _).trans ((posted _ _ _).trans (posted _ _ d)))
  have inputs : d2.tickPart = d1.tickPart := foldl_keeps (P := Dev.tickPart) (fun z i => posted (6160 + i) _ z) (Bits.upTo 16) d1
  have outputs := foldl_keeps (P := Dev.tickPart) (f := fun z n => u (6176 + n)
    ((d.safeOut n).state.code + 8 * Bits.b2n (d.safeOut n).permit + 16 * Bits.b2n (d.safeOut n).pinHigh + 256 * (d.safeOut n).cause) z)
    (fun z n => posted (6176 + n) _ z) (Bits.upTo 16) d2
  exact outputs.trans (inputs.trans states)

theorem groupOff_tickPart (f : IslandSt → List Nat) (d : Dev) :
    (d.modSafe (fun s => { s with groupOff := f s })).tickPart = d.tickPart := rfl

theorem counted_tickPart (d : Dev) : (d.modSafe (fun s => { s with tick := s.tick + 1 })).tickPart =
    (d.island.state, d.island.tick + 1, d.island.bezel, d.besideIsland) := rfl

/-- The work of a tick after the island's own state has been followed. -/
theorem islandTick_tickPart (m : IslandIn) (d : Dev) :
    (d.islandTick m).tickPart = (d.islandStage.island.state, d.islandStage.island.tick + 1, d.islandStage.island.bezel,
      d.islandStage.besideIsland) := by
  unfold Dev.islandTick
  extract_lets d1 was on d2 d3 d4 d5 d6 d7 d8 off d9
  have ecc : d1.tickPart = d.islandStage.tickPart := by
    unfold d1 Dev.islandEcc
    split
    · exact raise_tickPart _ (by decide) _ _
    · rfl
  have sources : d2.tickPart = d1.tickPart :=
    (inputsStep_tickPart m _).trans ((tpsStep_tickPart m 1 _).trans (tpsStep_tickPart m 0 _))
  have readBacks : d3.tickPart = d2.tickPart := foldl_keeps (P := Dev.tickPart) (fun x n => readBack_tickPart m n x) _ _
  have permits : d4.tickPart = d3.tickPart := foldl_keeps (P := Dev.tickPart) (fun x n => permitStep_tickPart n x) _ _
  have checks : d5.tickPart = d4.tickPart := foldl_keeps (P := Dev.tickPart) (fun x n => pulseCheck_tickPart m n x) _ _
  have reset : d6.tickPart = d5.tickPart := resetInput_tickPart _ _
  have starts : d7.tickPart = d6.tickPart := foldl_keeps (P := Dev.tickPart) (fun x n => pulseStart_tickPart n x) _ _
  have events : d8.tickPart = d7.tickPart := demandEvents_tickPart _ _ _
  have groups : d9.tickPart = d8.tickPart := groupOff_tickPart _ d8
  have points : d9.islandPoints.tickPart = d9.tickPart := islandPoints_tickPart d9
  have all : d9.islandPoints.tickPart = d.islandStage.tickPart := by
    rw [points, groups, events, starts, reset, checks, permits, readBacks, sources, ecc]
  simp only [Dev.tickPart, Prod.mk.injEq] at all
  obtain ⟨state, tick, bezel, beside⟩ := all
  rw [counted_tickPart, state, tick, bezel, beside]

/-! ### The island's own state (R408, R424) -/

theorem islandStage_runs {d : Dev} (hs : d.island.state = .starting) (ht : 60 ≤ d.island.tick) (hb : d.island.bezelValid = true) :
    d.islandStage = { d with island := { d.island with state := .run } } := by
  rw [Dev.islandStage, if_neg (by rw [hs]; simp), if_pos ⟨hs, ht⟩, if_pos hb]
  rfl

theorem islandStage_badBezel {d : Dev} (hs : d.island.state = .starting) (ht : 60 ≤ d.island.tick) (hb : d.island.bezelValid = false) :
    d.islandStage = (d.raise 0x0E09 3 (Bits.le 4 d.island.bezel.toNat)).islandSafe 4 false := by
  rw [Dev.islandStage, if_neg (by rw [hs]; simp), if_pos ⟨hs, ht⟩, if_neg (by rw [hb]; decide)]

theorem islandStage_waits {d : Dev} (hs : d.island.state = .starting) (ht : d.island.tick < 60) : d.islandStage = d := by
  rw [Dev.islandStage, if_neg (by rw [hs]; simp), if_neg (by omega)]

theorem islandStage_restarts {d : Dev} (hs : d.island.state = .safe) (hr : d.island.restartDue = true) : d.islandStage = d.islandStarting :=
  if_pos (by rw [hs, hr]; rfl)

theorem outside_of_tickPart {d e : Dev} (h : e.tickPart = d.tickPart) :
    e.island.bezel = d.island.bezel ∧ e.besideIsland = d.besideIsland := by
  simp only [Dev.tickPart, Prod.mk.injEq] at h
  obtain ⟨_, _, bezel, beside⟩ := h
  exact ⟨bezel, beside⟩

theorem islandSafe_outside (cause : Nat) (restart : Bool) (d : Dev) :
    (d.islandSafe cause restart).island.bezel = d.island.bezel ∧ (d.islandSafe cause restart).besideIsland = d.besideIsland := by
  unfold Dev.islandSafe
  have raised (x : Dev) := outside_of_tickPart (raise_tickPart 0x0E0A (sev := 3) (by decide)
    (Bits.le 1 cause ++ Bits.le 1 (Bits.b2n restart)) x)
  exact ⟨(raised _).1, (raised _).2⟩

/-- The island's own state leaves the Bezel and what lies beside the island. -/
theorem islandStage_outside (d : Dev) : d.islandStage.island.bezel = d.island.bezel ∧ d.islandStage.besideIsland = d.besideIsland := by
  unfold Dev.islandStage
  split
  · exact ⟨rfl, rfl⟩
  · split
    · split
      · exact ⟨rfl, rfl⟩
      · obtain ⟨bezel, beside⟩ := islandSafe_outside 4 false (d.raise 0x0E09 3 (Bits.le 4 d.island.bezel.toNat))
        obtain ⟨bezel', beside'⟩ := outside_of_tickPart (raise_tickPart 0x0E09 (sev := 3) (by decide) (Bits.le 4 d.island.bezel.toNat) d)
        exact ⟨bezel.trans bezel', beside.trans beside'⟩
    · exact ⟨rfl, rfl⟩

/-- Settles O40: the island's state is followed first, and the work of the tick leaves what `tickPart` names. -/
theorem islandTickCountsAndStaysItsOwn : Obligations.IslandTickCountsAndStaysItsOwn := by
  unfold Obligations.IslandTickCountsAndStaysItsOwn
  intro s t m d hd hr
  refine ⟨⟨d.islandTick m, exec_whenPowered (f := Dev.islandTick m) rfl rfl hd hr rfl, ?_⟩, islandStage_runs, islandStage_badBezel,
    islandStage_waits, islandStage_restarts⟩
  obtain ⟨bezel, beside⟩ := islandStage_outside d
  have part := islandTick_tickPart m d
  rw [bezel, beside] at part
  simp only [Dev.tickPart, Dev.besideIsland, Prod.mk.injEq] at part
  obtain ⟨state, tick, bezel, cfg, solver, engine, can, net, clasp, life⟩ := part
  exact ⟨tick, state, bezel, cfg, solver, engine, can, net, clasp, life⟩

end Sys2Proof.Machine
end

section
/-! PROOFS. The timers and faults of the island's inputs and outputs, its own faults, and the Bezel's readings (14 R408 to R425). -/

namespace Sys2Proof.Machine

open Sys2Proof

/-! ### Inputs (R413, R414, R417) -/

section
variable {d : Dev} {i j : Nat}

theorem discrepancyTimeout_due (hi : i < 16) (hj : (d.safeIn i).judge = some j) (hs : (d.safeIn i).state = .demand)
    (ht : j + d.discTicks ≤ d.island.tick) :
    d.discrepancyTimeout i = ((d.modIn i (fun y => { y with
      state := .discrepancy, cause := 5, judge := none, cycled := false })).noteFail i 5).raiseI 0x0E03 2 i
        (Bits.le 1 i ++ Bits.le 1 (if (d.safeIn i).ledB then 0 else 1)) := by
  simp only [Dev.discrepancyTimeout, hj]
  exact if_pos ⟨hi, hs, ht⟩

theorem discrepancyTimeout_early (hj : (d.safeIn i).judge = some j) (ht : d.island.tick < j + d.discTicks) : d.discrepancyTimeout i = d := by
  simp only [Dev.discrepancyTimeout, hj]
  exact if_neg (by omega)

theorem lineFaultClear_due (hi : i < 16) (hj : (d.safeIn i).passSince = some j) (hs : (d.safeIn i).state = .lineFault)
    (ht : j + 4000 ≤ d.island.tick) : d.lineFaultClear i = d.modIn i (fun y => { y with lineOk := true }) := by
  simp only [Dev.lineFaultClear, hj]
  exact if_pos ⟨hi, hs, ht⟩

theorem resetInputHeld_due (hp : d.island.pressAt = some j) (ht : 8000 < d.island.tick - j) (hh : d.island.pressHeld = false) :
    d.resetInputHeld = Dev.raise 0x0E0C 1 (Bits.le 4 ((d.island.tick - j) / 4)) { d with
      island := { d.island with pressHeld := true } } := by
  rw [Dev.resetInputHeld, hp]
  dsimp only
  rw [if_pos ⟨ht, hh⟩]
  rfl

/-! ### Outputs (R418 to R421) -/

theorem outputReadback_on (hi : i < 16) (h4 : 4 ≤ (d.safeOut i).highRun) (hs : (d.safeOut i).state ≠ .on)
    (hf : (d.safeOut i).state ≠ .fault) : d.outputReadback i true = d.outputFault i 6 := by
  simp only [Dev.outputReadback]
  rw [if_neg (by simp [hf, hi]), if_pos trivial, if_pos ⟨h4, hs⟩]

theorem outputReadback_off (hi : i < 16) (h4 : 4 ≤ (d.safeOut i).lowRun) (hs : (d.safeOut i).state = .on) :
    d.outputReadback i false = d.outputFault i 7 := by
  simp only [Dev.outputReadback]
  rw [if_neg (by simp [hs, hi]), if_neg Bool.false_ne_true, if_pos ⟨h4, hs⟩]

/-- A master disconnect that is due with its outputs off is tested; one that fails keeps its group off. -/
theorem masterTest_due (low : Bool) (hi : i < 2) (hs : d.island.state ≠ .safe)
    (hm : d.island.mdTested.getD i none = none ∨ ∃ z, d.island.mdTested.getD i none = some z ∧ 40000 ≤ d.island.tick - z ∧
      40 ≤ d.island.groupOff.getD i 0)
    (ho : ∀ k, k < 8 → (d.safeOut (8 * i + k)).state ≠ .on) :
    d.masterTest i low = if low then
        { d with
          island := { d.island with
            mdTested := Bits.setAt d.island.mdTested i (some d.island.tick), mdFailed := d.island.mdFailed &&& ~~~BitVec.ofNat 2 (2 ^ i) } }
      else Dev.raiseI 0x0E07 3 i (Bits.le 1 i) { d with
        island := { d.island with
          mdTested := Bits.setAt d.island.mdTested i (some d.island.tick), mdFailed := d.island.mdFailed ||| BitVec.ofNat 2 (2 ^ i) } } := by
  have allOff : (Bits.upTo 8).all (fun k => (d.safeOut (8 * i + k)).state != .on) = true :=
    List.all_eq_true.2 (fun k hk => bne_iff_ne.2 (ho k (List.mem_range.1 hk)))
  unfold Dev.masterTest
  extract_lets s due off bit e
  have isDue : due = true := by
    unfold due
    rcases hm with h | ⟨z, h, since, off⟩
    · rw [h]
    · rw [h]
      simp only [s, since, off, decide_true, Bool.and_self]
  rw [if_pos ⟨hi, hs, isDue, allOff⟩]
  cases low with
  | true =>
    rw [if_pos rfl, if_pos rfl]
    rfl
  | false =>
    rw [if_neg Bool.false_ne_true, if_neg Bool.false_ne_true]
    rfl

end

/-- Settles O41: each input timer and each output fault acts by its own lemma once its guard holds. -/
theorem safetyInputsAndOutputsAct : Obligations.SafetyInputsAndOutputsAct := by
  unfold Obligations.SafetyInputsAndOutputsAct
  refine ⟨fun s t i d hd hr hi => ⟨fun j hj hs ht => ?_, fun j hj ht => ?_, fun z hz hs ht => ?_, fun p hp ht hh => ?_⟩,
    fun s t n d hd hr => ⟨fun hn hs => ?_, fun hn hs => ?_, fun hn h4 hs hf => ?_, fun hn h4 hs => ?_,
      fun bit hn hb hs hm ho => ?_⟩⟩
  · exact exec_whenPowered (i := .discrepancyTimeout t i) rfl (decide_eq_true hi) hd hr (discrepancyTimeout_due hi hj hs ht)
  · exact exec_whenPowered (i := .discrepancyTimeout t i) rfl (decide_eq_true hi) hd hr (discrepancyTimeout_early hj ht)
  · exact exec_whenPowered (i := .lineFaultClear t i) rfl (decide_eq_true hi) hd hr (lineFaultClear_due hi hz hs ht)
  · exact exec_whenPowered (f := Dev.resetInputHeld) rfl rfl hd hr (resetInputHeld_due hp ht hh)
  · exact exec_whenPowered (f := Dev.outputOvercurrent n) rfl (by exact decide_eq_true hn) hd hr (if_pos ⟨hn, hs⟩)
  · exact exec_whenPowered (f := Dev.outputOvercurrent n) rfl (by exact decide_eq_true hn) hd hr (if_neg (fun h => hs h.2))
  · exact exec_whenPowered (i := .outputReadbackFail t n true) rfl (decide_eq_true hn) hd hr (outputReadback_on hn h4 hs hf)
  · exact exec_whenPowered (i := .outputReadbackFail t n false) rfl (decide_eq_true hn) hd hr (outputReadback_off hn h4 hs)
  · subst hb
    have hw (low : Bool) : (Instr.masterDisconnectTest t n low).wf = true := decide_eq_true hn
    have pass := (masterTest_due true hn hs hm ho).trans (if_pos rfl)
    have fail := (masterTest_due false hn hs hm ho).trans (if_neg Bool.false_ne_true)
    exact ⟨exec_whenPowered (f := Dev.masterTest n true) rfl (hw true) hd hr pass,
      exec_whenPowered (f := Dev.masterTest n false) rfl (hw false) hd hr fail⟩

/-! ### Faults of the island and readings of the Bezel (R408, R425) -/

theorem islandFault_safe {d : Dev} (c : Nat) (hs : d.island.state = .safe) : d.islandFault c = d := if_pos (Or.inr (Or.inr hs))

/-- A fault makes the island SAFE; `again` is a second one within 60 s, after which it does not restart. -/
theorem islandFault_running {d : Dev} {c : Nat} {again : Bool} (h1 : 1 ≤ c) (h4 : c < 4) (hs : d.island.state ≠ .safe)
    (ha : again = true ↔ ∃ z, d.island.safeAt = some z ∧ d.time.now - z < 60000000000) :
    d.islandFault c = Dev.raise 0x0E0A 3 (Bits.le 1 c ++ Bits.le 1 (Bits.b2n !again)) { d with
      island := { d.island with
        safeAt := some d.time.now, state := .safe, restartDue := !again,
        outputs := d.island.outputs.map (fun o => { o.toOff d.island.tick with permit := false }) } } := by
  have second : (match d.island.safeAt with | some t => decide (d.time.now - t < 60000000000) | none => false) = again := by
    rw [Bool.eq_iff_iff, ha]
    cases d.island.safeAt with
    | none => simp
    | some z => simp
  rw [Dev.islandFault, if_neg (by simp only [hs, or_false]; omega), ← second]
  rfl

theorem bezelRead_new {d : Dev} {w : Word} (hl : d.island.bezelLive = w) (hn : w ≠ d.island.bezel) (hr : some w ≠ d.island.reported) :
    d.bezelRead w = Dev.raise 0x0E08 3 (Bits.le 4 d.island.bezel.toNat ++ Bits.le 4 w.toNat) { d with
      island := { d.island with bezelPrev := w, bezelLive := w, reported := some w, sealChanged := true } } := by
  rw [Dev.bezelRead]
  refine (if_pos ⟨hl, hn, hr⟩).trans ?_
  subst hl
  rfl

theorem bezelRead_known {d : Dev} {w : Word} (h : d.island.bezelLive ≠ w ∨ w = d.island.bezel ∨ some w = d.island.reported) :
    d.bezelRead w = { d with island := { d.island with bezelPrev := d.island.bezelLive, bezelLive := w } } := by
  have known : ¬(d.island.bezelLive = w ∧ w ≠ d.island.bezel ∧ some w ≠ d.island.reported) := by
    rintro ⟨live, new, unreported⟩
    rcases h with h | h | h
    · exact h live
    · exact new h
    · exact unreported h
  rw [Dev.bezelRead]
  exact if_neg known

/-- Settles O42: a fault by whether the island is SAFE already, a reading by whether it tells of a new word. -/
theorem islandFaultsAndBezelReadings : Obligations.IslandFaultsAndBezelReadings := by
  unfold Obligations.IslandFaultsAndBezelReadings
  intro s t d hd hr
  have cause {c : Nat} (h1 : 1 ≤ c) (h4 : c < 4) : (Instr.islandWatchdogExpiry t c).wf = true := by simp [Instr.wf, h1, h4]
  refine ⟨fun c again h1 h4 hs ha => ?_, fun c h1 h4 hs => ?_, fun w hl hn hu => ?_, fun w h => ?_⟩
  · exact exec_whenPowered rfl (cause h1 h4) hd hr (islandFault_running h1 h4 hs ha)
  · exact exec_whenPowered rfl (cause h1 h4) hd hr (islandFault_safe c hs)
  · exact exec_whenPowered (f := Dev.bezelRead w) rfl rfl hd hr (bezelRead_new hl hn hu)
  · exact exec_whenPowered (f := Dev.bezelRead w) rfl rfl hd hr (bezelRead_known h)

end Sys2Proof.Machine
end

section
/-! PROOFS. Temperature and self-test: the diode's conversions, the shutdown, the timers of the health unit, and the verdict of a
test (15 R436 to R450). -/

namespace Sys2Proof.Machine

open Sys2Proof

/-! ### Diode conversions (R436, R442) -/

section
variable {d : Dev}

/-- What the diode is used for after a conversion: the site that waits for one, unless it has failed. -/
def Dev.diodeNext (d : Dev) : DiodeUse :=
  match d.health.arbNext with
  | some (k, r) => if (d.site k).failed.isNone then .arbiter k r else .none
  | none => .none

/-- A conversion that ends while a self-test runs stands in its record. -/
def Dev.noteDiode (x : Option Int) (d : Dev) : Dev :=
  match d.health.test with
  | some y =>
    if y.running && !y.done then
      { d with health := { d.health with
        tests := Bits.modAt d.health.tests y.domain (fun r => { r with
          diode := match x with | some z => BitVec.ofInt 16 z | none => 0x8000 }) } }
    else d
  | none => d

/-- The verdict on the shutdown of a plausible reading z, taken in g on the sites of d: by the hot site that waited for the
conversion, or by the reading itself. -/
def Dev.diodeVerdict (use : DiodeUse) (d g : Dev) (z : Int) : Dev :=
  match use with
  | .arbiter k r =>
    if (d.site k).failed.isNone && decide (Bits.absI (r - (z + d.parI 0x30 (0x12 + 4 * k))) ≤ 128) then g.shutdown k (some r)
    else if (d.site k).failed.isNone then (if 2000 ≤ z then (g.failSite k 2).shutdown 0xFF none else g.failSite k 2)
    else if 2000 ≤ z then g.shutdown 0xFF none else g
  | _ => if 2000 ≤ z then g.shutdown 0xFF none else g

/-- The verdict rests on the sites of d and on its configuration alone. -/
theorem diodeVerdict_congr {use : DiodeUse} {d e g : Dev} {z : Int} (hs : e.health.sites = d.health.sites) (hp : e.parI = d.parI) :
    e.diodeVerdict use g z = d.diodeVerdict use g z := by
  have site (k : Nat) : e.site k = d.site k := congrArg (·.getD k {}) hs
  unfold Dev.diodeVerdict
  simp only [site, hp]

theorem diodeComplete_idle (h : d.health.diodeUse = .none) (x : Option Int) : d.diodeComplete x = d := if_pos h

theorem diodeComplete_busy (h : d.health.diodeUse ≠ .none) (x : Option Int) : d.diodeComplete x = (d.diodeResult x).noteDiode x := by
  unfold Dev.diodeComplete
  rw [if_neg h]
  rfl

/-- A reading that is missing or out of range fails the diode. -/
theorem diodeResult_implausible {x : Option Int} (h : ∀ z, x = some z → z < -800 ∨ 2400 < z) :
    d.diodeResult x = Dev.raise 0x0F07 3 (temp16 x) { d with
      health := { d.health with
        diodeUse := d.diodeNext, arbNext := none, recheckAt := d.time.now, diodeFailed := true, diode := x, diodeAt := d.time.now } } := by
  cases x with
  | none => rfl
  | some z =>
    have bad : (decide (-800 ≤ z) && decide (z ≤ 2400)) = false := by
      rcases h z rfl with h | h
      · rw [decide_eq_false (by omega), Bool.false_and]
      · rw [decide_eq_false (p := z ≤ 2400) (by omega), Bool.and_false]
    simp only [Dev.diodeResult, bad]
    rfl

/-- A plausible reading becomes the diode's, judges every site, and gives the verdict. -/
theorem diodeResult_plausible {z : Int} {e g : Dev} (h0 : -800 ≤ z) (h1 : z ≤ 2400) (hf : d.health.diodeFailed = false)
    (he : e = { d with health := { d.health with
      diodeUse := d.diodeNext, arbNext := none, recheckAt := d.time.now, diode := some z, diodeAt := d.time.now, diodeFailed := false } })
    (hg : g = (Bits.upTo 24).foldl (fun x k => x.checkSite z k) e) :
    d.diodeResult (some z) = d.diodeVerdict d.health.diodeUse g z := by
  have good : (decide (-800 ≤ z) && decide (z ≤ 2400)) = true := by rw [decide_eq_true h0, decide_eq_true h1]; rfl
  have sites : e.health.sites = d.health.sites := by rw [he]
  have params : e.parI = d.parI := by rw [he]; rfl
  rw [← diodeVerdict_congr sites params]
  unfold Dev.diodeResult
  extract_lets use ok next src cleared was
  have ends : ok = true := good
  have notFailed : was = false := hf
  have afterwards : next = d.diodeNext := rfl
  clear_value ok was next
  subst ends notFailed afterwards
  dsimp -zeta only
  extract_lets read restored near before judged
  have isRead : read = e := he.symm
  have isE : restored = e := (if_neg (c := false = true) Bool.false_ne_true).trans isRead
  clear_value restored
  subst isE
  have isG : judged = g := hg.symm
  clear_value judged
  subst isG
  change _ = restored.diodeVerdict use judged z
  clear_value use
  cases use with
  | none => rfl
  | check => rfl
  | selftest => rfl
  | arbiter k r =>
    unfold Dev.diodeVerdict
    dsimp only [before, near]
    cases (restored.site k).failed.isNone <;> rfl

end

/-! ### The shutdown (R443, R444) -/

section
variable {d : Dev}

theorem thermalReset_due {z : Nat} (h : d.health.decided = some z) (ht : 5000000 ≤ d.time.now - z) :
    d.thermalReset = (d.holdReset 4).modLife (fun l => { l with
      thermalOff := true, restartOk := d.health.restartOk, offSince := d.time.now, coolCount := 0 }) := by
  unfold Dev.thermalReset
  rw [h]
  dsimp only
  rw [if_pos ht]

theorem thermalReset_undecided (h : d.health.decided = none) : d.thermalReset = d := by
  unfold Dev.thermalReset
  rw [h]

theorem thermalOffRead_running (h : d.life.thermalOff = false) (x : Option Int) : d.thermalOffRead x = d :=
  if_pos (by rw [h, Bool.and_false]; rfl)

/-- In thermal-off a cool reading counts, and with the last one that is needed the module starts. -/
theorem thermalOffRead_cool {x : Int} (hp : d.life.powered = true) (ho : d.life.thermalOff = true) (hx : x ≤ 1600) :
    d.thermalOffRead (some x) =
      if 30 ≤ d.life.coolCount + 1 ∧ d.life.restartOk = true ∧ d.shutdowns60 < 3
      then (d.modLife (fun l => { l with coolCount := d.life.coolCount + 1 })).startUp 4 none none
      else d.modLife (fun l => { l with coolCount := d.life.coolCount + 1 }) := by
  unfold Dev.thermalOffRead
  rw [if_neg (by rw [hp, ho]; decide)]
  dsimp only
  rw [if_pos hx]
  rfl

/-- A warm reading starts the count again. -/
theorem thermalOffRead_warm {x : Int} (hp : d.life.powered = true) (ho : d.life.thermalOff = true) (hx : 1600 < x) :
    d.thermalOffRead (some x) = d.modLife (fun l => { l with coolCount := 0 }) := by
  unfold Dev.thermalOffRead
  rw [if_neg (by rw [hp, ho]; decide)]
  dsimp only
  rw [if_neg (Int.not_le.2 hx), if_neg (by omega)]

end

/-- Settles O43: a conversion by its reading, the reset by whether a shutdown was decided, a read in thermal-off by how warm it is. -/
theorem diodeAndShutdownAct : Obligations.DiodeAndShutdownAct := by
  unfold Obligations.DiodeAndShutdownAct
  refine ⟨fun s t d hd hu => ⟨fun hn x => ?_, fun x nxt w hb hnxt hw => ?_⟩, fun s t d hd => ⟨fun z hr h ht => ?_, fun hr h => ?_,
    fun hp ho => ⟨fun x hx hn => ?_, fun x hx h30 hok h3 => ?_, fun x hx => ?_⟩, fun ho x => ?_⟩⟩
  · exact exec_whenRuns (f := Dev.diodeComplete x) rfl rfl hd hu (diodeComplete_idle hn x)
  · have next : nxt = d.diodeNext := hnxt
    have note : w = Dev.noteDiode x := hw
    subst next note
    refine ⟨fun hx => ?_, fun z e g hx h0 h1 hf he hg => ?_⟩
    · have ends := (diodeComplete_busy hb x).trans (congrArg (Dev.noteDiode x) (diodeResult_implausible hx))
      exact exec_whenRuns (f := Dev.diodeComplete x) rfl rfl hd hu ends
    · subst hx
      have ends := (diodeComplete_busy hb (some z)).trans (congrArg (Dev.noteDiode (some z)) (diodeResult_plausible h0 h1 hf he hg))
      exact exec_whenRuns (f := Dev.diodeComplete (some z)) rfl rfl hd hu ends
  · exact exec_whenPowered (f := Dev.thermalReset) rfl rfl hd hr (thermalReset_due h ht)
  · exact exec_whenPowered (f := Dev.thermalReset) rfl rfl hd hr (thermalReset_undecided h)
  · exact exec_effect (f := Dev.thermalOffRead (some x)) rfl rfl hd ((thermalOffRead_cool hp ho hx).trans (if_neg hn))
  · exact exec_effect (f := Dev.thermalOffRead (some x)) rfl rfl hd ((thermalOffRead_cool hp ho hx).trans (if_pos ⟨h30, hok, h3⟩))
  · exact exec_effect (f := Dev.thermalOffRead (some x)) rfl rfl hd (thermalOffRead_warm hp ho hx)
  · exact exec_effect (f := Dev.thermalOffRead x) rfl rfl hd (thermalOffRead_running ho x)

/-! ### Timers of the health unit (R436, R440, R450, R454) -/

section
variable {d : Dev}

theorem alertClear_due {z : Nat} (h : d.health.calmSince = some z) (ha : d.health.alert = true) (ht : 10000000000 ≤ d.time.now - z) :
    d.alertClear = Dev.raise 0x0F02 0 (Bits.le 4 ((d.time.now - d.health.alertAt) / 1000000)) { d with
      health := { d.health with alert := false } } := by
  unfold Dev.alertClear
  rw [h]
  dsimp only
  rw [if_pos (by rw [ha, decide_eq_true ht]; rfl)]

theorem alertClear_early (h : d.health.calmSince = none ∨ d.health.alert = false ∨
    ∃ z, d.health.calmSince = some z ∧ d.time.now - z < 10000000000) : d.alertClear = d := by
  unfold Dev.alertClear
  cases calm : d.health.calmSince with
  | none => rfl
  | some z =>
    refine if_neg ?_
    rw [Bool.and_eq_true, decide_eq_true_eq]
    rintro ⟨alert, due⟩
    rcases h with h | h | ⟨y, h, early⟩
    · rw [calm] at h
      cases h
    · rw [alert] at h
      cases h
    · rw [calm] at h
      cases h
      omega

theorem autoDue_eq (d : Dev) : d.autoDue =
    if d.life.state = .service ∧ d.parN 0x30 4 ≠ 0 ∧ 60000000000 * d.parN 0x30 4 ≤ d.time.now - d.health.autoFrom
    then { d with health := { d.health with autoDue := true } } else d := by
  unfold Dev.autoDue
  dsimp only
  simp only [Bool.and_eq_true, decide_eq_true_eq, bne_iff_ne, and_assoc]

end

/-- Settles O44, timer by timer. -/
theorem healthTimersAct : Obligations.HealthTimersAct := by
  unfold Obligations.HealthTimersAct
  intro s t d hd hu
  refine ⟨fun period hp => ?_, fun z h ha ht => ?_, fun h => ?_, ?_, fun code source hw => ?_⟩
  · subst hp
    exact exec_whenRuns (f := Dev.diodeRecheck) rfl rfl hd hu rfl
  · exact exec_whenRuns (f := Dev.alertClear) rfl rfl hd hu (alertClear_due h ha ht)
  · exact exec_whenRuns (f := Dev.alertClear) rfl rfl hd hu (alertClear_early h)
  · exact exec_whenRuns (f := Dev.autoDue) rfl rfl hd hu (autoDue_eq d)
  · exact exec_whenRuns (f := Dev.faultExpire code source) rfl hw hd hu rfl

/-! ### The verdict of a self-test (R447, R448) -/

section
variable {d : Dev} {x : TestRun} {r : ScanResult}

/-- The domain passes: it leaves the failed ones. -/
theorem selftestComplete_passes (ht : d.health.test = some x) (hr : x.running = true) (hn : x.done = false)
    (ho : r.restoreOk = true) (hs : r.sigGot = Config.signature x.domain) :
    d.selftestComplete r = Dev.raiseI 0x0F0A 0 x.domain (Bits.le 1 x.domain ++ Bits.le 4 r.micros) { d with
      health := { d.health with
        test := some { x with done := true },
        tests := Bits.modAt d.health.tests x.domain (fun y => { y with
          result := 1, duration := r.micros, sigGot := r.sigGot, failChain := 0xFFFF, passes := Bits.sat 0xFFFF (y.passes + 1),
          fails := Bits.sat 0xFFFF y.fails }) },
      nvm := { d.nvm with failed := Bits.erase x.domain d.nvm.failed } } := by
  have pass : (r.restoreOk && r.sigGot == Config.signature x.domain) = true := by rw [ho, hs, beq_self_eq_true]; rfl
  unfold Dev.selftestComplete
  rw [ht]
  dsimp only
  rw [if_pos (by rw [hr, hn]; rfl), pass]
  rfl

/-- The domain fails: it joins the failed ones with its record and its first bad chain. -/
theorem selftestComplete_fails {chain : Half} {l : List TestRec} (ht : d.health.test = some x) (hr : x.running = true) (hn : x.done = false)
    (hc : r.restoreOk = false ∧ chain = 0xFFFE ∨ r.restoreOk = true ∧ r.sigGot ≠ Config.signature x.domain ∧ chain = r.failChain)
    (hl : l = Bits.modAt d.health.tests x.domain (fun y => { y with
      result := 2, duration := r.micros, sigGot := r.sigGot, failChain := chain, passes := Bits.sat 0xFFFF y.passes,
      fails := Bits.sat 0xFFFF (y.fails + 1) })) :
    d.selftestComplete r = Dev.raiseI 0x0F0B 4 x.domain
      (Bits.le 1 x.domain ++ Bits.le 2 chain.toNat ++ Bits.le 4 r.sigGot.toNat) { d with
        health := { d.health with test := some { x with done := true }, tests := l },
        nvm := { d.nvm with failed := Bits.insert x.domain (l.getD x.domain {}) d.nvm.failed } } := by
  have fail : (r.restoreOk && r.sigGot == Config.signature x.domain) = false := by
    rcases hc with ⟨ho, -⟩ | ⟨-, hs, -⟩
    · rw [ho, Bool.false_and]
    · rw [beq_false_of_ne hs, Bool.and_false]
  have first : (if !r.restoreOk then 0xFFFE else r.failChain) = chain := by
    rcases hc with ⟨ho, hc⟩ | ⟨ho, -, hc⟩ <;> rw [ho, hc] <;> rfl
  subst hl
  unfold Dev.selftestComplete
  rw [ht]
  dsimp only
  rw [if_pos (by rw [hr, hn]; rfl), fail]
  simp only [Bool.false_eq_true, if_false, first]
  rfl

end

/-- Settles O45, by whether the signature and the restore agree. -/
theorem selfTestsPassOrFail : Obligations.SelfTestsPassOrFail := by
  unfold Obligations.SelfTestsPassOrFail
  intro s t x r d hd hu ht hr hn hw
  refine ⟨fun ho hs => ?_, fun chain l hc hl => ?_⟩
  · exact exec_whenRuns (f := Dev.selftestComplete r) rfl hw hd hu (selftestComplete_passes ht hr hn ho hs)
  · exact exec_whenRuns (f := Dev.selftestComplete r) rfl hw hd hu (selftestComplete_fails ht hr hn hc hl)

end Sys2Proof.Machine
end

section
/-! PROOFS. The order of the fault manager, and what Locket writes (15 R453 to R456, 16 R463 to R472). -/

namespace Sys2Proof.Machine

open Sys2Proof

/-! ### The entry that is next (R455) -/

theorem nextFault_mem {l : List FaultEnt} {x : FaultEnt} (h : nextFault l = some x) : x ∈ l := by
  induction l generalizing x with
  | nil => cases h
  | cons e es ih =>
    unfold nextFault at h
    split at h
    next y hy =>
      split at h
      · cases h
        exact List.mem_cons_of_mem _ (ih hy)
      · cases h
        exact List.mem_cons_self
    next => cases h; exact List.mem_cons_self

/-- Before an entry that none behind it exceeds, only a lower one can stand for it to be next. -/
theorem nextFault_append {x : FaultEnt} {b : List FaultEnt} (hb : ∀ y ∈ b, y.sev ≤ x.sev) :
    ∀ a : List FaultEnt, (∀ y ∈ a, y.sev < x.sev) → nextFault (a ++ x :: b) = some x
  | [], _ => by
    change nextFault (x :: b) = some x
    unfold nextFault
    cases hn : nextFault b with
    | none => rfl
    | some y => exact if_neg (Nat.not_lt.2 (hb y (nextFault_mem hn)))
  | y :: a, ha => by
    change nextFault (y :: (a ++ x :: b)) = some x
    unfold nextFault
    rw [nextFault_append hb a (fun z hz => ha z (List.mem_cons_of_mem _ hz))]
    exact if_pos (ha y List.mem_cons_self)

theorem dropFault_append {x : FaultEnt} {b : List FaultEnt} :
    ∀ a : List FaultEnt, x ∉ a → dropFault x (a ++ x :: b) = a ++ b
  | [], _ => if_pos rfl
  | y :: a, ha => by
    change (if y = x then a ++ x :: b else y :: dropFault x (a ++ x :: b)) = _
    rw [if_neg (List.ne_of_not_mem_cons ha).symm, dropFault_append a (List.not_mem_of_not_mem_cons ha)]
    rfl

section
variable {d : Dev} {x : FaultEnt}

/-- A read of a queue whose pointers agree moves them and nothing else. -/
theorem qRead_faults {id n : Nat} (h : (d.qRead id n).2 = []) : (d.qRead id n).1.faults = d.faults := by
  cases agree : (d.q id).agree with
  | true => rw [qRead_ok id n d agree]; rfl
  | false =>
    unfold Dev.qRead Dev.qCheck at h
    rw [if_neg (by rw [agree]; decide)] at h
    cases h

/-- An entry no higher than one whose steps wait for the tick is not handled. -/
theorem faultHandled_waits (hx : nextFault d.faults.queue = some x) (hh : d.faults.held.any (fun h => decide (x.sev ≤ h.1.sev)) = true) :
    d.faultHandled = d := by
  unfold Dev.faultHandled
  rw [hx]
  exact if_pos hh

/-- The steps of the entry that is next, once it has left the queue: the first, and with no higher entry the second and the points. -/
theorem faultHandled_steps {q : Dev × List (Nat × Nat)} {f g : Dev} (hx : nextFault d.faults.queue = some x)
    (hh : d.faults.held.any (fun h => decide (x.sev ≤ h.1.sev)) = false) (hq : q = d.qRead 3 1) (he : q.2 = [])
    (hf : f = Dev.faultStep1 x { q.1 with faults := { q.1.faults with queue := dropFault x q.1.faults.queue } })
    (hg : g = f.faultStep2 x) :
    d.faultHandled = if f.preempted x then f.holdFault x 2 else if g.preempted x then g.holdFault x 3 else g.faultPoints := by
  subst hg hf hq
  unfold Dev.faultHandled
  rw [hx]
  dsimp only
  rw [if_neg (by rw [hh]; decide), he]
  rfl

end

/-! ### Locket's own work (R464, R468, R472) -/

section
variable {d : Dev}

theorem lostRecord_none (h : d.locket.lostFirst = none) : d.lostRecord = d := by
  unfold Dev.lostRecord
  rw [h]

/-- The loss latch enters the front queue as one record and is cleared. -/
theorem lostRecord_enters {f : Rec} {e : Dev × List (Nat × Nat)} (hf : d.locket.lostFirst = some f) (hn : 0 < d.locket.lostCount)
    (hl : d.locket.front.length < 256)
    (he : e = Dev.frontPush { f with
      code := 0x1001, source := 0, sev := 1, lflags := f.lflags &&& 0x07, data := Bits.le 4 d.locket.lostCount ++ [1, 0, 0, 0] }
      { d with locket := { d.locket with lostCount := 0, lostFirst := none } }) :
    d.lostRecord = ((e.1.raiseQ e.2).faultTake 0x1001 0 1).1.raiseQ ((e.1.raiseQ e.2).faultTake 0x1001 0 1).2 := by
  subst he
  unfold Dev.lostRecord
  rw [hf]
  dsimp only
  rw [if_pos ⟨hn, hl⟩]

end

/-- Settles O46: the entry that is next by its place in the queue, then Locket's commands one by one. -/
theorem faultsAndLocketKeepTheirOrder : Obligations.FaultsAndLocketKeepTheirOrder := by
  unfold Obligations.FaultsAndLocketKeepTheirOrder
  refine ⟨fun s t d hd hu => ⟨fun hq => ?_, fun a b x hq ha hb => ⟨fun hh => ?_, fun q e f g hh hr hn he hf hg => ?_⟩⟩,
    fun s t d hd hu => ⟨fun l hl => ?_, fun f e hf hc hl he => ?_, fun h => ?_, fun bad l hw hl => ?_, ?_⟩⟩
  · exact exec_whenRuns (f := Dev.faultHandled) rfl rfl hd hu (by unfold Dev.faultHandled; rw [hq]; rfl)
  · have next : nextFault d.faults.queue = some x := by rw [hq]; exact nextFault_append hb a ha
    exact exec_whenRuns (f := Dev.faultHandled) rfl rfl hd hu (faultHandled_waits next hh)
  · have next : nextFault d.faults.queue = some x := by rw [hq]; exact nextFault_append hb a ha
    have kept : q.1.faults = d.faults := by subst hr; exact qRead_faults hn
    have left : dropFault x q.1.faults.queue = a ++ b := by
      rw [kept, hq]
      exact dropFault_append a (fun h => Nat.lt_irrefl _ (ha x h))
    have first : f = Dev.faultStep1 x { q.1 with faults := { q.1.faults with queue := dropFault x q.1.faults.queue } } := by
      rw [left, hf, he]
      rfl
    exact exec_whenRuns (f := Dev.faultHandled) rfl rfl hd hu (faultHandled_steps next hh hr hn first hg)
  · subst hl
    exact exec_whenRuns (f := Dev.laneWrite) rfl rfl hd hu rfl
  · exact exec_whenRuns (f := Dev.lostRecord) rfl rfl hd hu (lostRecord_enters hf hc hl he)
  · exact exec_whenRuns (f := Dev.lostRecord) rfl rfl hd hu (lostRecord_none h)
  · subst hl
    exact exec_whenRuns (f := Dev.locketScrub bad) rfl hw hd hu rfl
  · exact exec_whenRuns (f := Dev.opWrite) rfl rfl hd hu rfl

end Sys2Proof.Machine
end

section
/-! PROOFS. Power and the reset line: what starts the module and what holds it in reset (17 R494, R499, R501). -/

namespace Sys2Proof.Machine

open Sys2Proof

section
variable {d : Dev}

theorem runs_iff : d.runs = true ↔ d.life.powered = true ∧ d.life.inReset = false ∧ d.life.thermalOff = false := by
  unfold Dev.runs
  simp only [Bool.and_eq_true, Bool.not_eq_true', and_assoc]

/-- The state as a rising feed powers the module, before its start-up. -/
def Dev.energised (phy : BitVec 4) (hu : Nat) (d : Dev) : Dev :=
  { d with
    island := {},
    hw := { d.hw with oscWarm := false, holdup := hu, phyFault := phy },
    life := { d.life with
      powered := true, poweredAt := d.time.now, opBase := d.nvm.opWritten, fromPower := true, inReset := true, cause := 0,
      stuck := false, thermalOff := false, coolCount := 0, rstLow := d.life.rstLow.map (fun _ => d.time.now) } }

/-- A rising feed starts the module unless RST_N is low. -/
theorem powerUp_eq {a b : Word} {phy : BitVec 4} {hu : Nat} {x : Option Int} (hp : d.life.powered = false) :
    d.powerUp a b phy hu x =
      if d.life.rstLow.isSome then d.energised phy hu else (d.energised phy hu).startUp 0 (some (a, b)) x := by
  unfold Dev.powerUp
  rw [if_neg (by rw [hp]; decide)]
  cases low : d.life.rstLow with
  | none =>
    dsimp only [Dev.modLife]
    rw [low]
    simp only [Option.map_none, Option.isSome_none, Bool.false_eq_true, if_false]
    unfold Dev.energised
    rw [low]
    rfl
  | some z =>
    dsimp only [Dev.modLife]
    rw [low]
    simp only [Option.map_some, Option.isSome_some, if_true]
    unfold Dev.energised
    rw [low]
    rfl

/-- Low for long enough, the line holds the module in reset. -/
theorem rstAssert_long {low : Nat} (hr : d.runs = true) (hs : d.life.stuck = false) (hv : d.hw.vioOut.getLsbD 2 = false)
    (hl : 10000 ≤ low) :
    d.rstAssert low = Dev.holdReset 1 (d.modLife (fun l => { l with rstLow := some (d.time.now - low), rstHigh := none })) := by
  obtain ⟨powered, out, -⟩ := runs_iff.1 hr
  unfold Dev.rstAssert
  dsimp only
  rw [if_neg (by rw [hv]; decide), if_neg (by rw [powered, hs]; decide), if_neg (by rw [out]; decide), if_neg (by omega),
    if_pos (by rw [decide_eq_true hl]; rfl), if_neg (by omega)]

/-- Low for less than 2 µs, the line does nothing. -/
theorem rstAssert_short {low : Nat} (hr : d.runs = true) (hs : d.life.stuck = false) (hl : low < 2000) : d.rstAssert low = d := by
  obtain ⟨powered, out, -⟩ := runs_iff.1 hr
  unfold Dev.rstAssert
  dsimp only
  rw [if_neg (c := (!d.life.powered || d.life.stuck) = true) (by rw [powered, hs]; decide),
    if_neg (c := d.life.inReset = true) (by rw [out]; decide), if_pos hl, ite_self]

/-- The release starts a module that the line holds in reset. -/
theorem rstRelease_inReset {a b : Word} {x : Option Int} (hp : d.life.powered = true) (hi : d.life.inReset = true)
    (ht : d.life.thermalOff = false) :
    d.rstRelease a b x = Dev.startUp (if d.life.fromPower then 0 else 1) (some (a, b)) x
      (d.modLife (fun l => { l with rstLow := none, rstHigh := some d.time.now })) := by
  unfold Dev.rstRelease
  dsimp only [Dev.modLife]
  rw [if_pos (by rw [hp, hi, ht]; rfl)]

/-- The release of a module that runs only notes the level. -/
theorem rstRelease_running {a b : Word} {x : Option Int} (hr : d.runs = true) :
    d.rstRelease a b x = d.modLife (fun l => { l with rstLow := none, rstHigh := some d.time.now }) := by
  obtain ⟨-, out, -⟩ := runs_iff.1 hr
  unfold Dev.rstRelease
  dsimp only [Dev.modLife]
  rw [if_neg (by rw [out, Bool.not_eq_true, Bool.and_false, Bool.false_and])]

/-- A line low for 5 s is forced: the module starts. -/
theorem resetStuck_due {a b : Word} {x : Option Int} {z : Nat} (hp : d.life.powered = true) (hi : d.life.inReset = true)
    (ht : d.life.thermalOff = false) (hz : d.life.rstLow = some z) (hl : 4950000000 ≤ d.time.now - z) :
    d.resetStuck a b x = Dev.startUp 6 (some (a, b)) x (d.modLife (fun l => { l with stuckFrom := z })) := by
  unfold Dev.resetStuck
  rw [hz]
  dsimp only
  rw [if_pos (by rw [hp, hi, ht, decide_eq_true hl]; rfl)]

/-- A forced line that has been high for 100 ms is obeyed again. -/
theorem resetObeyed_due {z : Nat} (hz : d.life.rstHigh = some z) (hs : d.life.stuck = true) (hl : 100000000 ≤ d.time.now - z) :
    d.resetObeyed = Dev.raise 0x1103 0 (Bits.le 4 ((d.time.now - d.life.stuckFrom) / 1000000))
      (d.modLife (fun l => { l with stuck := false })) := by
  unfold Dev.resetObeyed
  rw [hz]
  dsimp only
  rw [if_pos (by rw [hs, decide_eq_true hl]; rfl)]

end

/-- Settles O47, command by command. -/
theorem powerAndResetLineStartTheModule : Obligations.PowerAndResetLineStartTheModule := by
  unfold Obligations.PowerAndResetLineStartTheModule
  intro s t a b x d hd
  refine ⟨fun phy hu e hp hw he => ⟨fun hn => ?_, fun hn => ?_⟩, fun hr hs hv low hl => ?_, fun hr hs low hl => ?_, fun hp hi ht => ?_,
    fun hr => ?_, fun z hp hi ht hz hl => ?_, fun z hr hz hs hl => ?_⟩
  · have some : d.life.rstLow.isSome = true := Option.isSome_iff_ne_none.2 hn
    exact exec_effect (f := Dev.powerUp a b phy hu x) rfl hw hd ((powerUp_eq hp).trans ((if_pos some).trans he.symm))
  · subst he
    have none : ¬ d.life.rstLow.isSome = true := by rw [hn]; decide
    exact exec_effect (f := Dev.powerUp a b phy hu x) rfl hw hd ((powerUp_eq hp).trans (if_neg none))
  · exact exec_effect (f := Dev.rstAssert low) rfl rfl hd (rstAssert_long hr hs hv hl)
  · exact exec_effect (f := Dev.rstAssert low) rfl rfl hd (rstAssert_short hr hs hl)
  · exact exec_effect (f := Dev.rstRelease a b x) rfl rfl hd (rstRelease_inReset hp hi ht)
  · exact exec_effect (f := Dev.rstRelease a b x) rfl rfl hd (rstRelease_running hr)
  · exact exec_effect (f := Dev.resetStuck a b x) rfl rfl hd (resetStuck_due hp hi ht hz hl)
  · exact exec_whenPowered (f := Dev.resetObeyed) rfl rfl hd hr (resetObeyed_due hz hs hl)

end Sys2Proof.Machine
end

section
/-! PROOFS. Unit ready takes note of the time for the next automatic self-test too (15 R450), which the statement leaves out. -/

namespace Sys2Proof.Machine

open Sys2Proof

/-- From when AUTO_TEST_PERIOD counts (R450) in the state that an outcome leaves. -/
def autoFromOf : Host.Outcome State Fault Refusal → Option Nat
  | .next s => some s.dev.health.autoFrom
  | _ => none

/-- Unit ready at 1 ns after the first start-up: the period counts from then. -/
theorem autoFromOf_unitReady_reset : autoFromOf (exec (.unitReady 1) State.reset) = some 1 := by decide

/-- Refutes O48: at unit ready the model also begins AUTO_TEST_PERIOD anew, where the statement's state keeps the old instant.
In the state after the first reset that instant is 0, and UNIT_READY at 1 ns moves it to 1. -/
theorem not_readinessAndTheBoardsEventsAct : ¬ Obligations.ReadinessAndTheBoardsEventsAct := by
  unfold Obligations.ReadinessAndTheBoardsEventsAct
  rintro ⟨first, -⟩
  obtain ⟨declares, -⟩ := first State.reset 1 _ rfl
  have stated := congrArg autoFromOf (declares (by decide) (by decide) _ _ _ _ _ rfl rfl rfl rfl rfl)
  rw [autoFromOf_unitReady_reset] at stated
  exact absurd stated (by decide)

end Sys2Proof.Machine
end

section
/-! PROOFS. The erase of the store ends 1003h and 1002h in the fault manager too (15 R452, 16 R477), which the statement leaves out. -/

namespace Sys2Proof.Machine

open Sys2Proof

/-- A module in MAINTAIN, ready for requests, whose Bezel permits the erase of its empty store. -/
def erasable : State :=
  { dev := { State.reset.dev with
      life := { State.reset.dev.life with ready := true, state := .maintain }
      island := { State.reset.dev.island with bezel := 0x400000 } },
    pending := [] }

/-- An EVENT_ERASE on SPI that names the two numbers of that store: 1 and 0. -/
def eventEraseSpi : Req := { src := { tr := .spi }, tag := 1, flags := 0, target := 0x10FF, payload := [1, 0, 0, 0, 0, 0, 0, 0] }

theorem erasable_admits : (erasable.dev.reach 0).admits 0x81 eventEraseSpi = true := by decide +kernel

/-- The request finds the module in MAINTAIN, permitted, and with the numbers of its store; no fault waits. -/
theorem erasable_permits : ∀ b, b = (erasable.dev.reach 0).begun 0x81 eventEraseSpi →
    b.life.state = .maintain ∧ b.island.bezel.getLsbD 22 = true ∧
      Bits.at' eventEraseSpi.payload 0 4 = b.nvm.store.firstHeld % 2 ^ 32 ∧
      Bits.at' eventEraseSpi.payload 4 4 = b.nvm.store.committed % 2 ^ 32 ∧ b.nvm.store.refused = 0 ∧ b.faults.queue = [] := by
  rintro b rfl
  decide +kernel

/-- The event 1004h of the erase ends 1003h and 1002h, so it waits in the fault queue. -/
theorem erasable_eventErase : ∀ e, exec (.eventErase 0 eventEraseSpi) erasable = .next { erasable with dev := e } →
    e.faults.queue.map FaultEnt.code = [0x1004] := by
  have waits : ((erasable.dev.reach 0).requestIn 0x81 eventEraseSpi).after.faults.queue.map FaultEnt.code = [0x1004] := by
    decide +kernel
  intro e he
  rw [requestIn_exec _ 0x81 eventEraseSpi erasable 0 rfl rfl] at he
  injection he with he
  injection he with he
  rw [← he, waits]

theorem alike_faults {a b : Dev} (h : a.alike b) : a.faults = b.faults := by
  unfold Dev.alike at h
  rw [← h]

/-- Refutes O14: its EVENT_ERASE changes the store alone, where the erase's own event 1004h also enters the fault queue, because
it ends the faults 1003h and 1002h (R452, R530). -/
theorem not_eventAndFirmwareRequestsAct : ¬ Obligations.EventAndFirmwareRequestsAct := by
  unfold Obligations.EventAndFirmwareRequestsAct
  rintro ⟨requests, -⟩
  obtain ⟨maintain, permit, first, last, refused, calm⟩ := erasable_permits _ rfl
  obtain ⟨_, erase, _⟩ := requests erasable 0 eventEraseSpi _ rfl (by decide)
  obtain ⟨e, he, _, _, alike⟩ := erase _ _ _ rfl rfl erasable_admits (by decide) maintain permit first last refused rfl
  have faults : e.faults = ((erasable.dev.reach 0).begun 0x81 eventEraseSpi).faults := (alike_faults alike :)
  have waits := erasable_eventErase e he
  rw [faults, calm] at waits
  exact absurd waits (by decide)

end Sys2Proof.Machine
end

section
/-! PROOFS. What RETIRED rests on (17 R483, R486). But for reset, start-up, the tick's transition and a request's end, every operation
of the model leaves it as it was: one lemma for each, in the order of the model, so that `simp` follows any composition of them. -/

namespace Sys2Proof.Machine

open Sys2Proof

/-- What RETIRED rests on: the two stored copies, the state in force, a transition that stands, and whether the module runs. -/
structure LifeCore where
  lifeA : LifeCopy
  lifeB : LifeCopy
  state : Life
  advance : Option (BitVec 6 × Life)
  powered : Bool
  inReset : Bool
  thermalOff : Bool

/-- What RETIRED rests on in d. -/
def Dev.lifeCore (d : Dev) : LifeCore :=
  ⟨d.nvm.lifeA, d.nvm.lifeB, d.life.state, d.life.advance, d.life.powered, d.life.inReset, d.life.thermalOff⟩

@[simp] theorem lifeCore_mk (time pps frame cmd cfg image flows acq gnss fusion solver conseq engine probes plant net can clasp island
    health faults locket life hw nvm out free) :
    (Dev.mk time pps frame cmd cfg image flows acq gnss fusion solver conseq engine probes plant net can clasp island
      health faults locket life hw nvm out free).lifeCore =
      ⟨nvm.lifeA, nvm.lifeB, life.state, life.advance, life.powered, life.inReset, life.thermalOff⟩ := (rfl)

@[simp] theorem lifeCore_eta (d : Dev) : (⟨d.nvm.lifeA, d.nvm.lifeB, d.life.state, d.life.advance, d.life.powered, d.life.inReset,
    d.life.thermalOff⟩ : LifeCore) = d.lifeCore := (rfl)

section
variable {p : Prop} [Decidable p] {α β γ : Type}

@[simp] theorem ite_lifeCore (a b : Dev) : (if p then a else b).lifeCore = if p then a.lifeCore else b.lifeCore := apply_ite _ _ _ _
@[simp] theorem ite_fst_lifeCore (a b : Dev × α) : (if p then a else b).1.lifeCore = if p then a.1.lifeCore else b.1.lifeCore :=
  apply_ite (fun x : Dev × α => x.1.lifeCore) _ _ _
@[simp] theorem ite_snd_lifeCore (a b : α × Dev) : (if p then a else b).2.lifeCore = if p then a.2.lifeCore else b.2.lifeCore :=
  apply_ite (fun x : α × Dev => x.2.lifeCore) _ _ _
@[simp] theorem ite_dev_lifeCore (a b : OpRes) : (if p then a else b).dev.lifeCore = if p then a.dev.lifeCore else b.dev.lifeCore :=
  apply_ite (fun x : OpRes => x.dev.lifeCore) _ _ _

@[simp] theorem foldl_lifeCore {f : Dev → α → Dev} (h : ∀ x a, (f x a).lifeCore = x.lifeCore) (l : List α) (d : Dev) :
    (l.foldl f d).lifeCore = d.lifeCore := foldl_keeps h l d
@[simp] theorem foldl_fst_lifeCore {f : Dev × β → α → Dev × β} (h : ∀ x a, (f x a).1.lifeCore = x.1.lifeCore) (l : List α)
    (d : Dev × β) : (l.foldl f d).1.lifeCore = d.1.lifeCore := foldl_keeps (P := fun x : Dev × β => x.1.lifeCore) h l d
@[simp] theorem foldl_snd_lifeCore {f : β × Dev → α → β × Dev} (h : ∀ x a, (f x a).2.lifeCore = x.2.lifeCore) (l : List α)
    (d : β × Dev) : (l.foldl f d).2.lifeCore = d.2.lifeCore := foldl_keeps (P := fun x : β × Dev => x.2.lifeCore) h l d
@[simp] theorem foldl_trd_lifeCore {f : γ × β × Dev → α → γ × β × Dev} (h : ∀ x a, (f x a).2.2.lifeCore = x.2.2.lifeCore)
    (l : List α) (d : γ × β × Dev) : (l.foldl f d).2.2.lifeCore = d.2.2.lifeCore :=
  foldl_keeps (P := fun x : γ × β × Dev => x.2.2.lifeCore) h l d

end

end Sys2Proof.Machine
end

section
/-! PROOFS. What RETIRED rests on is left as it was: the shared operations, Locket and the health unit (17 R483, R486). -/

namespace Sys2Proof.Machine

open Sys2Proof

section
variable (d : Dev)

/-! ### Queues, events, points and replies -/

@[simp] theorem advance_lifeCore (t) : (d.advance t).lifeCore = d.lifeCore := (rfl)
@[simp] theorem fresh_lifeCore : d.fresh.lifeCore = d.lifeCore := (rfl)
@[simp] theorem emit_lifeCore (o) : (d.emit o).lifeCore = d.lifeCore := (rfl)
@[simp] theorem setQ_lifeCore (id c) : (d.setQ id c).lifeCore = d.lifeCore := (rfl)
@[simp] theorem dropContents_lifeCore (id) : (d.dropContents id).lifeCore = d.lifeCore := by simp [Dev.dropContents]
@[simp] theorem qCheck_lifeCore (id) : (d.qCheck id).1.lifeCore = d.lifeCore := by simp [Dev.qCheck]
@[simp] theorem qPush_lifeCore (id) : (d.qPush id).2.1.lifeCore = d.lifeCore := by
  unfold Dev.qPush
  dsimp only
  (repeat' split) <;> simp
@[simp] theorem qRead_lifeCore (id n) : (d.qRead id n).1.lifeCore = d.lifeCore := by simp [Dev.qRead]
@[simp] theorem qDrop_lifeCore (id n) : (d.qDrop id n).1.lifeCore = d.lifeCore := by simp [Dev.qDrop]
@[simp] theorem setBucket_lifeCore (code b) : (d.setBucket code b).lifeCore = d.lifeCore := (rfl)
@[simp] theorem frontPush_lifeCore (r) : (d.frontPush r).1.lifeCore = d.lifeCore := by simp [Dev.frontPush]
@[simp] theorem suppress_lifeCore (r) : (d.suppress r).lifeCore = d.lifeCore := (rfl)
@[simp] theorem locketTake_lifeCore (r) : (d.locketTake r).1.lifeCore = d.lifeCore := by simp [Dev.locketTake]
@[simp] theorem faultTake_lifeCore (code source sev) : (d.faultTake code source sev).1.lifeCore = d.lifeCore := by simp [Dev.faultTake]
@[simp] theorem fenceCore_lifeCore (cause) : (d.fenceCore cause).lifeCore = d.lifeCore := (rfl)
@[simp] theorem sendRelease_lifeCore : d.sendRelease.lifeCore = d.lifeCore := (rfl)
@[simp] theorem fenceQueues_lifeCore (n) : (d.fenceQueues n).1.lifeCore = d.lifeCore := by simp [Dev.fenceQueues]
@[simp] theorem fenceWith_lifeCore (cause) : (d.fenceWith cause).1.lifeCore = d.lifeCore := by simp [Dev.fenceWith]
@[simp] theorem raiseN_lifeCore (fuel kind code sev inst : Nat) (data : List Byte) :
    (Dev.raiseN fuel kind code sev inst data d).lifeCore = d.lifeCore := by
  induction fuel generalizing kind code sev inst data d with
  | zero => rfl
  | succ n ih =>
    unfold Dev.raiseN
    dsimp only
    split <;> simp [ih]
@[simp] theorem raiseI_lifeCore (code sev inst data) : (d.raiseI code sev inst data).lifeCore = d.lifeCore := by simp [Dev.raiseI]
@[simp] theorem raise_lifeCore (code sev data) : (d.raise code sev data).lifeCore = d.lifeCore := by simp [Dev.raise]
@[simp] theorem raiseQ_lifeCore (ev) : (d.raiseQ ev).lifeCore = d.lifeCore := by simp [Dev.raiseQ]
@[simp] theorem fence_lifeCore (cause) : (d.fence cause).lifeCore = d.lifeCore := by simp [Dev.fence]
@[simp] theorem endFault_lifeCore (code inst) : (d.endFault code inst).lifeCore = d.lifeCore := by simp [Dev.endFault]
@[simp] theorem markPt_lifeCore (i) : (d.markPt i).lifeCore = d.lifeCore := by simp [Dev.markPt]
@[simp] theorem setPt_lifeCore (i p) : (d.setPt i p).lifeCore = d.lifeCore := by simp [Dev.setPt]
@[simp] theorem post_lifeCore (block i typ value stamp quality) :
    (d.post block i typ value stamp quality).lifeCore = d.lifeCore := by simp [Dev.post]
@[simp] theorem postU_lifeCore (block i n stamp) : (d.postU block i n stamp).lifeCore = d.lifeCore := by simp [Dev.postU]
@[simp] theorem postI_lifeCore (block i v stamp) : (d.postI block i v stamp).lifeCore = d.lifeCore := by simp [Dev.postI]
@[simp] theorem postF_lifeCore (block i n raw stamp) : (d.postF block i n raw stamp).lifeCore = d.lifeCore := by simp [Dev.postF]
@[simp] theorem postB_lifeCore (block i b stamp) : (d.postB block i b stamp).lifeCore = d.lifeCore := by simp [Dev.postB]
@[simp] theorem degrade_lifeCore (i q) : (d.degrade i q).lifeCore = d.lifeCore := by simp [Dev.degrade]
@[simp] theorem irq_lifeCore (v) : (d.irq v).lifeCore = d.lifeCore := by simp [Dev.irq]
@[simp] theorem transportError_lifeCore (tr cause n) : (d.transportError tr cause n).lifeCore = d.lifeCore := by simp [Dev.transportError]
@[simp] theorem freeTag_lifeCore (tag) : (d.freeTag tag).lifeCore = d.lifeCore := (rfl)
@[simp] theorem queueReply_lifeCore (r) : (d.queueReply r).lifeCore = d.lifeCore := by simp [Dev.queueReply]
@[simp] theorem answer_lifeCore (op q rflags status rarg payload) :
    (d.answer op q rflags status rarg payload).lifeCore = d.lifeCore := by simp [Dev.answer]
@[simp] theorem deliverOne_lifeCore (r) : (d.deliverOne r).2.lifeCore = d.lifeCore := by
  unfold Dev.deliverOne
  (repeat' split) <;> simp
@[simp] theorem deliverAll_lifeCore (rs kept : List Reply) : (Dev.deliverAll rs kept d).lifeCore = d.lifeCore := by
  induction rs generalizing kept d with
  | nil => rfl
  | cons r rs ih => simp [Dev.deliverAll, ih]
@[simp] theorem deliver_lifeCore : d.deliver.lifeCore = d.lifeCore := by simp [Dev.deliver]
@[simp] theorem modPend_lifeCore (tag f) : (d.modPend tag f).lifeCore = d.lifeCore := (rfl)
@[simp] theorem finish_lifeCore (tag f) : (d.finish tag f).lifeCore = d.lifeCore := (rfl)
@[simp] theorem partialEvent_lifeCore (op kind ms) : (d.partialEvent op kind ms).lifeCore = d.lifeCore := by simp [Dev.partialEvent]
@[simp] theorem finishFan_lifeCore (tag op kind ms) : (d.finishFan tag op kind ms).lifeCore = d.lifeCore := by simp [Dev.finishFan]
@[simp] theorem member_lifeCore (tag kind m st) : (d.member tag kind m st).lifeCore = d.lifeCore := by
  unfold Dev.member
  dsimp only
  (repeat' split) <;> simp
@[simp] theorem refuse_lifeCore (status rarg) : (refuse d status rarg).dev.lifeCore = d.lifeCore := (rfl)
@[simp] theorem reads_lifeCore (payload) : (reads d payload).dev.lifeCore = d.lifeCore := (rfl)
@[simp] theorem done_lifeCore (rarg payload) : (done d rarg payload).dev.lifeCore = d.lifeCore := (rfl)
@[simp] theorem deferred_lifeCore (limit) : (deferred d limit).dev.lifeCore = d.lifeCore := (rfl)

/-! ### Locket (16) -/

@[simp] theorem setStore_lifeCore (s) : (d.setStore s).lifeCore = d.lifeCore := (rfl)
@[simp] theorem storeFull_lifeCore (r) : (d.storeFull r).lifeCore = d.lifeCore := by simp [Dev.storeFull]
@[simp] theorem nearFull_lifeCore : d.nearFull.lifeCore = d.lifeCore := by simp [Dev.nearFull]
@[simp] theorem storeWrite_lifeCore (r) : (d.storeWrite r).lifeCore = d.lifeCore := by simp [Dev.storeWrite]
@[simp] theorem laneWrite_lifeCore : d.laneWrite.lifeCore = d.lifeCore := by simp [Dev.laneWrite]
@[simp] theorem locketDrain_lifeCore (n : Nat) : (Dev.locketDrain n d).lifeCore = d.lifeCore := by
  induction n generalizing d with
  | zero => rfl
  | succ n ih =>
    unfold Dev.locketDrain
    split
    · rfl
    · simp [ih]
@[simp] theorem locketCommit_lifeCore (n) : (d.locketCommit n).lifeCore = d.lifeCore := by simp [Dev.locketCommit]
@[simp] theorem bucketTick_lifeCore (code) : (d.bucketTick code).lifeCore = d.lifeCore := by
  unfold Dev.bucketTick
  dsimp only
  (repeat' split) <;> simp
@[simp] theorem locketTick_lifeCore : d.locketTick.lifeCore = d.lifeCore := by simp [Dev.locketTick]
@[simp] theorem listOverrides_lifeCore : d.listOverrides.lifeCore = d.lifeCore := by simp [Dev.listOverrides]
@[simp] theorem locketStart_lifeCore : d.locketStart.lifeCore = d.lifeCore := by simp [Dev.locketStart]
@[simp] theorem locketCap_lifeCore : d.locketCap.lifeCore = d.lifeCore := by simp [Dev.locketCap]
@[simp] theorem lostRecord_lifeCore : d.lostRecord.lifeCore = d.lifeCore := by
  unfold Dev.lostRecord
  split <;> simp
@[simp] theorem recordsBad_lifeCore (bad) : (d.recordsBad bad).lifeCore = d.lifeCore := by simp [Dev.recordsBad]
@[simp] theorem locketScrub_lifeCore (bad) : (d.locketScrub bad).lifeCore = d.lifeCore := by simp [Dev.locketScrub]
@[simp] theorem locketStrike_lifeCore (l) : (d.locketStrike l).lifeCore = d.lifeCore := (rfl)
@[simp] theorem opWrite_lifeCore : d.opWrite.lifeCore = d.lifeCore := (rfl)
@[simp] theorem eventReadOp_lifeCore (r) : (d.eventReadOp r).dev.lifeCore = d.lifeCore := by simp [Dev.eventReadOp]
@[simp] theorem eventMarkOp_lifeCore (r) : (d.eventMarkOp r).dev.lifeCore = d.lifeCore := by simp [Dev.eventMarkOp]
@[simp] theorem eventEraseOp_lifeCore (permit r) : (d.eventEraseOp permit r).dev.lifeCore = d.lifeCore := by simp [Dev.eventEraseOp]

/-! ### Temperature, self-test and faults (15) -/

@[simp] theorem modSite_lifeCore (s f) : (d.modSite s f).lifeCore = d.lifeCore := (rfl)
@[simp] theorem failSite_lifeCore (s cause) : (d.failSite s cause).lifeCore = d.lifeCore := by simp [Dev.failSite]
@[simp] theorem abortTest_lifeCore : d.abortTest.lifeCore = d.lifeCore := by
  unfold Dev.abortTest
  split <;> simp
@[simp] theorem shutdown_lifeCore (site reading) : (d.shutdown site reading).lifeCore = d.lifeCore := by simp [Dev.shutdown]
@[simp] theorem readSite_lifeCore (s hz) : (d.readSite s hz).lifeCore = d.lifeCore := by simp [Dev.readSite]
@[simp] theorem hotNoDiode_lifeCore (hot) : (d.hotNoDiode hot).lifeCore = d.lifeCore := by simp [Dev.hotNoDiode]
@[simp] theorem noteHot_lifeCore (hot) : (d.noteHot hot).lifeCore = d.lifeCore := (rfl)
@[simp] theorem askDiode_lifeCore (s) : (d.askDiode s).lifeCore = d.lifeCore := by
  unfold Dev.askDiode
  (repeat' split) <;> simp
@[simp] theorem readSites_lifeCore (hz) : (d.readSites hz).lifeCore = d.lifeCore := by
  unfold Dev.readSites
  dsimp only
  (repeat' split) <;> simp
@[simp] theorem checkSite_lifeCore (t s) : (d.checkSite t s).lifeCore = d.lifeCore := by
  unfold Dev.checkSite
  split <;> simp
@[simp] theorem diodeResult_lifeCore (reading) : (d.diodeResult reading).lifeCore = d.lifeCore := by
  unfold Dev.diodeResult
  dsimp only
  (repeat' split) <;> simp
@[simp] theorem diodeComplete_lifeCore (reading) : (d.diodeComplete reading).lifeCore = d.lifeCore := by
  unfold Dev.diodeComplete
  dsimp only
  (repeat' split) <;> simp
@[simp] theorem diodeRecheck_lifeCore : d.diodeRecheck.lifeCore = d.lifeCore := by simp [Dev.diodeRecheck]
@[simp] theorem frameTemps_lifeCore : d.frameTemps.lifeCore = d.lifeCore := (rfl)
@[simp] theorem throttle_lifeCore : d.throttle.lifeCore = d.lifeCore := by simp [Dev.throttle]
@[simp] theorem alertClear_lifeCore : d.alertClear.lifeCore = d.lifeCore := by
  unfold Dev.alertClear
  split <;> simp
@[simp] theorem selftestRunOp_lifeCore (tag r) : (d.selftestRunOp tag r).dev.lifeCore = d.lifeCore := by
  unfold Dev.selftestRunOp
  (repeat' split) <;> simp
@[simp] theorem endTest_lifeCore (f) : (d.endTest f).lifeCore = d.lifeCore := by
  unfold Dev.endTest
  (repeat' split) <;> simp
@[simp] theorem testStart_lifeCore (t) : (d.testStart t).lifeCore = d.lifeCore := by simp [Dev.testStart]
@[simp] theorem selftestTick_lifeCore (stepPending) : (d.selftestTick stepPending).lifeCore = d.lifeCore := by
  unfold Dev.selftestTick
  dsimp only
  (repeat' split) <;> simp
@[simp] theorem selftestComplete_lifeCore (r) : (d.selftestComplete r).lifeCore = d.lifeCore := by
  unfold Dev.selftestComplete
  split <;> simp
@[simp] theorem failedAgain_lifeCore : d.failedAgain.lifeCore = d.lifeCore := by simp [Dev.failedAgain]
@[simp] theorem selftestTail_lifeCore : d.selftestTail.lifeCore = d.lifeCore := by
  unfold Dev.selftestTail
  split <;> simp
@[simp] theorem autoDue_lifeCore : d.autoDue.lifeCore = d.lifeCore := by simp [Dev.autoDue]
@[simp] theorem autoTick_lifeCore : d.autoTick.lifeCore = d.lifeCore := by simp [Dev.autoTick]
@[simp] theorem autoRestart_lifeCore : d.autoRestart.lifeCore = d.lifeCore := (rfl)
@[simp] theorem selftestResultOp_lifeCore (r) : (d.selftestResultOp r).dev.lifeCore = d.lifeCore := by simp [Dev.selftestResultOp]
@[simp] theorem enterFault_lifeCore (e) : (d.enterFault e).lifeCore = d.lifeCore := by simp [Dev.enterFault]
@[simp] theorem faultPoints_lifeCore : d.faultPoints.lifeCore = d.lifeCore := by simp [Dev.faultPoints]
@[simp] theorem faultStep1_lifeCore (e) : (d.faultStep1 e).lifeCore = d.lifeCore := by simp [Dev.faultStep1]
@[simp] theorem faultStep2_lifeCore (e) : (d.faultStep2 e).lifeCore = d.lifeCore := by simp [Dev.faultStep2]
@[simp] theorem holdFault_lifeCore (e step) : (d.holdFault e step).lifeCore = d.lifeCore := (rfl)
@[simp] theorem faultHandled_lifeCore : d.faultHandled.lifeCore = d.lifeCore := by
  unfold Dev.faultHandled
  split <;> simp
@[simp] theorem faultResume_lifeCore : d.faultResume.lifeCore = d.lifeCore := by simp [Dev.faultResume]
@[simp] theorem faultExpire_lifeCore (code source) : (d.faultExpire code source).lifeCore = d.lifeCore := (rfl)
@[simp] theorem healthPoints_lifeCore : d.healthPoints.lifeCore = d.lifeCore := by
  unfold Dev.healthPoints
  dsimp only
  (repeat' split) <;> simp

end

end Sys2Proof.Machine
end

section
/-! PROOFS. What RETIRED rests on is left as it was: time base, network, signal image, probes and acquisition (17 R483, R486). -/

namespace Sys2Proof.Machine

open Sys2Proof

section
variable (d : Dev)

/-! ### The time base (11) -/

@[simp] theorem reanchor_lifeCore : d.reanchor.lifeCore = d.lifeCore := (rfl)
@[simp] theorem setRate_lifeCore (f s) : (d.setRate f s).lifeCore = d.lifeCore := by simp [Dev.setRate]
@[simp] theorem follow_lifeCore (source stepped) : (d.follow source stepped).lifeCore = d.lifeCore := by simp [Dev.follow]
@[simp] theorem hold_lifeCore : d.hold.lifeCore = d.lifeCore := by simp [Dev.hold]
@[simp] theorem second_lifeCore : d.second.lifeCore = d.lifeCore := by simp [Dev.second]
@[simp] theorem learnUtc_lifeCore (off leap) : (d.learnUtc off leap).lifeCore = d.lifeCore := by simp [Dev.learnUtc]
@[simp] theorem gnssLatch_lifeCore (th) : (d.gnssLatch th).lifeCore = d.lifeCore := by
  unfold Dev.gnssLatch
  split <;> simp
@[simp] theorem ppsPin_lifeCore (high) : (d.ppsPin high).lifeCore = d.lifeCore := by simp [Dev.ppsPin]
@[simp] theorem ppsRise_lifeCore : d.ppsRise.lifeCore = d.lifeCore := by simp [Dev.ppsRise]
@[simp] theorem ppsEnd_lifeCore : d.ppsEnd.lifeCore = d.lifeCore := by simp [Dev.ppsEnd]
@[simp] theorem ppsGate_lifeCore : d.ppsGate.lifeCore = d.lifeCore := by simp [Dev.ppsGate]
@[simp] theorem ppsIn_lifeCore (rising) : (d.ppsIn rising).lifeCore = d.lifeCore := by
  unfold Dev.ppsIn
  (repeat' split) <;> simp
@[simp] theorem ref10Bad_lifeCore : d.ref10Bad.lifeCore = d.lifeCore := by simp [Dev.ref10Bad]
@[simp] theorem ref10Good_lifeCore : d.ref10Good.lifeCore = d.lifeCore := by simp [Dev.ref10Good]
@[simp] theorem stepWait_lifeCore : d.stepWait.lifeCore = d.lifeCore := by simp [Dev.stepWait]
@[simp] theorem setPtp_lifeCore (p st) : (d.setPtp p st).lifeCore = d.lifeCore := by simp [Dev.setPtp]
@[simp] theorem bmca_lifeCore : d.bmca.lifeCore = d.lifeCore := by
  unfold Dev.bmca
  dsimp only
  (repeat' split) <;> simp
@[simp] theorem ptpSync_lifeCore (p arrC origin corr) : (d.ptpSync p arrC origin corr).lifeCore = d.lifeCore := by simp [Dev.ptpSync]
@[simp] theorem ptpForward_lifeCore (p m) : (d.ptpForward p m).lifeCore = d.lifeCore := by simp [Dev.ptpForward]
@[simp] theorem ptpAnnounce_lifeCore (p g utc leap) : (d.ptpAnnounce p g utc leap).lifeCore = d.lifeCore := by
  unfold Dev.ptpAnnounce
  (repeat' split) <;> simp
@[simp] theorem ptpTake_lifeCore (p m) : (d.ptpTake p m).lifeCore = d.lifeCore := by
  unfold Dev.ptpTake
  (repeat' split) <;> simp
@[simp] theorem ptpReceive_lifeCore (p domain m) : (d.ptpReceive p domain m).lifeCore = d.lifeCore := by
  unfold Dev.ptpReceive
  (repeat' split) <;> simp
@[simp] theorem ptpSend_lifeCore (p k) : (d.ptpSend p k).lifeCore = d.lifeCore := by
  unfold Dev.ptpSend
  (repeat' split) <;> simp
@[simp] theorem announceLost_lifeCore (p) : (d.announceLost p).lifeCore = d.lifeCore := by simp [Dev.announceLost]
@[simp] theorem postPort_lifeCore (st p) : (d.postPort st p).lifeCore = d.lifeCore := by simp [Dev.postPort]
@[simp] theorem netPoints_lifeCore : d.netPoints.lifeCore = d.lifeCore := by simp [Dev.netPoints]

/-! ### Ports, rings and launches (11) -/

@[simp] theorem modPort_lifeCore (p f) : (d.modPort p f).lifeCore = d.lifeCore := (rfl)
@[simp] theorem launchPush_lifeCore (q e) : (d.launchPush q e).2.lifeCore = d.lifeCore := by simp [Dev.launchPush]
@[simp] theorem launchMiss_lifeCore (q) : (d.launchMiss q).lifeCore = d.lifeCore := (rfl)
@[simp] theorem sendEth_lifeCore (code bytes) : (d.sendEth code bytes).lifeCore = d.lifeCore := by simp [Dev.sendEth]
@[simp] theorem launchOne_lifeCore (q e) : (d.launchOne q e).lifeCore = d.lifeCore := by
  unfold Dev.launchOne
  dsimp only
  (repeat' split) <;> simp
@[simp] theorem launchDue_lifeCore (q) : (d.launchDue q).lifeCore = d.lifeCore := by
  unfold Dev.launchDue
  split <;> simp
@[simp] theorem launchMember_lifeCore (frame dl due tag x q) : (Dev.launchMember frame dl due tag x q).1.lifeCore = x.1.lifeCore := by
  simp [Dev.launchMember]
@[simp] theorem frameLaunchOp_lifeCore (tag r) : (d.frameLaunchOp tag r).dev.lifeCore = d.lifeCore := by simp [Dev.frameLaunchOp]
@[simp] theorem launchDiscard_lifeCore (p) : (d.launchDiscard p).lifeCore = d.lifeCore := by
  unfold Dev.launchDiscard
  refine foldl_lifeCore (fun x q => ?_) _ _
  dsimp only
  refine (foldl_lifeCore (fun y e => ?_) _ _).trans (by simp)
  split <;> simp
@[simp] theorem ackEntry_lifeCore (frameNo e) : (d.ackEntry frameNo e).lifeCore = d.lifeCore := by simp [Dev.ackEntry]
@[simp] theorem ackBytes_lifeCore (bs) : (d.ackBytes bs).lifeCore = d.lifeCore := by simp [Dev.ackBytes]
@[simp] theorem tableFull_lifeCore (wrote kind) : (d.tableFull wrote kind).lifeCore = d.lifeCore := by simp [Dev.tableFull]
@[simp] theorem ringJudge_lifeCore : d.ringJudge.lifeCore = d.lifeCore := by simp [Dev.ringJudge]
@[simp] theorem ringOpens_lifeCore : d.ringOpens.lifeCore = d.lifeCore := by simp [Dev.ringOpens]
@[simp] theorem seeNode_lifeCore (mac) : (d.seeNode mac).lifeCore = d.lifeCore := by simp [Dev.seeNode]
@[simp] theorem hsrForward_lifeCore (p f seq) : (d.hsrForward p f seq).lifeCore = d.lifeCore := by simp [Dev.hsrForward]
@[simp] theorem ethIntake_lifeCore (p f) : (d.ethIntake p f).2.lifeCore = d.lifeCore := by
  unfold Dev.ethIntake
  dsimp only
  (repeat' split) <;> simp
@[simp] theorem storm_lifeCore (p f) : (d.storm p f).2.lifeCore = d.lifeCore := by simp [Dev.storm]
@[simp] theorem ackFrame_lifeCore (p f) : (d.ackFrame p f).lifeCore = d.lifeCore := by simp [Dev.ackFrame]
@[simp] theorem supervise_lifeCore : d.supervise.lifeCore = d.lifeCore := by simp [Dev.supervise]
@[simp] theorem forget_lifeCore : d.forget.lifeCore = d.lifeCore := (rfl)
@[simp] theorem linkChange_lifeCore (p up) : (d.linkChange p up).lifeCore = d.lifeCore := by simp [Dev.linkChange]
@[simp] theorem relays_lifeCore : d.relays.lifeCore = d.lifeCore := (rfl)
@[simp] theorem bypassBad_lifeCore (r) : (d.bypassBad r).lifeCore = d.lifeCore := by simp [Dev.bypassBad]
@[simp] theorem applyPortEn_lifeCore : d.applyPortEn.lifeCore = d.lifeCore := by simp [Dev.applyPortEn]
@[simp] theorem ackRoll_lifeCore : d.ackRoll.lifeCore = d.lifeCore := (rfl)

/-! ### The signal image (03) -/

@[simp] theorem imageMeet_lifeCore (i) : (d.imageMeet i).lifeCore = d.lifeCore := by simp [Dev.imageMeet]
@[simp] theorem imageFind_lifeCore (among) : (d.imageFind among).lifeCore = d.lifeCore := by simp [Dev.imageFind]
@[simp] theorem signalReadOp_lifeCore (r) : (d.signalReadOp r).dev.lifeCore = d.lifeCore := by simp [Dev.signalReadOp]
@[simp] theorem signalWriteOp_lifeCore (r) : (d.signalWriteOp r).dev.lifeCore = d.lifeCore := by
  unfold Dev.signalWriteOp
  dsimp only
  (repeat' split) <;> simp
@[simp] theorem signalNotifyOp_lifeCore (tag r) : (d.signalNotifyOp tag r).dev.lifeCore = d.lifeCore := by
  unfold Dev.signalNotifyOp
  dsimp only
  (repeat' split) <;> simp
@[simp] theorem watchTick_lifeCore (w) : (d.watchTick w).lifeCore = d.lifeCore := by
  unfold Dev.watchTick
  dsimp only
  (repeat' split) <;> simp
@[simp] theorem imageStrike_lifeCore (m) : (d.imageStrike m).lifeCore = d.lifeCore := by simp [Dev.imageStrike]
@[simp] theorem pointerStrike_lifeCore (m) : (d.pointerStrike m).lifeCore = d.lifeCore := by simp [Dev.pointerStrike]
@[simp] theorem imageScrub_lifeCore : d.imageScrub.lifeCore = d.lifeCore := by simp [Dev.imageScrub]
@[simp] theorem snapshot_lifeCore : d.snapshot.lifeCore = d.lifeCore := (rfl)
@[simp] theorem notifyTick_lifeCore : d.notifyTick.lifeCore = d.lifeCore := by simp [Dev.notifyTick]
@[simp] theorem shiftStamps_lifeCore (step) : (d.shiftStamps step).lifeCore = d.lifeCore := by simp [Dev.shiftStamps]

/-! ### Trace probes (09) -/

@[simp] theorem modProbe_lifeCore (n f) : (d.modProbe n f).lifeCore = d.lifeCore := (rfl)
@[simp] theorem stopProbe_lifeCore (n cause flag f) : (d.stopProbe n cause flag f).lifeCore = d.lifeCore := by
  unfold Dev.stopProbe
  dsimp only
  (repeat' split) <;> simp
@[simp] theorem traceThrottle_lifeCore : d.traceThrottle.lifeCore = d.lifeCore := by simp [Dev.traceThrottle]
@[simp] theorem traceSelftest_lifeCore : d.traceSelftest.lifeCore = d.lifeCore := by simp [Dev.traceSelftest]
@[simp] theorem traceArmOp_lifeCore (tag r) : (d.traceArmOp tag r).dev.lifeCore = d.lifeCore := by simp [Dev.traceArmOp]
@[simp] theorem traceDone_lifeCore (n) : (d.traceDone n).lifeCore = d.lifeCore := by
  unfold Dev.traceDone
  dsimp only
  (repeat' split) <;> simp
@[simp] theorem traceSample_lifeCore (n v good time) : (d.traceSample n v good time).lifeCore = d.lifeCore := by simp [Dev.traceSample]
@[simp] theorem traceFeed_lifeCore (kind num v good time) :
    (d.traceFeed kind num v good time).lifeCore = d.lifeCore := by simp [Dev.traceFeed]
@[simp] theorem tracePoints_lifeCore : d.tracePoints.lifeCore = d.lifeCore := by simp [Dev.tracePoints]
@[simp] theorem traceStep_lifeCore : d.traceStep.lifeCore = d.lifeCore := (rfl)
@[simp] theorem traceReadOp_lifeCore (r) : (d.traceReadOp r).dev.lifeCore = d.lifeCore := by simp [Dev.traceReadOp]

/-! ### Acquisition (04) -/

@[simp] theorem setChain_lifeCore (c x) : (d.setChain c x).lifeCore = d.lifeCore := (rfl)
@[simp] theorem setRs_lifeCore (u r) : (d.setRs u r).lifeCore = d.lifeCore := (rfl)
@[simp] theorem chainSats_lifeCore (c stages) : (d.chainSats c stages).lifeCore = d.lifeCore := by simp [Dev.chainSats]
@[simp] theorem rsFollow_lifeCore (u) : (d.rsFollow u).lifeCore = d.lifeCore := by simp [Dev.rsFollow]
@[simp] theorem rsLead_lifeCore (u c prev y first) : (d.rsLead u c prev y first).lifeCore = d.lifeCore := by
  unfold Dev.rsLead
  dsimp only
  (repeat' split) <;> simp
@[simp] theorem rsFeed_lifeCore (u c tau y q) : (d.rsFeed u c tau y q).lifeCore = d.lifeCore := by
  unfold Dev.rsFeed
  dsimp only
  (repeat' split) <;> simp
@[simp] theorem rsNoCross_lifeCore (u) : (d.rsNoCross u).lifeCore = d.lifeCore := by
  unfold Dev.rsNoCross
  dsimp only
  (repeat' split) <;> simp
@[simp] theorem chainMiss_lifeCore (c cause) : (d.chainMiss c cause).lifeCore = d.lifeCore := by simp [Dev.chainMiss]
@[simp] theorem chainGood_lifeCore (c) : (d.chainGood c).lifeCore = d.lifeCore := by simp [Dev.chainGood]
@[simp] theorem chainOut_lifeCore (c at0 v) : (d.chainOut c at0 v).lifeCore = d.lifeCore := by
  unfold Dev.chainOut
  dsimp only
  (repeat' split) <;> simp
@[simp] theorem chainInput_lifeCore (g c e) : (d.chainInput g c e).lifeCore = d.lifeCore := by
  unfold Dev.chainInput
  dsimp only
  (repeat' split) <;> simp
@[simp] theorem chainRun_lifeCore (t c) : (d.chainRun t c).lifeCore = d.lifeCore := by simp [Dev.chainRun]
@[simp] theorem setFifo_lifeCore (p l) : (d.setFifo p l).lifeCore = d.lifeCore := (rfl)
@[simp] theorem fifoFlush_lifeCore (p) : (d.fifoFlush p).lifeCore = d.lifeCore := by simp [Dev.fifoFlush]
@[simp] theorem fifoRead_lifeCore (p) : (d.fifoRead p).lifeCore = d.lifeCore := by simp [Dev.fifoRead]
@[simp] theorem fifoSlot_lifeCore (g c base m w) : (d.fifoSlot g c base m w).lifeCore = d.lifeCore := by simp [Dev.fifoSlot]
@[simp] theorem portFrame_lifeCore (p slots stalled) : (d.portFrame p slots stalled).lifeCore = d.lifeCore := by simp [Dev.portFrame]
@[simp] theorem chainReset_lifeCore (cause s c) : (d.chainReset cause s c).lifeCore = d.lifeCore := by
  unfold Dev.chainReset
  dsimp only
  (repeat' split) <;> simp
@[simp] theorem syncReset_lifeCore (cause s cs) : (d.syncReset cause s cs).lifeCore = d.lifeCore := by
  unfold Dev.syncReset
  split <;> simp
@[simp] theorem chainDeliver_lifeCore (s c) : (d.chainDeliver s c).lifeCore = d.lifeCore := by
  unfold Dev.chainDeliver
  dsimp only
  (repeat' split) <;> simp
@[simp] theorem acqUnderTest_lifeCore : d.acqUnderTest.lifeCore = d.lifeCore := by simp [Dev.acqUnderTest]
@[simp] theorem acqSub_lifeCore : d.acqSub.lifeCore = d.lifeCore := by simp [Dev.acqSub]
@[simp] theorem acqPort_lifeCore (p run) : (d.acqPort p run).lifeCore = d.lifeCore := by
  unfold Dev.acqPort
  dsimp only
  split
  · rfl
  · split
    · simp
    · refine (foldl_lifeCore (fun x e => ?_) _ _).trans (by simp)
      split <;> simp
@[simp] theorem acqOff_lifeCore : d.acqOff.lifeCore = d.lifeCore := by simp [Dev.acqOff]
@[simp] theorem acqApply_lifeCore : d.acqApply.lifeCore = d.lifeCore := by simp [Dev.acqApply]

end

end Sys2Proof.Machine
end

section
/-! PROOFS. What RETIRED rests on is left as it was: CAN, loops, flows, plant and thrusters (17 R483, R486). -/

namespace Sys2Proof.Machine

open Sys2Proof

section
variable (d : Dev)

/-! ### CAN controllers (12) -/

@[simp] theorem modCtrl_lifeCore (c f) : (d.modCtrl c f).lifeCore = d.lifeCore := (rfl)
@[simp] theorem modThr_lifeCore (j f) : (d.modThr j f).lifeCore = d.lifeCore := (rfl)
@[simp] theorem loadThr_lifeCore (c j data limit) : (d.loadThr c j data limit).lifeCore = d.lifeCore := (rfl)
@[simp] theorem noteRecord_lifeCore (c j data) : (d.noteRecord c j data).lifeCore = d.lifeCore := (rfl)
@[simp] theorem canFillN_lifeCore (n c : Nat) : (Dev.canFillN n c d).lifeCore = d.lifeCore := by
  induction n generalizing d with
  | zero => rfl
  | succ n ih =>
    unfold Dev.canFillN
    dsimp only
    split
    · simp [ih]
    · rfl
@[simp] theorem canFill_lifeCore (c) : (d.canFill c).lifeCore = d.lifeCore := by simp [Dev.canFill]
@[simp] theorem canErrState_lifeCore (c) : (d.canErrState c).lifeCore = d.lifeCore := by simp [Dev.canErrState]
@[simp] theorem canBusOff_lifeCore (c) : (d.canBusOff c).lifeCore = d.lifeCore := by simp [Dev.canBusOff]
@[simp] theorem canClear_lifeCore (c b) : (d.canClear c b).lifeCore = d.lifeCore := (rfl)
@[simp] theorem canFail_lifeCore (c b lec ack incr) : (d.canFail c b lec ack incr).lifeCore = d.lifeCore := by
  unfold Dev.canFail
  dsimp only
  (repeat' split) <;> simp
@[simp] theorem canSent_lifeCore (c b sof) : (d.canSent c b sof).lifeCore = d.lifeCore := by
  unfold Dev.canSent
  dsimp only
  (repeat' split) <;> simp
@[simp] theorem canAttempt_lifeCore (c b r since) : (d.canAttempt c b r since).lifeCore = d.lifeCore := by
  unfold Dev.canAttempt
  split <;> simp
@[simp] theorem setRxMap_lifeCore (e m) : (d.setRxMap e m).lifeCore = d.lifeCore := (rfl)
@[simp] theorem mapWrite_lifeCore (c e stamp data) : (d.mapWrite c e stamp data).lifeCore = d.lifeCore := by
  unfold Dev.mapWrite
  dsimp only
  (repeat' split) <;> simp
@[simp] theorem canAck_lifeCore (c f) : (d.canAck c f).lifeCore = d.lifeCore := by simp [Dev.canAck]
@[simp] theorem canMove_lifeCore (c b f held stamp) : (d.canMove c b f held stamp).lifeCore = d.lifeCore := by simp [Dev.canMove]
@[simp] theorem canReceive_lifeCore (c f) : (d.canReceive c f).lifeCore = d.lifeCore := by
  unfold Dev.canReceive
  dsimp only
  (repeat' split) <;> simp
@[simp] theorem canLock_lifeCore (c b) : (d.canLock c b).lifeCore = d.lifeCore := (rfl)
@[simp] theorem canUnlock_lifeCore (c b) : (d.canUnlock c b).lifeCore = d.lifeCore := by
  unfold Dev.canUnlock
  dsimp only
  (repeat' split) <;> simp
@[simp] theorem canRelease_lifeCore (c b) : (d.canRelease c b).lifeCore = d.lifeCore := by simp [Dev.canRelease]
@[simp] theorem canLockTimeout_lifeCore (c b) : (d.canLockTimeout c b).lifeCore = d.lifeCore := by
  unfold Dev.canLockTimeout
  split <;> simp
@[simp] theorem canRxError_lifeCore (c e) : (d.canRxError c e).lifeCore = d.lifeCore := by simp [Dev.canRxError]
@[simp] theorem mapTimeout_lifeCore (e) : (d.mapTimeout e).lifeCore = d.lifeCore := by simp [Dev.mapTimeout]
@[simp] theorem canRecovered_lifeCore (c) : (d.canRecovered c).lifeCore = d.lifeCore := by
  unfold Dev.canRecovered
  dsimp only
  (repeat' split) <;> simp
@[simp] theorem withdrawRecords_lifeCore (c) : (d.withdrawRecords c).lifeCore = d.lifeCore := by simp [Dev.withdrawRecords]
@[simp] theorem applyCanMode_lifeCore : d.applyCanMode.lifeCore = d.lifeCore := by simp [Dev.applyCanMode]
@[simp] theorem canSendMember_lifeCore (e x c) : (Dev.canSendMember e x c).1.lifeCore = x.1.lifeCore := by simp [Dev.canSendMember]
@[simp] theorem canSendOp_lifeCore (tag r) : (d.canSendOp tag r).dev.lifeCore = d.lifeCore := by simp [Dev.canSendOp]
@[simp] theorem canSendStop_lifeCore (tag) : (d.canSendStop tag).lifeCore = d.lifeCore := by simp [Dev.canSendStop]
@[simp] theorem canFetchOp_lifeCore (r) : (d.canFetchOp r).dev.lifeCore = d.lifeCore := by simp [Dev.canFetchOp]
@[simp] theorem canRecoverOp_lifeCore (tag r) : (d.canRecoverOp tag r).dev.lifeCore = d.lifeCore := by simp [Dev.canRecoverOp]
@[simp] theorem canRecoverStop_lifeCore (tag) : (d.canRecoverStop tag).lifeCore = d.lifeCore := (rfl)

/-! ### The control engine (09) -/

@[simp] theorem setLoop_lifeCore (i x) : (d.setLoop i x).lifeCore = d.lifeCore := (rfl)
@[simp] theorem setSec_lifeCore (s x) : (d.setSec s x).lifeCore = d.lifeCore := (rfl)
@[simp] theorem cascade_lifeCore (ss : List Nat) (n mask : Nat) (hold : Bool) (x : Int) :
    (Dev.cascade ss n mask hold x d).2.2.lifeCore = d.lifeCore := by
  induction ss generalizing n x d with
  | nil => rfl
  | cons s ss ih => simp [Dev.cascade, ih]
@[simp] theorem loopEvent_lifeCore (code sev i data) : (d.loopEvent code sev i data).lifeCore = d.lifeCore := (rfl)
@[simp] theorem loopHold_lifeCore (i spq fbq x) : (d.loopHold i spq fbq x).lifeCore = d.lifeCore := by simp [Dev.loopHold]
@[simp] theorem loopStart_lifeCore (i x sp fb) : (d.loopStart i x sp fb).2.lifeCore = d.lifeCore := by simp [Dev.loopStart]
@[simp] theorem loopRun_lifeCore (i x sp fb worst) : (d.loopRun i x sp fb worst).lifeCore = d.lifeCore := by simp [Dev.loopRun]
@[simp] theorem loopPass_lifeCore (i) : (d.loopPass i).lifeCore = d.lifeCore := by simp [Dev.loopPass]
@[simp] theorem loopPoints_lifeCore (i) : (d.loopPoints i).lifeCore = d.lifeCore := by simp [Dev.loopPoints]
@[simp] theorem takeSetpoints_lifeCore : d.takeSetpoints.lifeCore = d.lifeCore := by
  unfold Dev.takeSetpoints
  dsimp only
  (repeat' split) <;> simp
@[simp] theorem enginePass_lifeCore (seen) : (d.enginePass seen).lifeCore = d.lifeCore := by simp [Dev.enginePass]
@[simp] theorem passOutputs_lifeCore (l) : (d.passOutputs l).lifeCore = d.lifeCore := by simp [Dev.passOutputs]
@[simp] theorem passOverrun_lifeCore (first) : (d.passOverrun first).lifeCore = d.lifeCore := by simp [Dev.passOverrun]
@[simp] theorem clampedLong_lifeCore (i) : (d.clampedLong i).lifeCore = d.lifeCore := by simp [Dev.clampedLong]
@[simp] theorem engineApply_lifeCore : d.engineApply.lifeCore = d.lifeCore := by simp [Dev.engineApply]

/-! ### Flow contexts (03) -/

@[simp] theorem setFlow_lifeCore (c x) : (d.setFlow c x).lifeCore = d.lifeCore := (rfl)
@[simp] theorem flowRefused_lifeCore (c o) : (d.flowRefused c o).lifeCore = d.lifeCore := by simp [Dev.flowRefused]
@[simp] theorem flowOpenOp_lifeCore (tag r) : (d.flowOpenOp tag r).dev.lifeCore = d.lifeCore := by
  unfold Dev.flowOpenOp
  (repeat' split) <;> simp
@[simp] theorem flowOpenAt_lifeCore (c p) : (d.flowOpenAt c p).lifeCore = d.lifeCore := by simp [Dev.flowOpenAt]
@[simp] theorem flowCloseAt_lifeCore (c) : (d.flowCloseAt c).lifeCore = d.lifeCore := by simp [Dev.flowCloseAt]
@[simp] theorem flowPair_lifeCore (c p) : (d.flowPair c p).1.lifeCore = d.lifeCore := by simp [Dev.flowPair]
@[simp] theorem flowCloseOp_lifeCore (tag r) : (d.flowCloseOp tag r).dev.lifeCore = d.lifeCore := by simp [Dev.flowCloseOp]
@[simp] theorem flowTick_lifeCore : d.flowTick.lifeCore = d.lifeCore := by
  unfold Dev.flowTick
  refine (foldl_lifeCore (fun x e => ?_) _ _).trans (by simp)
  split
  · simp
  · split <;> simp
@[simp] theorem flowOpenStop_lifeCore (tag) : (d.flowOpenStop tag).lifeCore = d.lifeCore := (rfl)
@[simp] theorem flowStart_lifeCore : d.flowStart.lifeCore = d.lifeCore := by
  unfold Dev.flowStart
  refine foldl_lifeCore (fun x e => ?_) _ _
  split <;> simp
@[simp] theorem flowStatusOp_lifeCore (r) : (d.flowStatusOp r).dev.lifeCore = d.lifeCore := by simp [Dev.flowStatusOp]
@[simp] theorem flowAccept_lifeCore (c) : (d.flowAccept c).lifeCore = d.lifeCore := by simp [Dev.flowAccept]
@[simp] theorem flowTypeDrop_lifeCore (c i) : (d.flowTypeDrop c i).lifeCore = d.lifeCore := by simp [Dev.flowTypeDrop]
@[simp] theorem flowFixed_lifeCore (c f) : (d.flowFixed c f).lifeCore = d.lifeCore := by
  unfold Dev.flowFixed
  refine (foldl_lifeCore (fun x e => ?_) _ _).trans (by simp)
  dsimp only
  split <;> simp
@[simp] theorem flowRecord_lifeCore (c i p valid s) : (Dev.flowRecord c i p valid s).1.lifeCore = s.1.lifeCore := by simp [Dev.flowRecord]
@[simp] theorem flowStream_lifeCore (c bs) : (d.flowStream c bs).lifeCore = d.lifeCore := by
  unfold Dev.flowStream
  dsimp only
  (repeat' split) <;> simp
@[simp] theorem flowOffer_lifeCore (port f) : (d.flowOffer port f).lifeCore = d.lifeCore := by simp [Dev.flowOffer]
@[simp] theorem ownStack_lifeCore (port f) : (d.ownStack port f).lifeCore = d.lifeCore := by simp [Dev.ownStack]
@[simp] theorem ethReceived_lifeCore (port f) : (d.ethReceived port f).lifeCore = d.lifeCore := by simp [Dev.ethReceived]
@[simp] theorem flowDegrade_lifeCore (onTimeout i) : (d.flowDegrade onTimeout i).lifeCore = d.lifeCore := by simp [Dev.flowDegrade]
@[simp] theorem flowTimeout_lifeCore (c) : (d.flowTimeout c).lifeCore = d.lifeCore := by simp [Dev.flowTimeout]
@[simp] theorem flowBadAfter_lifeCore (c) : (d.flowBadAfter c).lifeCore = d.lifeCore := by simp [Dev.flowBadAfter]
@[simp] theorem publishMissed_lifeCore (c seq) : (d.publishMissed c seq).lifeCore = d.lifeCore := by simp [Dev.publishMissed]
@[simp] theorem flowPublish_lifeCore (c) : (d.flowPublish c).lifeCore = d.lifeCore := by simp [Dev.flowPublish]
@[simp] theorem flowPublishAll_lifeCore : d.flowPublishAll.lifeCore = d.lifeCore := by simp [Dev.flowPublishAll]

/-! ### The plant (10) -/

@[simp] theorem modSect_lifeCore (b f) : (d.modSect b f).lifeCore = d.lifeCore := (rfl)
@[simp] theorem modGen_lifeCore (g f) : (d.modGen g f).lifeCore = d.lifeCore := (rfl)
@[simp] theorem modIsl_lifeCore (i f) : (d.modIsl i f).lifeCore = d.lifeCore := (rfl)
@[simp] theorem modPb_lifeCore (j f) : (d.modPb j f).lifeCore = d.lifeCore := (rfl)
@[simp] theorem refuseType_lifeCore (k bad told isl gen) :
    (d.refuseType k bad told isl gen).lifeCore = d.lifeCore := by simp [Dev.refuseType]
@[simp] theorem genRead_lifeCore (rd g) : (d.genRead rd g).lifeCore = d.lifeCore := by simp [Dev.genRead]
@[simp] theorem fallbackEnds_lifeCore (i) : (d.fallbackEnds i).lifeCore = d.lifeCore := by simp [Dev.fallbackEnds]
@[simp] theorem pmsFallback_lifeCore (i) : (d.pmsFallback i).lifeCore = d.lifeCore := by simp [Dev.pmsFallback]
@[simp] theorem plantFree_lifeCore : (d.plantFree).2.lifeCore = d.lifeCore := (rfl)
@[simp] theorem measure_lifeCore (b vs) : (d.measure b vs).lifeCore = d.lifeCore := by
  unfold Dev.measure
  split <;> simp
@[simp] theorem sectionStep_lifeCore (b) : (d.sectionStep b).lifeCore = d.lifeCore := by simp [Dev.sectionStep]
@[simp] theorem fallbackMoves_lifeCore (old) : (d.fallbackMoves old).lifeCore = d.lifeCore := by simp [Dev.fallbackMoves]
@[simp] theorem formIslands_lifeCore : d.formIslands.lifeCore = d.lifeCore := by simp [Dev.formIslands]
@[simp] theorem plantTick_lifeCore : d.plantTick.lifeCore = d.lifeCore := by simp [Dev.plantTick]
@[simp] theorem gensSeen_lifeCore : d.gensSeen.lifeCore = d.lifeCore := (rfl)
@[simp] theorem plantJudge_lifeCore : (d.plantJudge).1.lifeCore = d.lifeCore := by simp [Dev.plantJudge]
@[simp] theorem stepOf3_lifeCore (i) : (d.stepOf3 i).2.lifeCore = d.lifeCore := by simp [Dev.stepOf3]
@[simp] theorem pbEnter_lifeCore (i cs opened) : (d.pbEnter i cs opened).lifeCore = d.lifeCore := by simp [Dev.pbEnter]
@[simp] theorem pbIsland_lifeCore (seen i) : (d.pbIsland seen i).2.lifeCore = d.lifeCore := by simp [Dev.pbIsland]
@[simp] theorem releaseHold_lifeCore (i) : (d.releaseHold i).lifeCore = d.lifeCore := by
  unfold Dev.releaseHold
  dsimp only
  (repeat' split) <;> simp
@[simp] theorem sectionPoints_lifeCore (b) : (d.sectionPoints b).lifeCore = d.lifeCore := by simp [Dev.sectionPoints]
@[simp] theorem plantPoints_lifeCore : d.plantPoints.lifeCore = d.lifeCore := by simp [Dev.plantPoints]
@[simp] theorem plantAct_lifeCore (seen) : (d.plantAct seen).1.lifeCore = d.lifeCore := by simp [Dev.plantAct]
@[simp] theorem plantApply_lifeCore : d.plantApply.lifeCore = d.lifeCore := by simp [Dev.plantApply]

/-! ### Thruster commands on their way out (01, 09, 12) -/

@[simp] theorem slotDone_lifeCore (s) : (d.slotDone s).lifeCore = d.lifeCore := (rfl)
@[simp] theorem queueGroup_lifeCore (due limit rec' l g) :
    (d.queueGroup due limit rec' l g).lifeCore = d.lifeCore := by simp [Dev.queueGroup]
@[simp] theorem launchThr_lifeCore (q due) : (d.launchThr q due).lifeCore = d.lifeCore := by simp [Dev.launchThr]
@[simp] theorem cutoff_lifeCore (notQueued) : (d.cutoff notQueued).lifeCore = d.lifeCore := by simp [Dev.cutoff]
@[simp] theorem launchRecord_lifeCore (j) : (d.launchRecord j).lifeCore = d.lifeCore := by simp [Dev.launchRecord]
@[simp] theorem launchThrusters_lifeCore : d.launchThrusters.lifeCore = d.lifeCore := by simp [Dev.launchThrusters]
@[simp] theorem limitOn_lifeCore (j c) : (d.limitOn j c).lifeCore = d.lifeCore := by simp [Dev.limitOn]
@[simp] theorem limitFrames_lifeCore (js) : (d.limitFrames js).lifeCore = d.lifeCore := by simp [Dev.limitFrames]
@[simp] theorem confirmTick_lifeCore : d.confirmTick.lifeCore = d.lifeCore := by simp [Dev.confirmTick]

end

end Sys2Proof.Machine
end

section
/-! PROOFS. What RETIRED rests on is left as it was: the pair, the satellites and fusion (17 R483, R486). -/

namespace Sys2Proof.Machine

open Sys2Proof

section
variable (d : Dev)

/-! ### The pair (13) -/

@[simp] theorem modClasp_lifeCore (f) : (d.modClasp f).lifeCore = d.lifeCore := (rfl)
@[simp] theorem setRole_lifeCore (r) : (d.setRole r).lifeCore = d.lifeCore := by simp [Dev.setRole]
@[simp] theorem takeLease_lifeCore (idle) : (d.takeLease idle).lifeCore = d.lifeCore := (rfl)
@[simp] theorem claim_lifeCore (kind) : (d.claim kind).lifeCore = d.lifeCore := by simp [Dev.claim]
@[simp] theorem leaseExpires_lifeCore : d.leaseExpires.lifeCore = d.lifeCore := by simp [Dev.leaseExpires]
@[simp] theorem fenceAck_lifeCore : d.fenceAck.lifeCore = d.lifeCore := by
  unfold Dev.fenceAck
  split <;> simp
@[simp] theorem releaseRepeat_lifeCore : d.releaseRepeat.lifeCore = d.lifeCore := by
  unfold Dev.releaseRepeat
  split <;> simp
@[simp] theorem endRelease_lifeCore (f) : (d.endRelease f).lifeCore = d.lifeCore := by
  unfold Dev.endRelease
  split <;> simp
@[simp] theorem releaseAtLaunch_lifeCore : d.releaseAtLaunch.lifeCore = d.lifeCore := by
  unfold Dev.releaseAtLaunch
  split <;> simp
@[simp] theorem roleReleaseOp_lifeCore (tag) : (d.roleReleaseOp tag).dev.lifeCore = d.lifeCore := by simp [Dev.roleReleaseOp]
@[simp] theorem takeBack_lifeCore : d.takeBack.lifeCore = d.lifeCore := by
  unfold Dev.takeBack
  split <;> simp
@[simp] theorem ownEdge_lifeCore : d.ownEdge.lifeCore = d.lifeCore := (rfl)
@[simp] theorem ownQuiet_lifeCore : d.ownQuiet.lifeCore = d.lifeCore := by simp [Dev.ownQuiet]
@[simp] theorem secondOwner_lifeCore : d.secondOwner.lifeCore = d.lifeCore := by simp [Dev.secondOwner]
@[simp] theorem mismatch_lifeCore (kind) : (d.mismatch kind).lifeCore = d.lifeCore := by simp [Dev.mismatch]
@[simp] theorem beatSend_lifeCore : d.beatSend.lifeCore = d.lifeCore := by simp [Dev.beatSend]
@[simp] theorem laneError_lifeCore (bs) : (d.laneError bs).lifeCore = d.lifeCore := by simp [Dev.laneError]
@[simp] theorem laneGood_lifeCore (lane) : (d.laneGood lane).lifeCore = d.lifeCore := by simp [Dev.laneGood]
@[simp] theorem laneDown_lifeCore (lane) : (d.laneDown lane).lifeCore = d.lifeCore := by simp [Dev.laneDown]
@[simp] theorem ackMirror_lifeCore (b) : (d.ackMirror b).lifeCore = d.lifeCore := (rfl)
@[simp] theorem beatReceived_lifeCore (lane bs) : (d.beatReceived lane bs).lifeCore = d.lifeCore := by
  unfold Dev.beatReceived
  dsimp only
  (repeat' split) <;> simp
@[simp] theorem partnerLost_lifeCore : d.partnerLost.lifeCore = d.lifeCore := by simp [Dev.partnerLost]
@[simp] theorem takeOnce_lifeCore (typ frame) : (d.takeOnce typ frame).2.lifeCore = d.lifeCore := by simp [Dev.takeOnce]
@[simp] theorem releaseReceived_lifeCore (bs) : (d.releaseReceived bs).lifeCore = d.lifeCore := by
  unfold Dev.releaseReceived
  split <;> simp
@[simp] theorem flowStateReceived_lifeCore (bs) : (d.flowStateReceived bs).lifeCore = d.lifeCore := by
  unfold Dev.flowStateReceived
  split <;> simp
@[simp] theorem claspCount_lifeCore : d.claspCount.lifeCore = d.lifeCore := (rfl)
@[simp] theorem suspTick_lifeCore : d.suspTick.lifeCore = d.lifeCore := by simp [Dev.suspTick]
@[simp] theorem syncTick_lifeCore : d.syncTick.lifeCore = d.lifeCore := by simp [Dev.syncTick]
@[simp] theorem claimWaitEnds_lifeCore : d.claimWaitEnds.lifeCore = d.lifeCore := by
  unfold Dev.claimWaitEnds
  split <;> simp
@[simp] theorem orphanSolo_lifeCore : d.orphanSolo.lifeCore = d.lifeCore := by simp [Dev.orphanSolo]
@[simp] theorem orphanTake_lifeCore : d.orphanTake.lifeCore = d.lifeCore := by simp [Dev.orphanTake]
@[simp] theorem roleTick_lifeCore : d.roleTick.lifeCore = d.lifeCore := by simp [Dev.roleTick]
@[simp] theorem holdoffEnds_lifeCore : d.holdoffEnds.lifeCore = d.lifeCore := by
  unfold Dev.holdoffEnds
  split <;> simp
@[simp] theorem returnTick_lifeCore : d.returnTick.lifeCore = d.lifeCore := by simp [Dev.returnTick]
@[simp] theorem setFeed_lifeCore (feed volts valid) : (d.setFeed feed volts valid).lifeCore = d.lifeCore := (rfl)
@[simp] theorem bothFeedsFailed_lifeCore : d.bothFeedsFailed.lifeCore = d.lifeCore := by simp [Dev.bothFeedsFailed]
@[simp] theorem feedInvalid_lifeCore (feed volts) : (d.feedInvalid feed volts).lifeCore = d.lifeCore := by simp [Dev.feedInvalid]
@[simp] theorem feedValid_lifeCore (feed volts) : (d.feedValid feed volts).lifeCore = d.lifeCore := by simp [Dev.feedValid]

/-! ### The ranging engine up to its latch (05) -/

@[simp] theorem modGnss_lifeCore (f) : (d.modGnss f).lifeCore = d.lifeCore := (rfl)
@[simp] theorem gnssFree_lifeCore : (d.gnssFree).2.lifeCore = d.lifeCore := (rfl)
@[simp] theorem setChan_lifeCore (k x) : (d.setChan k x).lifeCore = d.lifeCore := (rfl)
@[simp] theorem linkFalls_lifeCore (n) : (d.linkFalls n).lifeCore = d.lifeCore := by simp [Dev.linkFalls]
@[simp] theorem fitFrame_lifeCore (n count) : (d.fitFrame n count).lifeCore = d.lifeCore := (rfl)
@[simp] theorem linkFrame_lifeCore (n f) : (d.linkFrame n f).lifeCore = d.lifeCore := by simp [Dev.linkFrame]
@[simp] theorem handover_lifeCore (a sat sig gloK) : (d.handover a sat sig gloK).lifeCore = d.lifeCore := by
  unfold Dev.handover
  dsimp only
  (repeat' split) <;> simp
@[simp] theorem searchEnds_lifeCore (j) : (d.searchEnds j).lifeCore = d.lifeCore := by simp [Dev.searchEnds]
@[simp] theorem acquisitionPass_lifeCore : d.acquisitionPass.lifeCore = d.lifeCore := by simp [Dev.acquisitionPass]
@[simp] theorem lossOfLock_lifeCore (a c) : (d.lossOfLock a c).lifeCore = d.lifeCore := by simp [Dev.lossOfLock]
@[simp] theorem reacqExpiry_lifeCore (a c) : (d.reacqExpiry a c).lifeCore = d.lifeCore := by
  unfold Dev.reacqExpiry
  split <;> simp
@[simp] theorem aidChannels_lifeCore : d.aidChannels.lifeCore = d.lifeCore := by simp [Dev.aidChannels]
@[simp] theorem gnssLatchTick_lifeCore : d.gnssLatchTick.lifeCore = d.lifeCore := by simp [Dev.gnssLatchTick]
@[simp] theorem gnssRawOp_lifeCore (r) : (d.gnssRawOp r).dev.lifeCore = d.lifeCore := by simp [Dev.gnssRawOp]

/-! ### The ranging engine from its latch on (05) -/

@[simp] theorem corrReject_lifeCore (s reason) : (d.corrReject s reason).lifeCore = d.lifeCore := by simp [Dev.corrReject]
@[simp] theorem corrMsm_lifeCore (s typ station p e) : (d.corrMsm s typ station p e).lifeCore = d.lifeCore := by simp [Dev.corrMsm]
@[simp] theorem corrFrame_lifeCore (s p) : (d.corrFrame s p).2.lifeCore = d.lifeCore := by
  unfold Dev.corrFrame
  dsimp only
  (repeat' split) <;> simp
@[simp] theorem corrTake_lifeCore (fuel s : Nat) (bs : List Byte) (n : Nat) :
    (Dev.corrTake fuel s bs n d).2.2.lifeCore = d.lifeCore := by
  induction fuel generalizing bs n d with
  | zero => rfl
  | succ fuel ih =>
    unfold Dev.corrTake
    dsimp only
    (repeat' split) <;> simp [ih]
@[simp] theorem corrBytes_lifeCore (s bs) : (d.corrBytes s bs).2.lifeCore = d.lifeCore := by simp [Dev.corrBytes]
@[simp] theorem corrFeedOp_lifeCore (r) : (d.corrFeedOp r).dev.lifeCore = d.lifeCore := by simp [Dev.corrFeedOp]
@[simp] theorem corrDatagram_lifeCore (iface port bs) : (d.corrDatagram iface port bs).lifeCore = d.lifeCore := by simp [Dev.corrDatagram]
@[simp] theorem corrStale_lifeCore (s) : (d.corrStale s).lifeCore = d.lifeCore := by
  unfold Dev.corrStale
  dsimp only
  (repeat' split) <;> simp
@[simp] theorem markUsed_lifeCore : d.markUsed.lifeCore = d.lifeCore := (rfl)
@[simp] theorem residualTest_lifeCore (n a : Nat) : (Dev.residualTest n a d).lifeCore = d.lifeCore := by
  induction n generalizing d with
  | zero => rfl
  | succ n ih => simp [Dev.residualTest, ih]
@[simp] theorem integrity_lifeCore : d.integrity.lifeCore = d.lifeCore := by simp [Dev.integrity]
@[simp] theorem fixBaseline_lifeCore (n b : Nat) : (Dev.fixBaseline n b d).2.lifeCore = d.lifeCore := by
  induction n generalizing d with
  | zero => rfl
  | succ n ih => simp [Dev.fixBaseline, ih]
@[simp] theorem baselineStep_lifeCore (b) : (d.baselineStep b).lifeCore = d.lifeCore := by simp [Dev.baselineStep]
@[simp] theorem attitudeStep_lifeCore : d.attitudeStep.lifeCore = d.lifeCore := by simp [Dev.attitudeStep]
@[simp] theorem positionStep_lifeCore : d.positionStep.lifeCore = d.lifeCore := by simp [Dev.positionStep]
@[simp] theorem agreement_lifeCore (newFix) : (d.agreement newFix).lifeCore = d.lifeCore := by
  unfold Dev.agreement
  dsimp only
  (repeat' split) <;> simp
@[simp] theorem solutionComplete_lifeCore : d.solutionComplete.lifeCore = d.lifeCore := by simp [Dev.solutionComplete]
@[simp] theorem gnssPostF_lifeCore (i frac v q st) : (d.gnssPostF i frac v q st).lifeCore = d.lifeCore := by simp [Dev.gnssPostF]
@[simp] theorem gnssPost3_lifeCore (i frac v q st) : (d.gnssPost3 i frac v q st).lifeCore = d.lifeCore := by simp [Dev.gnssPost3]
@[simp] theorem gnssPostU_lifeCore (i v q st) : (d.gnssPostU i v q st).lifeCore = d.lifeCore := by simp [Dev.gnssPostU]
@[simp] theorem antennaPoints_lifeCore (q st a) : (d.antennaPoints q st a).lifeCore = d.lifeCore := by simp [Dev.antennaPoints]
@[simp] theorem channelPoints_lifeCore (st) : (d.channelPoints st).lifeCore = d.lifeCore := by simp [Dev.channelPoints]
@[simp] theorem gnssPoints_lifeCore : d.gnssPoints.lifeCore = d.lifeCore := by simp [Dev.gnssPoints]
@[simp] theorem solutionDeadline_lifeCore : d.solutionDeadline.lifeCore = d.lifeCore := by simp [Dev.solutionDeadline]
@[simp] theorem gnssStore_lifeCore : d.gnssStore.lifeCore = d.lifeCore := (rfl)
@[simp] theorem gnssStoreWrite_lifeCore : d.gnssStoreWrite.lifeCore = d.lifeCore := by simp [Dev.gnssStoreWrite]
@[simp] theorem gnssApply_lifeCore : d.gnssApply.lifeCore = d.lifeCore := by simp [Dev.gnssApply]

/-! ### The numbers of fusion (06) -/

@[simp] theorem modFusion_lifeCore (f) : (d.modFusion f).lifeCore = d.lifeCore := (rfl)
@[simp] theorem modRef_lifeCore (r f) : (d.modRef r f).lifeCore = d.lifeCore := (rfl)
@[simp] theorem modCls_lifeCore (c f) : (d.modCls c f).lifeCore = d.lifeCore := (rfl)
@[simp] theorem level1Step_lifeCore : (d.level1Step).1.lifeCore = d.lifeCore := by simp [Dev.level1Step]

/-! ### Reference fusion (06) -/

@[simp] theorem slotTypes_lifeCore (r) : (d.slotTypes r).lifeCore = d.lifeCore := by simp [Dev.slotTypes]
@[simp] theorem multStep_lifeCore (r) : (d.multStep r).lifeCore = d.lifeCore := by simp [Dev.multStep]
@[simp] theorem multAll_lifeCore : d.multAll.lifeCore = d.lifeCore := by simp [Dev.multAll]
@[simp] theorem becomes_lifeCore (r) : (d.becomes r).lifeCore = d.lifeCore := (rfl)
@[simp] theorem refGone_lifeCore (r) : (d.refGone r).lifeCore = d.lifeCore := (rfl)
@[simp] theorem takeSample_lifeCore (r s late) : (d.takeSample r s late).lifeCore = d.lifeCore := by simp [Dev.takeSample]
@[simp] theorem slotIntake_lifeCore (r) : (d.slotIntake r).lifeCore = d.lifeCore := by
  unfold Dev.slotIntake
  dsimp only
  (repeat' split) <;> simp
@[simp] theorem gnssRef_lifeCore : d.gnssRef.lifeCore = d.lifeCore := (rfl)
@[simp] theorem maxgap_lifeCore (r) : (d.maxgap r).lifeCore = d.lifeCore := by simp [Dev.maxgap]
@[simp] theorem modelTests_lifeCore (c l w) : (d.modelTests c l w).lifeCore = d.lifeCore := by simp [Dev.modelTests]
@[simp] theorem rejectLoop_lifeCore (n c : Nat) (ts : List PairTest) (l : List Nat) :
    (Dev.rejectLoop n c ts l d).2.lifeCore = d.lifeCore := by
  induction n generalizing l d with
  | zero => rfl
  | succ n ih =>
    unfold Dev.rejectLoop
    split
    · rfl
    · split <;> simp [ih]
@[simp] theorem dropConflict_lifeCore (c) : (d.dropConflict c).lifeCore = d.lifeCore := by
  unfold Dev.dropConflict
  split <;> simp
@[simp] theorem setFallback_lifeCore (c on) : (d.setFallback c on).lifeCore = d.lifeCore := by simp [Dev.setFallback]
@[simp] theorem useAll_lifeCore (c l) : (d.useAll c l).lifeCore = d.lifeCore := by simp [Dev.useAll]
@[simp] theorem twoRefs_lifeCore (c a b t) : (d.twoRefs c a b t).lifeCore = d.lifeCore := by simp [Dev.twoRefs]
@[simp] theorem watchReadmit_lifeCore (c w avail) : (d.watchReadmit c w avail).lifeCore = d.lifeCore := by simp [Dev.watchReadmit]
@[simp] theorem classStep_lifeCore (w : Work) (c : Nat) : (d.classStep w c).lifeCore = d.lifeCore := by
  unfold Dev.classStep
  extract_lets aligned avail modelled l ts free
  have kept : (Dev.rejectLoop l.length c ts l free).2.lifeCore = d.lifeCore := by simp [free, modelled, aligned]
  generalize Dev.rejectLoop l.length c ts l free = x at kept ⊢
  obtain ⟨l, e⟩ := x
  dsimp -zeta only at kept ⊢
  extract_lets dropped judged some0 alone weighed shown
  have judges : judged.lifeCore = e.lifeCore := by
    unfold judged dropped
    (repeat' split) <;> simp
  clear_value judged
  simp [shown, weighed, judges, kept]
@[simp] theorem readmit_lifeCore (c r) : (d.readmit c r).lifeCore = d.lifeCore := by
  unfold Dev.readmit
  dsimp only
  (repeat' split) <;> simp
@[simp] theorem conflictExpired_lifeCore (c) : (d.conflictExpired c).lifeCore = d.lifeCore := by
  unfold Dev.conflictExpired
  split <;> simp
@[simp] theorem conflictCleared_lifeCore (c) : (d.conflictCleared c).lifeCore = d.lifeCore := by
  unfold Dev.conflictCleared
  (repeat' split) <;> simp
@[simp] theorem lateSample_lifeCore (r) : (d.lateSample r).lifeCore = d.lifeCore := by
  unfold Dev.lateSample
  dsimp only
  (repeat' split) <;> simp
@[simp] theorem lateSamples_lifeCore : (d.lateSamples).1.lifeCore = d.lifeCore := by
  unfold Dev.lateSamples
  dsimp only
  (repeat' split) <;> simp
@[simp] theorem windStep_lifeCore (w) : (d.windStep w).lifeCore = d.lifeCore := by simp [Dev.windStep]
@[simp] theorem waveStep_lifeCore (w) : (d.waveStep w).lifeCore = d.lifeCore := by
  unfold Dev.waveStep
  (repeat' split) <;> simp
@[simp] theorem weigh_lifeCore : (d.weigh).1.lifeCore = d.lifeCore := by simp [Dev.weigh]
@[simp] theorem coasted_lifeCore : d.coasted.lifeCore = d.lifeCore := by simp [Dev.coasted]
@[simp] theorem fusionPoints_lifeCore : d.fusionPoints.lifeCore = d.lifeCore := by simp [Dev.fusionPoints]
@[simp] theorem issue_lifeCore : d.issue.lifeCore = d.lifeCore := (rfl)
@[simp] theorem originFar_lifeCore (before) : (d.originFar before).lifeCore = d.lifeCore := by simp [Dev.originFar]
@[simp] theorem tryInit_lifeCore : d.tryInit.lifeCore = d.lifeCore := by
  unfold Dev.tryInit
  split <;> simp
@[simp] theorem reinit_lifeCore : d.reinit.lifeCore = d.lifeCore := by simp [Dev.reinit]
@[simp] theorem gather_lifeCore : (d.gather).1.lifeCore = d.lifeCore := by simp [Dev.gather]
@[simp] theorem environment_lifeCore : d.environment.lifeCore = d.lifeCore := (rfl)
@[simp] theorem fuseFrame_lifeCore : (d.fuseFrame).1.lifeCore = d.lifeCore := by simp [Dev.fuseFrame]
@[simp] theorem saturated_lifeCore : d.saturated.lifeCore = d.lifeCore := by simp [Dev.saturated]
@[simp] theorem fuse_lifeCore : d.fuse.lifeCore = d.lifeCore := by simp [Dev.fuse]
@[simp] theorem lateRecord_lifeCore (before next) : (Dev.lateRecord before next).lifeCore = next.lifeCore := by simp [Dev.lateRecord]
@[simp] theorem fuseLate_lifeCore : d.fuseLate.lifeCore = d.lifeCore := by simp [Dev.fuseLate]
@[simp] theorem fuseForgone_lifeCore : d.fuseForgone.lifeCore = d.lifeCore := by simp [Dev.fuseForgone]
@[simp] theorem fusionOutput_lifeCore (late) : (d.fusionOutput late).lifeCore = d.lifeCore := by simp [Dev.fusionOutput]
@[simp] theorem fusionSettled_lifeCore : d.fusionSettled.lifeCore = d.lifeCore := by simp [Dev.fusionSettled]
@[simp] theorem fusionApply_lifeCore : d.fusionApply.lifeCore = d.lifeCore := by simp [Dev.fusionApply]
@[simp] theorem stateReadOp_lifeCore : (d.stateReadOp).dev.lifeCore = d.lifeCore := (rfl)

end

end Sys2Proof.Machine
end

section
/-! PROOFS. What RETIRED rests on is left as it was: solver, consequence analysis and safety island (17 R483, R486). -/

namespace Sys2Proof.Machine

open Sys2Proof

section
variable (d : Dev)

/-! ### The solver's problem (07) -/

@[simp] theorem modSolver_lifeCore (f) : (d.modSolver f).lifeCore = d.lifeCore := (rfl)
@[simp] theorem solverFree_lifeCore : (d.solverFree).2.lifeCore = d.lifeCore := (rfl)
@[simp] theorem startStages_lifeCore (pct prev kind ts bs s0) : (d.startStages pct prev kind ts bs s0).2.lifeCore = d.lifeCore := by
  unfold Dev.startStages
  (repeat' split) <;> simp

/-! ### The solver (07) -/

@[simp] theorem seedTarget_lifeCore : d.seedTarget.lifeCore = d.lifeCore := (rfl)
@[simp] theorem targetTick_lifeCore : d.targetTick.lifeCore = d.lifeCore := by
  unfold Dev.targetTick
  dsimp only
  (repeat' split) <;> simp
@[simp] theorem targetSetOp_lifeCore (r) : (d.targetSetOp r).dev.lifeCore = d.lifeCore := by
  unfold Dev.targetSetOp
  dsimp only
  (repeat' split) <;> simp
@[simp] theorem joystickOp_lifeCore (r) : (d.joystickOp r).dev.lifeCore = d.lifeCore := by simp [Dev.joystickOp]
@[simp] theorem joyTimeout_lifeCore : d.joyTimeout.lifeCore = d.lifeCore := by simp [Dev.joyTimeout]
@[simp] theorem modeSetOp_lifeCore (tag r) : (d.modeSetOp tag r).dev.lifeCore = d.lifeCore := by
  unfold Dev.modeSetOp
  split <;> simp
@[simp] theorem modeInForce_lifeCore (m) : (d.modeInForce m).lifeCore = d.lifeCore := by
  unfold Dev.modeInForce
  dsimp only
  (repeat' split) <;> simp
@[simp] theorem modeTick_lifeCore : d.modeTick.lifeCore = d.lifeCore := by
  unfold Dev.modeTick
  split <;> simp
@[simp] theorem modeStop_lifeCore (tag) : (d.modeStop tag).lifeCore = d.lifeCore := by
  unfold Dev.modeStop
  split <;> simp
@[simp] theorem solverPoints_lifeCore : d.solverPoints.lifeCore = d.lifeCore := by simp [Dev.solverPoints]
@[simp] theorem satEvent_lifeCore (slot was now) : (d.satEvent slot was now).lifeCore = d.lifeCore := by simp [Dev.satEvent]
@[simp] theorem slackWatch_lifeCore (out) : (d.slackWatch out).lifeCore = d.lifeCore := by simp [Dev.slackWatch]
@[simp] theorem countShifted_lifeCore (outcome) : (d.countShifted outcome).lifeCore = d.lifeCore := by simp [Dev.countShifted]
@[simp] theorem solveOutput_lifeCore (s outcome phase count out z y) :
    (d.solveOutput s outcome phase count out z y).lifeCore = d.lifeCore := by simp [Dev.solveOutput]
@[simp] theorem outputShifted_lifeCore (s phase count) : (d.outputShifted s phase count).lifeCore = d.lifeCore := by
  unfold Dev.outputShifted
  split <;> simp
@[simp] theorem solveEnd_lifeCore (s outcome phase) : (d.solveEnd s outcome phase).lifeCore = d.lifeCore := by simp [Dev.solveEnd]
@[simp] theorem noSolve_lifeCore (outcome) : (d.noSolve outcome).lifeCore = d.lifeCore := by simp [Dev.noSolve]
@[simp] theorem solveSetup_lifeCore : d.solveSetup.lifeCore = d.lifeCore := by simp [Dev.solveSetup]
@[simp] theorem solveIteration_lifeCore : d.solveIteration.lifeCore = d.lifeCore := by
  unfold Dev.solveIteration
  split <;> simp
@[simp] theorem solveDeadline_lifeCore : d.solveDeadline.lifeCore = d.lifeCore := by
  unfold Dev.solveDeadline
  split <;> simp
@[simp] theorem handoff_lifeCore (readable) : (d.handoff readable).lifeCore = d.lifeCore := by simp [Dev.handoff]
@[simp] theorem refineReset_lifeCore : d.refineReset.lifeCore = d.lifeCore := (rfl)
@[simp] theorem refineStart_lifeCore : d.refineStart.lifeCore = d.lifeCore := by simp [Dev.refineStart]
@[simp] theorem refineOne_lifeCore (est i s) : (Dev.refineOne est i s).2.lifeCore = s.2.lifeCore := by simp [Dev.refineOne]
@[simp] theorem refineEnd_lifeCore : d.refineEnd.lifeCore = d.lifeCore := by
  unfold Dev.refineEnd
  dsimp only
  (repeat' split) <;> simp
@[simp] theorem refineTick_lifeCore : d.refineTick.lifeCore = d.lifeCore := by
  unfold Dev.refineTick
  dsimp only
  (repeat' split) <;> simp
@[simp] theorem refineStore_lifeCore : d.refineStore.lifeCore = d.lifeCore := by simp [Dev.refineStore]
@[simp] theorem refineLoad_lifeCore : d.refineLoad.lifeCore = d.lifeCore := by
  unfold Dev.refineLoad
  split <;> simp

/-! ### The consequence analysis (08) -/

@[simp] theorem modConseq_lifeCore (f) : (d.modConseq f).lifeCore = d.lifeCore := (rfl)
@[simp] theorem modGroup_lifeCore (g f) : (d.modGroup g f).lifeCore = d.lifeCore := (rfl)
@[simp] theorem mapGroups_lifeCore (f) : (d.mapGroups f).lifeCore = d.lifeCore := (rfl)
@[simp] theorem conseqReadOp_lifeCore (r) : (d.conseqReadOp r).dev.lifeCore = d.lifeCore := by simp [Dev.conseqReadOp]
@[simp] theorem groupPoints_lifeCore (g) : (d.groupPoints g).lifeCore = d.lifeCore := by simp [Dev.groupPoints]
@[simp] theorem allGroupPoints_lifeCore : d.allGroupPoints.lifeCore = d.lifeCore := by simp [Dev.allGroupPoints]
@[simp] theorem cyclePoints_lifeCore : d.cyclePoints.lifeCore = d.lifeCore := by simp [Dev.cyclePoints]
@[simp] theorem holdResult_lifeCore (g r mainKey) : (d.holdResult g r mainKey).lifeCore = d.lifeCore := (rfl)
@[simp] theorem beginWhatIf_lifeCore (g) : (d.beginWhatIf g).lifeCore = d.lifeCore := by simp [Dev.beginWhatIf]
@[simp] theorem conseqWork_lifeCore (n : Nat) : (Dev.conseqWork n d).lifeCore = d.lifeCore := by
  induction n generalizing d with
  | zero => rfl
  | succ n ih =>
    unfold Dev.conseqWork
    split
    · split <;> simp [ih]
    · rfl
@[simp] theorem conseqOpen_lifeCore (delay stop) : (d.conseqOpen delay stop).lifeCore = d.lifeCore := by simp [Dev.conseqOpen]
@[simp] theorem conseqClose_lifeCore : d.conseqClose.lifeCore = d.lifeCore := by simp [Dev.conseqClose]
@[simp] theorem percent_lifeCore (num den) : (d.percent num den).2.lifeCore = d.lifeCore := by simp [Dev.percent]
@[simp] theorem utilisation_lifeCore (w s base) : (d.utilisation w s base).2.lifeCore = d.lifeCore := by simp [Dev.utilisation]
@[simp] theorem unbalance_lifeCore (w s) : (d.unbalance w s).2.lifeCore = d.lifeCore := by simp [Dev.unbalance]
@[simp] theorem startOf_lifeCore (w) : (d.startOf w).lifeCore = d.lifeCore := (rfl)
@[simp] theorem whatifComplete_lifeCore : d.whatifComplete.lifeCore = d.lifeCore := by
  unfold Dev.whatifComplete
  split <;> simp
@[simp] theorem writeResult_lifeCore (g) : (d.writeResult g).lifeCore = d.lifeCore := by
  unfold Dev.writeResult
  split <;> simp
@[simp] theorem alarmStep_lifeCore (g) : (d.alarmStep g).lifeCore = d.lifeCore := by simp [Dev.alarmStep]
@[simp] theorem conseqTail_lifeCore : d.conseqTail.lifeCore = d.lifeCore := by simp [Dev.conseqTail]
@[simp] theorem conseqAbandon_lifeCore : d.conseqAbandon.lifeCore = d.lifeCore := (rfl)
@[simp] theorem conseqTick_lifeCore : d.conseqTick.lifeCore = d.lifeCore := by simp [Dev.conseqTick]
@[simp] theorem cycleOverdue_lifeCore : d.cycleOverdue.lifeCore = d.lifeCore := by simp [Dev.cycleOverdue]
@[simp] theorem resultStale_lifeCore (g) : (d.resultStale g).lifeCore = d.lifeCore := by simp [Dev.resultStale]

/-! ### The safety island (14) -/

@[simp] theorem modSafe_lifeCore (f) : (d.modSafe f).lifeCore = d.lifeCore := (rfl)
@[simp] theorem modIn_lifeCore (i f) : (d.modIn i f).lifeCore = d.lifeCore := (rfl)
@[simp] theorem modOut_lifeCore (n f) : (d.modOut n f).lifeCore = d.lifeCore := (rfl)
@[simp] theorem noteFail_lifeCore (n cause) : (d.noteFail n cause).lifeCore = d.lifeCore := (rfl)
@[simp] theorem islandSafe_lifeCore (cause restart) : (d.islandSafe cause restart).lifeCore = d.lifeCore := by simp [Dev.islandSafe]
@[simp] theorem islandFault_lifeCore (cause) : (d.islandFault cause).lifeCore = d.lifeCore := by simp [Dev.islandFault]
@[simp] theorem islandStarting_lifeCore : d.islandStarting.lifeCore = d.lifeCore := (rfl)
@[simp] theorem bezelRead_lifeCore (w) : (d.bezelRead w).lifeCore = d.lifeCore := by simp [Dev.bezelRead]
@[simp] theorem bezelLatch_lifeCore (w1 w2) : (d.bezelLatch w1 w2).lifeCore = d.lifeCore := (rfl)
@[simp] theorem discrepancyTimeout_lifeCore (i) : (d.discrepancyTimeout i).lifeCore = d.lifeCore := by
  unfold Dev.discrepancyTimeout
  dsimp only
  (repeat' split) <;> simp
@[simp] theorem lineFaultClear_lifeCore (i) : (d.lineFaultClear i).lifeCore = d.lifeCore := by
  unfold Dev.lineFaultClear
  dsimp only
  (repeat' split) <;> simp
@[simp] theorem tpsStep_lifeCore (m g) : (d.tpsStep m g).lifeCore = d.lifeCore := by simp [Dev.tpsStep]
@[simp] theorem switchOn_lifeCore (n) : (d.switchOn n).lifeCore = d.lifeCore := by simp [Dev.switchOn]
@[simp] theorem permitReturns_lifeCore (n) : (d.permitReturns n).lifeCore = d.lifeCore := by simp [Dev.permitReturns]
@[simp] theorem permitStep_lifeCore (n) : (d.permitStep n).lifeCore = d.lifeCore := by simp [Dev.permitStep]
@[simp] theorem masterOpens_lifeCore (g) : (d.masterOpens g).lifeCore = d.lifeCore := (rfl)
@[simp] theorem outputFault_lifeCore (n cause) : (d.outputFault n cause).lifeCore = d.lifeCore := by simp [Dev.outputFault]
@[simp] theorem outputOvercurrent_lifeCore (n) : (d.outputOvercurrent n).lifeCore = d.lifeCore := by simp [Dev.outputOvercurrent]
@[simp] theorem outputReadback_lifeCore (n failedOn) : (d.outputReadback n failedOn).lifeCore = d.lifeCore := by simp [Dev.outputReadback]
@[simp] theorem readBack_lifeCore (m n) : (d.readBack m n).lifeCore = d.lifeCore := (rfl)
@[simp] theorem pulseCheck_lifeCore (m n) : (d.pulseCheck m n).lifeCore = d.lifeCore := by
  unfold Dev.pulseCheck
  dsimp only
  (repeat' split) <;> simp
@[simp] theorem pulseStart_lifeCore (n) : (d.pulseStart n).lifeCore = d.lifeCore := by simp [Dev.pulseStart]
@[simp] theorem resetInput_lifeCore (was) : (d.resetInput was).lifeCore = d.lifeCore := by
  unfold Dev.resetInput
  (repeat' split) <;> simp
@[simp] theorem resetInputHeld_lifeCore : d.resetInputHeld.lifeCore = d.lifeCore := by
  unfold Dev.resetInputHeld
  split <;> simp
@[simp] theorem masterTest_lifeCore (g low) : (d.masterTest g low).lifeCore = d.lifeCore := by simp [Dev.masterTest]
@[simp] theorem safetyReadOp_lifeCore (r) : (d.safetyReadOp r).dev.lifeCore = d.lifeCore := by simp [Dev.safetyReadOp]
@[simp] theorem islandPoints_lifeCore : d.islandPoints.lifeCore = d.lifeCore := by simp [Dev.islandPoints]
@[simp] theorem inputsStep_lifeCore (m) : (d.inputsStep m).lifeCore = d.lifeCore := by simp [Dev.inputsStep]
@[simp] theorem demandEvents_lifeCore (was on) : (d.demandEvents was on).lifeCore = d.lifeCore := by simp [Dev.demandEvents]
@[simp] theorem islandStage_lifeCore : d.islandStage.lifeCore = d.lifeCore := by simp [Dev.islandStage]
@[simp] theorem islandEcc_lifeCore (e) : (d.islandEcc e).lifeCore = d.lifeCore := by
  unfold Dev.islandEcc
  split <;> simp
@[simp] theorem islandTick_lifeCore (m) : (d.islandTick m).lifeCore = d.lifeCore := by simp [Dev.islandTick]

end

end Sys2Proof.Machine
end

section
/-! PROOFS. What RETIRED rests on is left as it was: configuration, life cycle, mirror and requests (17 R483, R486). -/

namespace Sys2Proof.Machine

open Sys2Proof

section
variable (d : Dev)

/-! ### Fields, staging and commits (02) -/

@[simp] theorem touchStage_lifeCore (s) : (d.touchStage s).lifeCore = d.lifeCore := by simp [Dev.touchStage]
@[simp] theorem paramReadOp_lifeCore (r) : (d.paramReadOp r).dev.lifeCore = d.lifeCore := by simp [Dev.paramReadOp]
@[simp] theorem hallmarkReadOp_lifeCore (r) : (d.hallmarkReadOp r).dev.lifeCore = d.lifeCore := (rfl)
@[simp] theorem markStage_lifeCore (k v) : (d.markStage k v).lifeCore = d.lifeCore := (rfl)
@[simp] theorem stageOne_lifeCore (k w) : (d.stageOne k w).lifeCore = d.lifeCore := (rfl)
@[simp] theorem paramStageOp_lifeCore (r) : (d.paramStageOp r).dev.lifeCore = d.lifeCore := by
  unfold Dev.paramStageOp
  dsimp only
  (repeat' split) <;> simp
@[simp] theorem unstage_lifeCore (ks) : (d.unstage ks).lifeCore = d.lifeCore := by simp [Dev.unstage]
@[simp] theorem paramDiscardOp_lifeCore (r) : (d.paramDiscardOp r).dev.lifeCore = d.lifeCore := by simp [Dev.paramDiscardOp]
@[simp] theorem abandonStage_lifeCore (reason) : (d.abandonStage reason).lifeCore = d.lifeCore := by
  unfold Dev.abandonStage
  split <;> simp
@[simp] theorem stageTimeout_lifeCore : d.stageTimeout.lifeCore = d.lifeCore := by simp [Dev.stageTimeout]
@[simp] theorem stageGuard_lifeCore : d.stageGuard.lifeCore = d.lifeCore := by
  unfold Dev.stageGuard
  split <;> simp
@[simp] theorem stagePcieReset_lifeCore : d.stagePcieReset.lifeCore = d.lifeCore := by
  unfold Dev.stagePcieReset
  split <;> simp
@[simp] theorem paramCommitOp_lifeCore (tag r) : (d.paramCommitOp tag r).dev.lifeCore = d.lifeCore := by simp [Dev.paramCommitOp]
@[simp] theorem commitRefused_lifeCore (c st rarg payload) :
    (d.commitRefused c st rarg payload).lifeCore = d.lifeCore := by simp [Dev.commitRefused]
@[simp] theorem commitWindow_lifeCore : d.commitWindow.lifeCore = d.lifeCore := by
  unfold Dev.commitWindow
  (repeat' split) <;> simp
@[simp] theorem storeConfig_lifeCore : d.storeConfig.lifeCore = d.lifeCore := by simp [Dev.storeConfig]
@[simp] theorem applyEffects_lifeCore (old) : (d.applyEffects old).lifeCore = d.lifeCore := by simp [Dev.applyEffects]
@[simp] theorem applySet_lifeCore (set mark) : (d.applySet set mark).lifeCore = d.lifeCore := by simp [Dev.applySet]
@[simp] theorem commitTick_lifeCore : d.commitTick.lifeCore = d.lifeCore := by
  unfold Dev.commitTick
  split <;> simp
@[simp] theorem commitReply_lifeCore : d.commitReply.lifeCore = d.lifeCore := by
  unfold Dev.commitReply
  split <;> simp
@[simp] theorem commitResult_lifeCore (bs) : (d.commitResult bs).lifeCore = d.lifeCore := by
  unfold Dev.commitResult
  dsimp only
  (repeat' split) <;> simp
@[simp] theorem commitResultTimeout_lifeCore : d.commitResultTimeout.lifeCore = d.lifeCore := by
  unfold Dev.commitResultTimeout
  split <;> simp
@[simp] theorem commitFailed_lifeCore (frame) : (d.commitFailed frame).lifeCore = d.lifeCore := (rfl)
@[simp] theorem commitReceived_lifeCore (bs) : (d.commitReceived bs).lifeCore = d.lifeCore := by
  unfold Dev.commitReceived
  dsimp only
  (repeat' split) <;> simp
@[simp] theorem partnerCommitTick_lifeCore (named) : (d.partnerCommitTick named).lifeCore = d.lifeCore := by
  unfold Dev.partnerCommitTick
  split <;> simp
@[simp] theorem commitDropped_lifeCore : d.commitDropped.lifeCore = d.lifeCore := by
  unfold Dev.commitDropped
  split <;> simp

/-! ### Life cycle and firmware (17) -/

@[simp] theorem modLife_lifeCore {f : LifeSt → LifeSt} (hs : (f d.life).state = d.life.state)
    (ha : (f d.life).advance = d.life.advance) (hp : (f d.life).powered = d.life.powered) (hr : (f d.life).inReset = d.life.inReset)
    (ht : (f d.life).thermalOff = d.life.thermalOff) : (d.modLife f).lifeCore = d.lifeCore := by
  unfold Dev.modLife Dev.lifeCore
  simp only [hs, ha, hp, hr, ht]
@[simp] theorem newChallenge_lifeCore : d.newChallenge.lifeCore = d.lifeCore := (rfl)
@[simp] theorem debugTick_lifeCore : d.debugTick.lifeCore = d.lifeCore := by simp [Dev.debugTick]
@[simp] theorem modImg_lifeCore (i f) : (d.modImg i f).lifeCore = d.lifeCore := (rfl)
@[simp] theorem modImg_lifeA (i f) : (d.modImg i f).nvm.lifeA = d.nvm.lifeA := (rfl)
@[simp] theorem modImg_lifeB (i f) : (d.modImg i f).nvm.lifeB = d.nvm.lifeB := (rfl)
@[simp] theorem fwStageOp_lifeCore (tag r) : (d.fwStageOp tag r).dev.lifeCore = d.lifeCore := by
  unfold Dev.fwStageOp
  dsimp only
  (repeat' split) <;> rfl
@[simp] theorem eraseDone_lifeCore : d.eraseDone.lifeCore = d.lifeCore := by
  unfold Dev.eraseDone
  (repeat' split) <;> simp
@[simp] theorem fwActivateOp_lifeCore (tag r) : (d.fwActivateOp tag r).dev.lifeCore = d.lifeCore := by
  unfold Dev.fwActivateOp
  (repeat' split) <;> simp
@[simp] theorem bootImage_lifeCore : d.bootImage.lifeCore = d.lifeCore := by
  unfold Dev.bootImage
  split <;> simp
@[simp] theorem partsChecked_lifeCore : d.partsChecked.lifeCore = d.lifeCore := by simp [Dev.partsChecked]
@[simp] theorem resetObeyed_lifeCore : d.resetObeyed.lifeCore = d.lifeCore := by
  unfold Dev.resetObeyed
  split <;> simp
@[simp] theorem unitReady_lifeCore : d.unitReady.lifeCore = d.lifeCore := by simp [Dev.unitReady]
@[simp] theorem runTick_lifeCore : d.runTick.lifeCore = d.lifeCore := by simp [Dev.runTick]
@[simp] theorem vioIsOut_lifeCore (bank mv) : (d.vioIsOut bank mv).lifeCore = d.lifeCore := by simp [Dev.vioIsOut]
@[simp] theorem vioIsBack_lifeCore (bank) : (d.vioIsBack bank).lifeCore = d.lifeCore := by simp [Dev.vioIsBack]
@[simp] theorem oscIsWarm_lifeCore (secs) : (d.oscIsWarm secs).lifeCore = d.lifeCore := by simp [Dev.oscIsWarm]
@[simp] theorem oscFails_lifeCore (kind ppb) : (d.oscFails kind ppb).lifeCore = d.lifeCore := by simp [Dev.oscFails]
@[simp] theorem dramError_lifeCore (addr uncorrectable) :
    (d.dramError addr uncorrectable).lifeCore = d.lifeCore := by simp [Dev.dramError]
@[simp] theorem gpioTick_lifeCore : d.gpioTick.lifeCore = d.lifeCore := (rfl)
@[simp] theorem debugAccess_lifeCore (a) : (d.debugAccess a).lifeCore = d.lifeCore := by
  unfold Dev.debugAccess
  split <;> simp

/-! ### The mirror and the partner's image (13) -/

@[simp] theorem mirrorSend_lifeCore : d.mirrorSend.lifeCore = d.lifeCore := by
  unfold Dev.mirrorSend
  split <;> simp
@[simp] theorem flowStateSend_lifeCore : d.flowStateSend.lifeCore = d.lifeCore := by simp [Dev.flowStateSend]
@[simp] theorem mirrorReceived_lifeCore (bs) : (d.mirrorReceived bs).lifeCore = d.lifeCore := by
  unfold Dev.mirrorReceived
  dsimp only
  (repeat' split) <;> simp
@[simp] theorem mirrorAbort_lifeCore : d.mirrorAbort.lifeCore = d.lifeCore := (rfl)
@[simp] theorem takeRef_lifeCore (r e) : (d.takeRef r e).lifeCore = d.lifeCore := (rfl)
@[simp] theorem takeConflict_lifeCore (timer c) : (d.takeConflict timer c).lifeCore = d.lifeCore := by
  unfold Dev.takeConflict
  extract_lets inOne e
  have kept : e.lifeCore = d.lifeCore := by
    unfold e
    split <;> simp
  clear_value e
  split <;> simp [kept]
@[simp] theorem divergence_lifeCore (new) : (d.divergence new).lifeCore = d.lifeCore := by simp [Dev.divergence]
@[simp] theorem takeFusion_lifeCore (f b) : (d.takeFusion f b).lifeCore = d.lifeCore := by simp [Dev.takeFusion]
@[simp] theorem takeSolution_lifeCore (m) : (d.takeSolution m).lifeCore = d.lifeCore := by simp [Dev.takeSolution]
@[simp] theorem followMode_lifeCore (m) : (d.followMode m).lifeCore = d.lifeCore := by simp [Dev.followMode]
@[simp] theorem takeCommand_lifeCore (b) : (d.takeCommand b).lifeCore = d.lifeCore := by simp [Dev.takeCommand]
@[simp] theorem takeModel_lifeCore (b) : (d.takeModel b).lifeCore = d.lifeCore := (rfl)
@[simp] theorem takeThrusters_lifeCore (b) : (d.takeThrusters b).lifeCore = d.lifeCore := by simp [Dev.takeThrusters]
@[simp] theorem takeStage_lifeCore (n b) : (d.takeStage n b).lifeCore = d.lifeCore := (rfl)
@[simp] theorem takeImage_lifeCore (n b) : (d.takeImage n b).lifeCore = d.lifeCore := by simp [Dev.takeImage]
@[simp] theorem mirrorApply_lifeCore : d.mirrorApply.lifeCore = d.lifeCore := by
  unfold Dev.mirrorApply
  dsimp only
  (repeat' split) <;> simp
@[simp] theorem imageStart_lifeCore : d.imageStart.lifeCore = d.lifeCore := by simp [Dev.imageStart]
@[simp] theorem imageSend_lifeCore : d.imageSend.lifeCore = d.lifeCore := by simp [Dev.imageSend]
@[simp] theorem imageReceived_lifeCore (bs) : (d.imageReceived bs).lifeCore = d.lifeCore := by
  unfold Dev.imageReceived
  dsimp only
  (repeat' split) <;> simp
@[simp] theorem resyncTick_lifeCore : d.resyncTick.lifeCore = d.lifeCore := by
  unfold Dev.resyncTick
  split
  · rfl
  split
  · simp
  dsimp only
  split
  · split
    · simp
    · simp only [modClasp_lifeCore, takeModel_lifeCore]
      refine (foldl_lifeCore (fun x e => ?_) _ _).trans (by simp)
      (repeat' split) <;> simp
  · rfl
@[simp] theorem resyncRetry_lifeCore : d.resyncRetry.lifeCore = d.lifeCore := by simp [Dev.resyncRetry]

/-! ### Requests (02) -/

@[simp] theorem packetEvent_lifeCore (src status) : (d.packetEvent src status).lifeCore = d.lifeCore := by simp [Dev.packetEvent]
@[simp] theorem rejectPacket_lifeCore (op q status rarg) :
    (d.rejectPacket op q status rarg).lifeCore = d.lifeCore := by simp [Dev.rejectPacket]
@[simp] theorem failPacket_lifeCore (op q crcs status rarg) :
    (d.failPacket op q crcs status rarg).lifeCore = d.lifeCore := by simp [Dev.failPacket]
@[simp] theorem stageHeard_lifeCore (op q) : (d.stageHeard op q).lifeCore = d.lifeCore := by simp [Dev.stageHeard]
@[simp] theorem intake_lifeCore (op q len size payOk crcs) : (d.intake op q len size payOk crcs).lifeCore = d.lifeCore := by
  unfold Dev.intake
  dsimp only
  (repeat' split) <;> simp
@[simp] theorem packetIn_lifeCore (src size p) : (d.packetIn src size p).lifeCore = d.lifeCore := by simp [Dev.packetIn]
@[simp] theorem clearOverruns_lifeCore : d.clearOverruns.lifeCore = d.lifeCore := (rfl)
@[simp] theorem timeStepOp_lifeCore (tag r) : (d.timeStepOp tag r).dev.lifeCore = d.lifeCore := by simp [Dev.timeStepOp]
@[simp] theorem runData_lifeCore (op r) : (d.runData op r).dev.lifeCore = d.lifeCore := by simp [Dev.runData]
@[simp] theorem solverReadOp_lifeCore (record r) : (d.solverReadOp record r).dev.lifeCore = d.lifeCore := by simp [Dev.solverReadOp]
@[simp] theorem signalReadFit_lifeCore (r) : (d.signalReadFit r).dev.lifeCore = d.lifeCore := by simp [Dev.signalReadFit]
@[simp] theorem accept_lifeCore (p f limit) : (d.accept p f limit).lifeCore = d.lifeCore := by simp [Dev.accept]
@[simp] theorem takeAnswer_lifeCore (p x) : (Dev.takeAnswer p x).lifeCore = x.dev.lifeCore := by
  unfold Dev.takeAnswer
  dsimp only
  split <;> simp
@[simp] theorem releaseFrom_lifeCore (l m : List Pend) : (Dev.releaseFrom l m d).lifeCore = d.lifeCore := by
  induction m generalizing l d with
  | nil => rfl
  | cons p m ih =>
    unfold Dev.releaseFrom
    dsimp only
    split
    · split <;> simp [ih]
    · exact ih _ _
@[simp] theorem release_lifeCore : d.release.lifeCore = d.lifeCore := by simp [Dev.release]
@[simp] theorem unhold_lifeCore (n : Nat) : (Dev.unhold n d).lifeCore = d.lifeCore := by
  induction n generalizing d with
  | zero => rfl
  | succ n ih =>
    unfold Dev.unhold
    split
    · rfl
    · simp [ih]
@[simp] theorem roleSweep_lifeCore : d.roleSweep.lifeCore = d.lifeCore := by
  unfold Dev.roleSweep
  dsimp only
  (repeat' split) <;> simp

end

end Sys2Proof.Machine
end

section
/-! PROOFS. What RETIRED rests on is left as it was: transports, frames and commands (17 R483, R486). -/

namespace Sys2Proof.Machine

open Sys2Proof

section
variable (d : Dev)

/-! ### Transports (02) -/

@[simp] theorem modPcie_lifeCore (f) : (d.modPcie f).lifeCore = d.lifeCore := (rfl)
@[simp] theorem ringFails_lifeCore (f) : (d.ringFails f).lifeCore = d.lifeCore := by simp [Dev.ringFails]
@[simp] theorem ringCheck_lifeCore : d.ringCheck.lifeCore = d.lifeCore := by simp [Dev.ringCheck]
@[simp] theorem slotTaken_lifeCore : d.slotTaken.lifeCore = d.lifeCore := (rfl)
@[simp] theorem producerWrite_lifeCore (value slots) : (d.producerWrite value slots).lifeCore = d.lifeCore := by simp [Dev.producerWrite]
@[simp] theorem consumerWrite_lifeCore (value) : (d.consumerWrite value).lifeCore = d.lifeCore := by simp [Dev.consumerWrite]
@[simp] theorem ctrlEnable_lifeCore (enable) : (d.ctrlEnable enable).lifeCore = d.lifeCore := by simp [Dev.ctrlEnable]
@[simp] theorem resetRings_lifeCore : d.resetRings.lifeCore = d.lifeCore := by simp [Dev.resetRings]
@[simp] theorem irqClear_lifeCore (mask) : (d.irqClear mask).lifeCore = d.lifeCore := (rfl)
@[simp] theorem geometry_lifeCore (f) : (d.geometry f).lifeCore = d.lifeCore := by simp [Dev.geometry]
@[simp] theorem bar0Write_lifeCore (off v) : (d.bar0Write off v).lifeCore = d.lifeCore := by simp [Dev.bar0Write]
@[simp] theorem dropReplies_lifeCore (tr) : (d.dropReplies tr).lifeCore = d.lifeCore := by simp [Dev.dropReplies]
@[simp] theorem perst_lifeCore : d.perst.lifeCore = d.lifeCore := by simp [Dev.perst]
@[simp] theorem setAborted_lifeCore (b) : (d.setAborted b).lifeCore = d.lifeCore := (rfl)
@[simp] theorem spiWrite_lifeCore (bs) : (d.spiWrite bs).lifeCore = d.lifeCore := by simp [Dev.spiWrite]
@[simp] theorem spiRead_lifeCore (clocked) : (d.spiRead clocked).lifeCore = d.lifeCore := by
  unfold Dev.spiRead
  dsimp only
  (repeat' split) <;> simp
@[simp] theorem spiStat_lifeCore : d.spiStat.lifeCore = d.lifeCore := by simp [Dev.spiStat]
@[simp] theorem udpIn_lifeCore (ip port iface dstPort bs) : (d.udpIn ip port iface dstPort bs).lifeCore = d.lifeCore := by
  unfold Dev.udpIn
  dsimp only
  (repeat' split) <;> simp
@[simp] theorem keptExpiry_lifeCore : d.keptExpiry.lifeCore = d.lifeCore := (rfl)
@[simp] theorem requestIn_lifeCore (op r) : (d.requestIn op r).lifeCore = d.lifeCore := by
  unfold Dev.requestIn
  (repeat' split) <;> simp
@[simp] theorem queueIdle_lifeCore (id) : (d.queueIdle id).lifeCore = d.lifeCore := by simp [Dev.queueIdle]
@[simp] theorem replyOnSpace_lifeCore : d.replyOnSpace.lifeCore = d.lifeCore := by simp [Dev.replyOnSpace]

/-! ### The frame, its slots and its sub-ticks (01) -/

@[simp] theorem joinStep_lifeCore (no x s) : (Dev.joinStep no x s).2.2.lifeCore = x.2.2.lifeCore := by
  unfold Dev.joinStep
  dsimp only
  (repeat' split) <;> simp
@[simp] theorem shiftInstants_lifeCore (n) : (d.shiftInstants n).lifeCore = d.lifeCore := (rfl)
@[simp] theorem openStepFrame_lifeCore (n) : (d.openStepFrame n).lifeCore = d.lifeCore := (rfl)
@[simp] theorem stepEffects_lifeCore (n) : (d.stepEffects n).lifeCore = d.lifeCore := by simp [Dev.stepEffects]
@[simp] theorem stepFollow_lifeCore (first) : (d.stepFollow first).lifeCore = d.lifeCore := by simp [Dev.stepFollow]
@[simp] theorem applyStep_lifeCore (n first) : (d.applyStep n first).lifeCore = d.lifeCore := by simp [Dev.applyStep]
@[simp] theorem plainTick_lifeCore : d.plainTick.lifeCore = d.lifeCore := (rfl)
@[simp] theorem stepTick_lifeCore : d.stepTick.lifeCore = d.lifeCore := by simp [Dev.stepTick]
@[simp] theorem pairTick_lifeCore : d.pairTick.lifeCore = d.lifeCore := by simp [Dev.pairTick]
@[simp] theorem secondTick_lifeCore : d.secondTick.lifeCore = d.lifeCore := by simp [Dev.secondTick]
@[simp] theorem healthTick_lifeCore : d.healthTick.lifeCore = d.lifeCore := by simp [Dev.healthTick]
@[simp] theorem imageTick_lifeCore (m) : (d.imageTick m).lifeCore = d.lifeCore := by simp [Dev.imageTick]
@[simp] theorem subWork_lifeCore (m) : (d.subWork m).lifeCore = d.lifeCore := by simp [Dev.subWork]
@[simp] theorem passEnd_lifeCore : d.passEnd.lifeCore = d.lifeCore := by
  unfold Dev.passEnd
  split <;> simp
@[simp] theorem limitSlot_lifeCore : d.limitSlot.lifeCore = d.lifeCore := by
  unfold Dev.limitSlot
  split <;> simp
@[simp] theorem dueWork_lifeCore (t) : (d.dueWork t).lifeCore = d.lifeCore := by
  unfold Dev.dueWork
  dsimp only
  (repeat' split) <;> simp
@[simp] theorem overrunSlot_lifeCore (first) : (d.overrunSlot first).lifeCore = d.lifeCore := by
  unfold Dev.overrunSlot
  split <;> simp
@[simp] theorem subTick_lifeCore (m) : (d.subTick m).lifeCore = d.lifeCore := by simp [Dev.subTick]
@[simp] theorem afterSolve_lifeCore : d.afterSolve.lifeCore = d.lifeCore := by simp [Dev.afterSolve]
@[simp] theorem fusionSlot_lifeCore (late) : (d.fusionSlot late).lifeCore = d.lifeCore := by simp [Dev.fusionSlot]
@[simp] theorem iterationSlot_lifeCore : d.iterationSlot.lifeCore = d.lifeCore := by simp [Dev.iterationSlot]
@[simp] theorem deadlineSlot_lifeCore : d.deadlineSlot.lifeCore = d.lifeCore := by simp [Dev.deadlineSlot]
@[simp] theorem refineFromSlot_lifeCore : d.refineFromSlot.lifeCore = d.lifeCore := by simp [Dev.refineFromSlot]
@[simp] theorem refineToSlot_lifeCore : d.refineToSlot.lifeCore = d.lifeCore := by simp [Dev.refineToSlot]
@[simp] theorem handoffSlot_lifeCore (readable) : (d.handoffSlot readable).lifeCore = d.lifeCore := by simp [Dev.handoffSlot]
@[simp] theorem cutoffSlot_lifeCore (notQueued) : (d.cutoffSlot notQueued).lifeCore = d.lifeCore := by simp [Dev.cutoffSlot]
@[simp] theorem renewLease_lifeCore (served) : (d.renewLease served).lifeCore = d.lifeCore := by simp [Dev.renewLease]
@[simp] theorem launchSlot_lifeCore (served) : (d.launchSlot served).lifeCore = d.lifeCore := by simp [Dev.launchSlot]
@[simp] theorem tailSlot_lifeCore : d.tailSlot.lifeCore = d.lifeCore := by simp [Dev.tailSlot]

/-! ### Effects of commands -/

@[simp] theorem feedFalls_lifeCore (feed volts) : (d.feedFalls feed volts).lifeCore = d.lifeCore := by simp [Dev.feedFalls]
@[simp] theorem feedRises_lifeCore (feed volts) : (d.feedRises feed volts).lifeCore = d.lifeCore := by simp [Dev.feedRises]
@[simp] theorem reach_lifeCore (t) : (d.reach t).lifeCore = d.lifeCore := by simp [Dev.reach]

end

end Sys2Proof.Machine
end

section
/-! PROOFS. RETIRED is for good: what each reset, start-up, request and tick may do to it (17 R483, R484, R486). -/

namespace Sys2Proof.Machine

open Sys2Proof

/-! ### What a step may do to RETIRED -/

/-- A change of the module that keeps the premise of O51 and, under it, a stored RETIRED. -/
def Dev.keepsRetired (d e : Dev) : Prop := d.retiredHolds → e.retiredHolds ∧ (d.storedLife = .retired → e.storedLife = .retired)

theorem keepsRetired_refl (d : Dev) : d.keepsRetired d := fun h => ⟨h, id⟩

theorem keepsRetired_trans {a b c : Dev} (h : a.keepsRetired b) (k : b.keepsRetired c) : a.keepsRetired c := fun ha =>
  have ⟨hb, sb⟩ := h ha
  have ⟨hc, sc⟩ := k hb
  ⟨hc, sc ∘ sb⟩

theorem storedLife_of_lifeCore {d e : Dev} (h : e.lifeCore = d.lifeCore) : e.storedLife = d.storedLife := by
  have a : e.nvm.lifeA = d.nvm.lifeA := congrArg LifeCore.lifeA h
  have b : e.nvm.lifeB = d.nvm.lifeB := congrArg LifeCore.lifeB h
  unfold Dev.storedLife
  rw [a, b]

theorem runs_of_lifeCore {d e : Dev} (h : e.lifeCore = d.lifeCore) : e.runs = d.runs :=
  congrArg (fun c : LifeCore => c.powered && !c.inReset && !c.thermalOff) h

theorem keepsRetired_of_lifeCore {d e : Dev} (h : e.lifeCore = d.lifeCore) : d.keepsRetired e := fun hd => by
  have stored := storedLife_of_lifeCore h
  have advance : e.life.advance = d.life.advance := congrArg LifeCore.advance h
  have state : e.life.state = d.life.state := congrArg LifeCore.state h
  refine ⟨fun he => ?_, fun he => stored.trans he⟩
  rw [advance, state, runs_of_lifeCore h]
  exact hd (stored.symm.trans he)

/-- A state whose copies are those of d keeps RETIRED where it is RETIRED when it runs, with no transition standing. -/
theorem keepsRetired_of_copies {d e : Dev} (hs : e.storedLife = d.storedLife)
    (h : d.storedLife = .retired → e.life.advance = none ∧ (e.life.state = .retired ∨ e.runs = false)) : d.keepsRetired e := fun _ =>
  ⟨fun he => h (hs.symm.trans he), fun he => hs.trans he⟩

theorem keepsRetired_ite {p : Prop} [Decidable p] {d a b : Dev} (h : d.keepsRetired a) (k : d.keepsRetired b) :
    d.keepsRetired (if p then a else b) := by
  split
  · exact h
  · exact k

theorem keepsRetired_whenRuns {f : Dev → Dev} (h : ∀ d, Dev.keepsRetired d (f d)) (d : Dev) : d.keepsRetired (d.whenRuns f) :=
  keepsRetired_ite (h d) (keepsRetired_refl d)

theorem keepsRetired_whenPowered {f : Dev → Dev} (h : ∀ d, Dev.keepsRetired d (f d)) (d : Dev) : d.keepsRetired (d.whenPowered f) :=
  keepsRetired_ite (h d) (keepsRetired_refl d)

section
variable {f : Dev → Dev} {d : Dev} (h : (f d).lifeCore = d.lifeCore)
include h

@[simp] theorem whenRuns_lifeCore : (d.whenRuns f).lifeCore = d.lifeCore := by simp [Dev.whenRuns, h]
@[simp] theorem whenPowered_lifeCore : (d.whenPowered f).lifeCore = d.lifeCore := by simp [Dev.whenPowered, h]
@[simp] theorem whenReady_lifeCore : (d.whenReady f).lifeCore = d.lifeCore := by simp [Dev.whenReady, h]

end

/-! ### Reset and start-up -/

theorem holdReset_keepsRetired (cause : Nat) (d : Dev) : d.keepsRetired (d.holdReset cause) := by
  have stored : (d.holdReset cause).storedLife = d.storedLife := by
    unfold Dev.holdReset
    dsimp only
    split <;> rfl
  have stopped : (d.holdReset cause).runs = false := by
    rw [Dev.runs]
    exact Bool.and_eq_false_imp.2 fun h => by simp [Dev.holdReset, Dev.modLife] at h
  refine keepsRetired_of_copies stored fun _ => ⟨rfl, .inr stopped⟩

/-- Start-up puts the stored state in force. -/
theorem startUp_lifeCore (cause : Nat) (bezel : Option (Word × Word)) (diode : Option Int) (d : Dev) :
    (d.startUp cause bezel diode).lifeCore = ⟨d.nvm.lifeA, d.nvm.lifeB, d.storedLife, none, d.life.powered, false, false⟩ := by
  unfold Dev.startUp
  extract_lets off latch read nvm cycled started filled stuck cooled latched booted opened health tested parts health' asked
  have begins : started.lifeCore = ⟨d.nvm.lifeA, d.nvm.lifeB, d.storedLife, none, d.life.powered, false, false⟩ := rfl
  have bezels : latched.lifeCore = started.lifeCore := by
    unfold latched cooled stuck filled
    split
    · split <;> simp
    · simp
  have tests : tested.lifeCore = latched.lifeCore := by simp [tested, opened, booted]
  have parts : asked.lifeCore = tested.lifeCore := by simp [asked, parts, health']
  rw [← begins, ← bezels, ← tests]
  clear_value asked
  split
  · rfl
  · split <;> simp [parts]

theorem startUp_keepsRetired (cause : Nat) (bezel : Option (Word × Word)) (diode : Option Int) (d : Dev) :
    d.keepsRetired (d.startUp cause bezel diode) := by
  have core := startUp_lifeCore cause bezel diode d
  have a : (d.startUp cause bezel diode).nvm.lifeA = d.nvm.lifeA := congrArg LifeCore.lifeA core
  have b : (d.startUp cause bezel diode).nvm.lifeB = d.nvm.lifeB := congrArg LifeCore.lifeB core
  have state : (d.startUp cause bezel diode).life.state = d.storedLife := congrArg LifeCore.state core
  have stored : (d.startUp cause bezel diode).storedLife = d.storedLife := by
    unfold Dev.storedLife
    rw [a, b]
  exact keepsRetired_of_copies stored fun h => ⟨congrArg LifeCore.advance core, .inl (state.trans h)⟩

theorem restart_keepsRetired (cause : Nat) (d : Dev) : d.keepsRetired (d.restart cause) :=
  keepsRetired_trans (holdReset_keepsRetired cause d) (startUp_keepsRetired cause none none _)

/-! ### Requests (R486) -/

theorem runOp_lifeCore {op : Nat} (h : op ≠ 0xA1) (r : Req) (d : Dev) : (d.runOp op r).dev.lifeCore = d.lifeCore := by
  simp [Dev.runOp, h]

theorem lifecycleAdvanceOp_copies (tag : BitVec 6) (r : Req) (d : Dev) :
    (d.lifecycleAdvanceOp tag r).dev.storedLife = d.storedLife ∧ (d.lifecycleAdvanceOp tag r).dev.runs = d.runs := by
  unfold Dev.lifecycleAdvanceOp
  dsimp only
  (repeat' split) <;> exact ⟨rfl, rfl⟩

/-- RETIRED refuses LIFECYCLE_ADVANCE (R484). -/
theorem gate_retired {d : Dev} (h : d.life.state = .retired) (r : Req) : d.gate 0xA1 r = some (stLife, 5) := if_pos ⟨h, by decide⟩

/-- LIFECYCLE_ADVANCE past its gate, in a running module, finds it in another state than RETIRED. -/
theorem lifecycleAdvanceOp_keepsRetired {d : Dev} {r : Req} (hr : d.runs = true) (hg : d.gate 0xA1 r = none) (tag : BitVec 6) :
    d.keepsRetired (d.lifecycleAdvanceOp tag r).dev := by
  obtain ⟨stored, _⟩ := lifecycleAdvanceOp_copies tag r d
  intro hd
  have other : d.storedLife ≠ .retired := fun h => by
    obtain ⟨_, state | stopped⟩ := hd h
    · rw [gate_retired state] at hg
      cases hg
    · rw [hr] at stopped
      cases stopped
  exact ⟨fun h => absurd (stored.symm.trans h) other, fun h => absurd h other⟩

/-- A running module runs on, and what RETIRED rests on is kept. -/
def Dev.keepsRunning (d e : Dev) : Prop := d.runs = true → e.runs = true ∧ d.keepsRetired e

theorem keepsRunning_of_lifeCore {d e : Dev} (h : e.lifeCore = d.lifeCore) : d.keepsRunning e := fun hr =>
  ⟨(runs_of_lifeCore h).trans hr, keepsRetired_of_lifeCore h⟩

theorem keepsRunning_trans {a b c : Dev} (h : a.keepsRunning b) (k : b.keepsRunning c) : a.keepsRunning c := fun ha =>
  have ⟨rb, hb⟩ := h ha
  have ⟨rc, hc⟩ := k rb
  ⟨rc, keepsRetired_trans hb hc⟩

theorem runOp_keepsRunning {op : Nat} {r : Req} {d : Dev} (hg : d.gate op r = none) : d.keepsRunning (d.runOp op r).dev := by
  by_cases h : op = 0xA1
  · subst h
    have run : (d.runOp 0xA1 r).dev = (d.lifecycleAdvanceOp r.tag r).dev := lifecycleAdvance_runOp r d ▸ rfl
    rw [run]
    intro hr
    exact ⟨(lifecycleAdvanceOp_copies r.tag r d).2.trans hr, lifecycleAdvanceOp_keepsRetired hr hg r.tag⟩
  · exact keepsRunning_of_lifeCore (runOp_lifeCore h r d)

theorem startOne_keepsRunning (p : Pend) (d : Dev) : d.keepsRunning (d.startOne p) := by
  unfold Dev.startOne
  have read := qRead_lifeCore d 0 1
  generalize d.qRead 0 1 = x at read ⊢
  obtain ⟨e, ev⟩ := x
  dsimp -zeta only at read ⊢
  split
  · exact keepsRunning_of_lifeCore (by simp [read])
  extract_lets uses begun
  have begins : begun.lifeCore = d.lifeCore := by simp [begun, read]
  clear_value begun
  refine keepsRunning_trans (keepsRunning_of_lifeCore begins) ?_
  split
  · exact keepsRunning_of_lifeCore (by simp)
  next open' => exact keepsRunning_trans (runOp_keepsRunning open') (keepsRunning_of_lifeCore (by simp))

theorem pump_keepsRunning (n : Nat) (d : Dev) : d.keepsRunning (Dev.pump n d) := by
  induction n generalizing d with
  | zero => exact keepsRunning_of_lifeCore (release_lifeCore d)
  | succ n ih =>
    unfold Dev.pump
    refine keepsRunning_trans (keepsRunning_of_lifeCore (release_lifeCore d)) ?_
    dsimp only
    split
    · exact keepsRunning_trans (startOne_keepsRunning _ _) (ih _)
    · exact keepsRunning_of_lifeCore rfl

theorem settle_keepsRetired (d : Dev) : d.keepsRetired d.settle := by
  unfold Dev.settle
  split
  · exact keepsRetired_refl d
  next serves =>
    have running : d.runs = true := by
      simp only [Bool.or_eq_true, not_or, Bool.not_eq_true', Bool.not_eq_false] at serves
      exact serves.1
    extract_lets pumped delivered
    have swept : d.keepsRunning pumped :=
      keepsRunning_trans (keepsRunning_of_lifeCore (roleSweep_lifeCore d)) (pump_keepsRunning 66 _)
    have done : d.keepsRetired delivered :=
      keepsRetired_trans (swept running).2 (keepsRetired_of_lifeCore (by simp [delivered]))
    clear_value delivered
    split
    · exact keepsRetired_ite (keepsRetired_trans done (restart_keepsRetired 5 _)) done
    · exact done

theorem takeSlots_keepsRetired (n : Nat) (d : Dev) : d.keepsRetired (Dev.takeSlots n d) := by
  induction n generalizing d with
  | zero => exact keepsRetired_refl d
  | succ n ih =>
    unfold Dev.takeSlots
    split
    · exact keepsRetired_refl d
    · refine keepsRetired_ite (keepsRetired_refl d) (keepsRetired_trans (keepsRetired_of_lifeCore ?_)
        (keepsRetired_trans (settle_keepsRetired _) (ih _)))
      simp

theorem after_keepsRetired (d : Dev) : d.keepsRetired d.after := by
  have checked : d.keepsRetired (Dev.takeSlots 64 d.ringCheck) :=
    keepsRetired_trans (keepsRetired_of_lifeCore (ringCheck_lifeCore d)) (takeSlots_keepsRetired 64 _)
  exact keepsRetired_trans (keepsRetired_ite checked (keepsRetired_refl d)) (settle_keepsRetired _)

/-! ### The tick (R488) -/

/-- The state that a transition stands for is stored and put in force together, and no transition stands any more. -/
theorem lifeTick_keepsRetired (d old : Dev) : d.keepsRetired (d.lifeTick old) := by
  unfold Dev.lifeTick
  split
  · exact keepsRetired_refl d
  next tag b standing =>
    extract_lets cleared a raised stored health noted nvm finished
    intro hd
    have other : d.storedLife ≠ .retired := fun h => by
      obtain ⟨none, _⟩ := hd h
      rw [standing] at none
      cases none
    have advance : cleared.life.advance = none := rfl
    have copies : cleared.storedLife = d.storedLife := rfl
    clear_value cleared
    split
    next st rarg _ =>
      have same := storedLife_of_lifeCore (finish_lifeCore cleared tag { status := st, rarg := rarg })
      exact ⟨fun h => absurd ((same.trans copies).symm.trans h) other, fun h => absurd h other⟩
    next =>
      have inForce : stored.life.state = b := rfl
      have inStore : stored.storedLife = b := storeLife_storedLife raised b
      have kept : raised.life.advance = none :=
        (congrArg LifeCore.advance (raise_lifeCore cleared 0x1104 0 _)).trans advance
      have storing : stored.life.advance = none := by rw [← kept]; unfold stored; rw [storeLife_eq]; split <;> rfl
      have noting : noted.lifeCore = stored.lifeCore := by unfold noted; split <;> rfl
      have finishing : finished.lifeCore = stored.lifeCore := noting
      have holds : stored.retiredHolds := fun h => ⟨storing, .inl (inForce.trans (inStore.symm.trans h))⟩
      refine ⟨?_, fun h => absurd h other⟩
      refine (keepsRetired_of_lifeCore ?_ holds).1
      split
      · exact (fence_lifeCore _ 7).trans finishing
      · exact finishing

theorem applyTick_keepsRetired (d old : Dev) : d.keepsRetired (d.applyTick old) := by
  unfold Dev.applyTick
  extract_lets configured applied
  have commits : configured.lifeCore = d.lifeCore := by simp [configured]
  have runTicks : applied.lifeCore = (configured.lifeTick old).lifeCore := runTick_lifeCore _
  have advances := keepsRetired_trans (keepsRetired_of_lifeCore commits) (lifeTick_keepsRetired configured old)
  exact keepsRetired_trans advances (keepsRetired_of_lifeCore (by simp [runTicks]))

theorem frameTick_keepsRetired (m : MemoryIn) (d : Dev) : d.keepsRetired (d.frameTick m) := by
  unfold Dev.frameTick
  split
  · exact keepsRetired_refl d
  split
  · exact restart_keepsRetired 5 d
  extract_lets hw struck old stepped frame engine opened
  have begins : opened.lifeCore = d.lifeCore := by simp [opened, stepped, struck, frame, engine, hw]
  refine keepsRetired_trans (keepsRetired_of_lifeCore begins) ?_
  exact keepsRetired_trans (applyTick_keepsRetired opened old) (keepsRetired_of_lifeCore (by simp))

/-! ### Timeouts, power and reset -/

/-- Where no transition stands, none is left when some are dropped. -/
theorem keepsRetired_dropped (p : BitVec 6 × Life → Bool) (d : Dev) :
    d.keepsRetired (d.modLife (fun l => { l with advance := l.advance.filter p })) := fun hd => by
  refine ⟨fun h => ?_, id⟩
  obtain ⟨unset, holds⟩ := hd h
  refine ⟨?_, holds⟩
  change d.life.advance.filter p = none
  rw [unset]
  rfl

theorem orphanWork_keepsRetired (tag : BitVec 6) (d : Dev) : d.keepsRetired (d.orphanWork tag) := by
  refine keepsRetired_trans (keepsRetired_dropped (fun a => a.1 != tag) d) (keepsRetired_of_lifeCore ?_)
  unfold Dev.orphanWork
  dsimp only
  (repeat' split) <;> rfl

theorem requestTimeout_keepsRetired (tag : BitVec 6) (d : Dev) : d.keepsRetired (d.requestTimeout tag) := by
  unfold Dev.requestTimeout
  split
  · exact keepsRetired_refl d
  split
  · exact keepsRetired_refl d
  extract_lets stopped orphaned time left
  have stops : stopped.lifeCore = d.lifeCore := by simp [stopped]
  have orphans : stopped.keepsRetired orphaned := orphanWork_keepsRetired tag stopped
  clear_value orphaned
  have ends : left.lifeCore = orphaned.lifeCore := rfl
  refine keepsRetired_trans (keepsRetired_of_lifeCore stops) (keepsRetired_trans orphans (keepsRetired_of_lifeCore ?_))
  rw [← ends]
  (repeat' split) <;> simp

theorem fenceAckTimeout_keepsRetired (d : Dev) : d.keepsRetired d.fenceAckTimeout := by
  unfold Dev.fenceAckTimeout
  split
  · exact keepsRetired_ite (restart_keepsRetired 3 d) (keepsRetired_refl d)
  · exact keepsRetired_refl d

/-- A module that does not run, with the copies of d and no transition standing. -/
theorem keepsRetired_of_stopped {d e : Dev} (hs : e.storedLife = d.storedLife) (ha : e.life.advance = none) (hr : e.runs = false) :
    d.keepsRetired e := keepsRetired_of_copies hs fun _ => ⟨ha, .inr hr⟩

theorem thermalReset_keepsRetired (d : Dev) : d.keepsRetired d.thermalReset := by
  unfold Dev.thermalReset
  split
  · refine keepsRetired_ite (keepsRetired_trans (holdReset_keepsRetired 4 d) ?_) (keepsRetired_refl d)
    exact keepsRetired_of_stopped rfl rfl (Bool.and_false _)
  · exact keepsRetired_refl d

theorem holdupExhausted_keepsRetired (d : Dev) : d.keepsRetired d.holdupExhausted := by
  unfold Dev.holdupExhausted
  exact keepsRetired_ite (keepsRetired_trans (holdReset_keepsRetired 0 d) (keepsRetired_of_stopped rfl rfl rfl)) (keepsRetired_refl d)

theorem thermalOffRead_keepsRetired (x : Option Int) (d : Dev) : d.keepsRetired (d.thermalOffRead x) := by
  unfold Dev.thermalOffRead
  split
  · exact keepsRetired_refl d
  extract_lets n counted
  have counts : d.keepsRetired counted := keepsRetired_of_lifeCore rfl
  exact keepsRetired_ite (keepsRetired_trans counts (startUp_keepsRetired 4 none none counted)) counts

theorem powerUp_keepsRetired (a b : Word) (phy : BitVec 4) (hu : Nat) (x : Option Int) (d : Dev) :
    d.keepsRetired (d.powerUp a b phy hu x) := by
  unfold Dev.powerUp
  split
  · exact keepsRetired_refl d
  extract_lets hw fresh powered
  have rises : d.keepsRetired powered := fun hd => ⟨fun h => ⟨(hd h).1, .inr rfl⟩, id⟩
  exact keepsRetired_ite rises (keepsRetired_trans rises (startUp_keepsRetired 0 _ x powered))

theorem rstAssert_keepsRetired (low : Nat) (d : Dev) : d.keepsRetired (d.rstAssert low) := by
  unfold Dev.rstAssert
  extract_lets at0 pin take drawn
  have pins (x : Dev) : (pin x).lifeCore = x.lifeCore := rfl
  have draws : drawn.lifeCore = d.lifeCore := by unfold drawn; split <;> rfl
  have pinned : d.keepsRetired (pin d) := keepsRetired_of_lifeCore (pins d)
  have held : d.keepsRetired ((pin drawn).holdReset 1) :=
    keepsRetired_trans (keepsRetired_of_lifeCore ((pins drawn).trans draws)) (holdReset_keepsRetired 1 _)
  refine keepsRetired_ite (keepsRetired_refl d) (keepsRetired_ite pinned (keepsRetired_ite pinned ?_))
  exact keepsRetired_ite (keepsRetired_refl d) (keepsRetired_ite held (keepsRetired_of_lifeCore draws))

theorem rstRelease_keepsRetired (a b : Word) (x : Option Int) (d : Dev) : d.keepsRetired (d.rstRelease a b x) := by
  unfold Dev.rstRelease
  extract_lets noted
  have notes : d.keepsRetired noted := keepsRetired_of_lifeCore rfl
  exact keepsRetired_ite (keepsRetired_trans notes (startUp_keepsRetired _ _ x noted)) notes

theorem resetStuck_keepsRetired (a b : Word) (x : Option Int) (d : Dev) : d.keepsRetired (d.resetStuck a b x) := by
  unfold Dev.resetStuck
  split
  · refine keepsRetired_ite (keepsRetired_trans ?_ (startUp_keepsRetired 6 _ x _)) (keepsRetired_refl d)
    exact keepsRetired_of_lifeCore (modLife_lifeCore _ rfl rfl rfl rfl rfl)
  · exact keepsRetired_refl d

/-! ### Every command -/

/-- An effect that is kept, met by the time before it and followed by the supervisor's work. -/
theorem keepsRetired_act {i : Instr} {t : Nat} {f : Dev → Dev} (h : ∀ d : Dev, d.keepsRetired (f d)) {s s' : State}
    (hs : s.act i t f = .next s') : s.dev.keepsRetired s'.dev := by
  injection hs with hs
  subst hs
  refine keepsRetired_trans (keepsRetired_of_lifeCore (reach_lifeCore s.dev t)) (keepsRetired_trans ?_ (after_keepsRetired _))
  split
  · exact h _
  · exact keepsRetired_refl _

theorem keepsRetired_actInPass {i : Instr} {t : Nat} {f : Dev → Dev} (h : ∀ d : Dev, d.keepsRetired (f d)) {s s' : State}
    (hs : s.actInPass i t f = .next s') : s.dev.keepsRetired s'.dev := by
  injection hs with hs
  subst hs
  refine keepsRetired_trans (keepsRetired_of_lifeCore (advance_lifeCore s.dev t)) (keepsRetired_trans ?_ (after_keepsRetired _))
  split
  · exact h _
  · exact keepsRetired_refl _

/-- Every command but PASS_OVERRUN is an effect that keeps what RETIRED rests on. -/
theorem exec_keepsRetired (i : Instr) (h : ∀ t m, i ≠ .passOverrun t m) :
    ∃ f : Dev → Dev, (∀ s, exec i s = s.act i i.time f) ∧ ∀ d : Dev, d.keepsRetired (f d) := by
  cases i with
  | passOverrun t m => exact absurd rfl (h t m)
  | requestTimeout t tag => exact ⟨_, fun _ => rfl, keepsRetired_whenPowered (requestTimeout_keepsRetired tag)⟩
  | fenceAckTimeout t => exact ⟨_, fun _ => rfl, keepsRetired_whenRuns fenceAckTimeout_keepsRetired⟩
  | thermalReset t => exact ⟨_, fun _ => rfl, keepsRetired_whenPowered thermalReset_keepsRetired⟩
  | supervisorWatchdog t => exact ⟨_, fun _ => rfl, keepsRetired_whenPowered (restart_keepsRetired 2)⟩
  | thermalOffDiodeRead t x => exact ⟨_, fun _ => rfl, thermalOffRead_keepsRetired x⟩
  | powerUp t a b phy hu x => exact ⟨_, fun _ => rfl, powerUp_keepsRetired a b phy hu x⟩
  | rstNAssert t low => exact ⟨_, fun _ => rfl, rstAssert_keepsRetired low⟩
  | rstNRelease t a b x => exact ⟨_, fun _ => rfl, rstRelease_keepsRetired a b x⟩
  | resetStuck t a b x => exact ⟨_, fun _ => rfl, resetStuck_keepsRetired a b x⟩
  | holdupExhausted t => exact ⟨_, fun _ => rfl, holdupExhausted_keepsRetired⟩
  | frameTick t m => exact ⟨_, fun _ => rfl, keepsRetired_whenRuns (frameTick_keepsRetired m)⟩
  | _ => exact ⟨_, fun _ => rfl, fun d => keepsRetired_of_lifeCore (by simp)⟩

theorem step_keepsRetired {s s' : State} (h : step s = .next s') : s.dev.keepsRetired s'.dev := by
  cases hp : s.pending with
  | nil =>
    rw [step_nil hp] at h
    injection h with h
    subst h
    exact keepsRetired_refl _
  | cons i rest =>
    rw [step_cons hp] at h
    by_cases pass : ∃ t m, i = .passOverrun t m
    · obtain ⟨t, m, rfl⟩ := pass
      exact keepsRetired_actInPass (s := { s with pending := rest }) (fun d => keepsRetired_of_lifeCore (by simp)) h
    · obtain ⟨f, acts, keeps⟩ := exec_keepsRetired i (fun t m e => pass ⟨t, m, e⟩)
      exact keepsRetired_act (s := { s with pending := rest }) keeps ((acts _).symm.trans h)

/-- Settles O51: a step touches what RETIRED rests on in a reset, a start-up, a transition of the tick and LIFECYCLE_ADVANCE alone.
The first two put the stored state in force, the third stores the state it puts in force, and RETIRED refuses the last. -/
theorem retiredIsForGood : Obligations.RetiredIsForGood := by
  unfold Obligations.RetiredIsForGood
  intro s s' holds h
  exact step_keepsRetired h holds

end Sys2Proof.Machine
end

section
/-! PROOFS. Reads that answer a record of the module's (02 R60), and the lengths of the fixed records (02, 03, 13 to 15, 17). -/

namespace Sys2Proof.Machine

open Sys2Proof

/-! ### Reads with TARGET 0 (R60, Table 2.8) -/

theorem echo_runOp (r : Req) (b : Dev) :
    b.runOp (0x00 : Byte).toNat r = { dev := b, ans := .fin { status := stOk, rarg := BitVec.ofNat 16 r.tgt, payload := r.payload } } := by
  simp [Dev.runOp, zeroTargetOps, Dev.runData]

theorem tgt_zero {r : Req} (h : r.target = 0) : r.tgt = 0 := by
  rw [Req.tgt, h]
  rfl

section
variable {r : Req} (h : r.target = 0)
include h

theorem infoRead_runOp (b : Dev) : b.runOp (0x01 : Byte).toNat r = reads b b.infoBytes := by
  simp [Dev.runOp, Dev.runData, tgt_zero h]

theorem stateRead_runOp (b : Dev) : b.runOp (0x48 : Byte).toNat r = reads b b.stateBytes := by
  simp [Dev.runOp, Dev.runData, Dev.stateReadOp, tgt_zero h]

theorem timeRead_runOp (b : Dev) : b.runOp (0x60 : Byte).toNat r = reads b b.timeRecord := by
  simp [Dev.runOp, Dev.runData, tgt_zero h]

theorem roleRead_runOp (b : Dev) : b.runOp (0x70 : Byte).toNat r = reads b b.roleRecord := by
  simp [Dev.runOp, Dev.runData, tgt_zero h]

theorem safetyRead_runOp (b : Dev) : b.runOp (0x78 : Byte).toNat r = reads b b.safetyBytes := by
  simp [Dev.runOp, Dev.safetyReadOp, tgt_zero h]

theorem thermalRead_runOp (b : Dev) : b.runOp (0x88 : Byte).toNat r = reads b b.health.record := by
  simp [Dev.runOp, Dev.runData, tgt_zero h]

theorem lifecycleRead_runOp (b : Dev) : b.runOp (0xA0 : Byte).toNat r = reads b b.lifecycleBytes := by
  simp [Dev.runOp, Dev.runData, tgt_zero h]

theorem hallmarkRead_runOp (b : Dev) : b.runOp (0x14 : Byte).toNat r =
    reads b (Bits.le 8 (if r.stagedView then hallmarkOf (b.view b.cfg.staged) else b.cfg.hallmark).toNat ++
      Bits.le 4 b.cfg.lastCommit) := by
  simp [Dev.runOp, Dev.hallmarkReadOp, tgt_zero h]

end

/-- A read leaves the module as its operation found it. -/
theorem served_of_reads {i : Instr} {op : Byte} {r : Req} {s : State} {t : Nat} {d b : Dev} {p : List Byte}
    (h : exec i s = State.act i t (Dev.requestIn op r) s) (hw : i.wf = true) (hd : d = s.dev.reach t) (hb : b = d.begun op r)
    (ha : d.admits op r = true) (hx : b.runOp op.toNat r = reads b p) : Served i s op r { status := stOk, payload := p } b :=
  served_of_spares h hw hd hb ha hx (spares_refl b)

/-- Settles O5: each read's operation answers its record and leaves the module as it found it (`served_of_reads`). -/
theorem readsAnswerTheirRecord : Obligations.ReadsAnswerTheirRecord := by
  unfold Obligations.ReadsAnswerTheirRecord
  refine ⟨fun s t r d hd hw ha => ?_, fun s t r d hd hw h0 => ⟨fun ha => ?_, fun ha => ?_, fun ha => ?_, fun ha => ?_,
    fun ha => ?_, fun ha => ?_, fun ha => ?_, fun h hh ha => ?_⟩⟩
  · exact served_of_spares (i := .echo t r) rfl hw hd rfl ha (echo_runOp r _) (spares_refl _)
  · exact served_of_reads (i := .infoRead t r) rfl hw hd rfl ha (infoRead_runOp h0 _)
  · exact served_of_reads (i := .stateRead t r) rfl hw hd rfl ha (stateRead_runOp h0 _)
  · exact served_of_reads (i := .timeRead t r) rfl hw hd rfl ha (timeRead_runOp h0 _)
  · exact served_of_reads (i := .roleRead t r) rfl hw hd rfl ha (roleRead_runOp h0 _)
  · exact served_of_reads (i := .safetyRead t r) rfl hw hd rfl ha (safetyRead_runOp h0 _)
  · exact served_of_reads (i := .thermalRead t r) rfl hw hd rfl ha (thermalRead_runOp h0 _)
  · exact served_of_reads (i := .lifecycleRead t r) rfl hw hd rfl ha (lifecycleRead_runOp h0 _)
  · subst hh
    exact served_of_reads (i := .hallmarkRead t r) rfl hw hd rfl ha (hallmarkRead_runOp h0 _)

/-! ### Records of fixed length (R60, R95, R404, R431, R451, R503) -/

theorem zeros_length (n : Nat) : (Bits.zeros n).length = n := List.length_replicate

theorem flatMap_upTo_length {f : Nat → List Byte} {k : Nat} (h : ∀ i, (f i).length = k) (n : Nat) :
    ((Bits.upTo n).flatMap f).length = k * n := by
  simp [List.length_flatMap, h, Bits.upTo, Nat.mul_comm]

theorem serial_length (d : Dev) : d.serial.length = 16 :=
  flatMap_upTo_length (fun _ => le_length 4 _) 4

theorem infoBytes_length (d : Dev) : d.infoBytes.length = 48 := by
  simp [Dev.infoBytes, orderingCode, serial_length, le_length, zeros_length]

theorem flowStatusBytes_length (d : Dev) (c : Nat) : (d.flowStatusBytes c).length = 32 := by
  simp [Dev.flowStatusBytes, le_length]

theorem roleRecord_length (d : Dev) : d.roleRecord.length = 32 := by
  simp [Dev.roleRecord, le_length]

theorem safetyBytes_length (d : Dev) : d.safetyBytes.length = 64 := by
  have inputs : ((Bits.upTo 16).flatMap (fun i => Bits.le 2 (d.inEntry i))).length = 32 :=
    flatMap_upTo_length (fun _ => le_length 2 _) 16
  simp only [Dev.safetyBytes, List.length_append, le_length, inputs, List.length_cons, List.length_nil]

theorem selftestRecord_length (d : Dev) (k : Nat) : (d.selftestRecord k).length = 32 := by
  simp [Dev.selftestRecord, le_length]

theorem lifecycleBytes_length (d : Dev) : d.lifecycleBytes.length = 32 := by
  simp [Dev.lifecycleBytes, le_length]

/-- R39: the check value of CRC-32C. -/
theorem crc32c_check : Bits.crc32c [0x31, 0x32, 0x33, 0x34, 0x35, 0x36, 0x37, 0x38, 0x39] = 0xE3069283#32 := by
  decide +kernel

/-- Settles O59: each record's length by its own lemma, the check value by computation. -/
theorem recordsHaveTheirLengths : Obligations.RecordsHaveTheirLengths := by
  unfold Obligations.RecordsHaveTheirLengths
  exact ⟨fun d => ⟨infoBytes_length d, statusBytes_length d, flowStatusBytes_length d, roleRecord_length d, safetyBytes_length d,
    selftestRecord_length d, lifecycleBytes_length d⟩, crc32c_check⟩

end Sys2Proof.Machine
end

section
/-! PROOFS. Step 7 of the checks: a request that its role or its life-cycle condition forbids (02 R43, 17 R484). -/

namespace Sys2Proof.Machine

open Sys2Proof

/-! ### A request that step 7 refuses -/

/-- A request command brings its request to the channel at its instant. -/
theorem exec_request {i : Instr} {op : Byte} {r : Req} (h : i.request = some (op, r)) (s : State) :
    exec i s = s.act i i.time (Dev.requestIn op r) := by
  cases i <;> cases h <;> rfl

theorem taken_agree {op : Byte} {r : Req} {d : Dev} (hi : d.idle = true) : ((d.taken op r).q 0).agree = true := by
  obtain ⟨hq, _⟩ := idle_q d hi
  rw [taken_q0 op r d hi]
  simp only [QCtl.agree, Bool.and_eq_true, beq_iff_eq] at hq ⊢
  simp [hq]

theorem begun_gate {op : Byte} {r : Req} {d : Dev} (hi : d.idle = true) : (d.begun op r).gate op.toNat r = d.gate op.toNat r := by
  rw [gate_alike op.toNat r (begun_blocks op r d hi), heard_keeps]
  exact gate_core op.toNat r _ _ rfl rfl rfl

/-- The resources a request touches are those named as it came. -/
theorem taken_resources {op : Byte} {r : Req} {d : Dev} (hi : d.idle = true) :
    ((d.taken op r).qRead 0 1).1.resourcesOf op.toNat r = d.resourcesOf op.toNat r := by
  apply resources_core
  rw [qRead_blocks 0 1 _ (taken_agree hi), taken_eq op r d hi, heard_keeps]
  unfold Dev.touched
  cases r.src.tr <;> rfl

/-- A request that step 7 refuses has its final reply once it has been read from the command queue. -/
theorem startOne_refused {p : Pend} {d x y : Dev} {st : Half} {a : Nat} (hx : d.qRead 0 1 = (x, []))
    (hy : y = x.modPend p.req.tag (fun z => { z with started := true, resources := x.resourcesOf p.op.toNat p.req }))
    (hg : y.gate p.op.toNat p.req = some (st, a)) :
    d.startOne p = y.finish p.req.tag { status := st, rarg := BitVec.ofNat 16 a } := by
  subst hy
  simp only [Dev.startOne, hx, List.isEmpty_nil, Bool.not_true, Bool.false_eq_true, if_false, hg]

/-- It is answered as an operation that refuses it would answer. -/
theorem startOne_forbidden {op : Byte} {r : Req} {d : Dev} {st : Half} {a : Nat} (hi : d.idle = true)
    (hg : d.gate op.toNat r = some (st, a)) :
    Dev.startOne { op := op, req := r } (d.taken op r) =
      (d.begun op r).finish r.tag { status := st, rarg := BitVec.ofNat 16 a } := by
  have read : (d.taken op r).qRead 0 1 = (((d.taken op r).qRead 0 1).1, []) := by rw [qRead_ok 0 1 _ (taken_agree hi)]
  refine startOne_refused read ?_ ((begun_gate hi).trans hg)
  rw [taken_resources hi]
  rfl

/-- The supervisor's work on a request that has come alone, once it is known what its start leaves. -/
theorem settle_started {op : Byte} {r : Req} {d y : Dev} (hs : d.serving = true) (hi : d.idle = true)
    (hy : Dev.startOne { op := op, req := r } (d.taken op r) = y)
    (hl : (Dev.unhold 64 (Dev.pump 65 y).deliver).deliver.life.activating = none) :
    (d.taken op r).settle = (Dev.unhold 64 (Dev.pump 65 y).deliver).deliver := by
  obtain ⟨solver, commit, clasp, life, _⟩ := taken_core op r d hi
  simp only [Dev.serving, Bool.and_eq_true] at hs
  obtain ⟨⟨runs, ready⟩, _⟩ := hs
  have go : ¬((!(d.taken op r).runs || !((d.taken op r).life.ready || (d.taken op r).life.noImage)) = true) := by
    simp [runs_core life, runs, life, ready]
  have swept : (d.taken op r).roleSweep = d.taken op r := by
    simp only [Dev.idle, Bool.and_eq_true, Option.isNone_iff_eq_none, beq_iff_eq] at hi
    exact sweep_quiet _ (by rw [solver]; simp only [hi]) (by rw [commit]; simp only [hi]) (by rw [clasp]; simp only [hi])
  have tags : (d.taken op r).cmd.tags = [{ op := op, req := r }] := rfl
  have pumped : Dev.pump 66 (d.taken op r) = Dev.pump 65 y := by
    rw [Dev.pump, release_none _ _ tags rfl, startable_one _ _ tags rfl]
    exact congrArg (Dev.pump 65) hy
  rw [Dev.settle, if_neg go, swept]
  dsimp only
  rw [pumped, hl]

/-- A request that step 7 refuses is answered at once, and nothing else is done. -/
theorem served_forbidden {i : Instr} {op : Byte} {r : Req} {s : State} {d : Dev} {st : Half} {a : Nat} (hd : d = s.dev.reach i.time)
    (hr : i.request = some (op, r)) (hw : i.wf = true) (hs : d.serving = true) (hi : d.idle = true) (hv : d.receives op r = true)
    (hp : d.packetFault op r r.len none true = none) (hg : d.gate op.toNat r = some (st, a)) :
    Served i s op r { status := st, rarg := BitVec.ofNat 16 a } (d.begun op r) := by
  have carries := begun_carries op r d hi hv
  have activating := begun_act op r d hi
  have started := startOne_forbidden hi hg
  generalize d.begun op r = b at carries activating started ⊢
  obtain ⟨f, hf⟩ : ∃ f : Fin, f = { status := st, rarg := BitVec.ofNat 16 a } := ⟨_, rfl⟩
  have fits : f.fitted r.src.tr = f := by
    rw [hf]
    exact if_neg (Nat.not_lt_zero _)
  rw [← hf] at started ⊢
  have tags : (b.finish r.tag f).cmd.tags =
      [{ op := op, req := r, started := true, resources := d.resourcesOf op.toNat r, done := some f }] := by
    simp [Dev.finish, Dev.modPend, carries.tags]
  obtain ⟨alike, none_left, _, answered, _⟩ := finish_all op r 64 (b.finish r.tag f) f _ tags carries.held carries.replyQ
    carries.agree carries.empty carries.up _ rfl
  have settled := settle_started hs hi started (by rw [(alike_fields alike).1]; exact activating)
  refine ⟨_, ?_, by rw [fits]; exact answered, none_left, alike_trans alike rfl⟩
  rw [requestIn_exec i op r s i.time (exec_request hr s) hw, ← hd, requestIn_ok op r d hs hi hv hp, Dev.after,
    taken_ring op r d hi, settled]

/-! ### What step 7 refuses (Table 2.8, R484) -/

theorem gate_retired_unserved {op : Nat} {r : Req} {d : Dev} (hl : d.life.state = .retired) (ho : op ∉ retiredOps) :
    d.gate op r = some (stLife, 5) := by
  refine if_pos ⟨hl, ?_⟩
  simpa using ho

theorem gate_role {op : Nat} {r : Req} {d : Dev} (hl : d.life.state ≠ .retired) (hr : roleAllows op d.clasp.role = false) :
    d.gate op r = some (stRole, 0) := by
  rw [Dev.gate, if_neg (fun h => hl h.1), if_pos (by rw [hr]; rfl)]

/-- Settles O54: an answer of step 7 goes out as that of an operation that refuses (`served_forbidden`); what step 7 refuses is read
from the life-cycle state, then from the role. -/
theorem forbiddenRequestsChangeNothing : Obligations.ForbiddenRequestsChangeNothing := by
  unfold Obligations.ForbiddenRequestsChangeNothing
  refine ⟨fun i op r s d st a hd hr hw hs hi hv hp hg => served_forbidden hd hr hw hs hi hv hp hg,
    fun op r d => ⟨gate_retired_unserved, fun hl h => gate_role hl ?_⟩⟩
  obtain ⟨control, role⟩ | ⟨rfl, role⟩ | ⟨rfl, role⟩ := h
  · rw [roleAllows, if_pos control, role]
  · simp [roleAllows, role]
  · simp [roleAllows, role]

end Sys2Proof.Machine
end

section
/-! PROOFS. Reads whose TARGET or payload names what they read (02 R61, R64, 03 R86, R104, 08 R268, 09 R292, 16 R472 to R475). -/

namespace Sys2Proof.Machine

open Sys2Proof

/-! ### Records with wrong bits, met by a reader (R104, R472) -/

theorem raise_spares (code : Nat) {sev : Nat} (h : sev ≠ 4) (data : List Byte) (d : Dev) : d.Spares (d.raise code sev data) :=
  raiseI_spares code h 0 data d

/-- A record met with wrong bits changes the image, and may raise 0307h. -/
theorem imageMeet_spares (i : Nat) (d : Dev) : d.Spares (d.imageMeet i) := by
  unfold Dev.imageMeet
  dsimp only
  refine spares_ite ?_ (spares_ite (spares_ite ?_ (spares_trans ?_ (raise_spares 0x0307 (sev := 3) (by decide) _ _))) ?_)
  all_goals exact spares_of_eq rfl rfl rfl rfl rfl

theorem imageFind_spares (among : Nat → Bool) (d : Dev) : d.Spares (d.imageFind among) :=
  spares_foldl (fun x i => imageMeet_spares i x) _ d

theorem recordsBad_spares (bad : List Nat) (d : Dev) : d.Spares (d.recordsBad bad) := by
  have found (x : Dev) (q : Nat) : x.Spares (x.raise 0x1005 3 (Bits.le 4 q)) := raise_spares 0x1005 (by decide) _ x
  unfold Dev.recordsBad
  refine spares_trans ?_ (spares_foldl found _ _)
  exact spares_of_eq rfl rfl rfl rfl rfl

/-! ### Each opcode runs its operation (Table 2.8) -/

section
variable (r : Req) (b : Dev)

theorem paramRead_runOp : b.runOp (0x10 : Byte).toNat r = b.paramReadOp r := by simp [Dev.runOp, zeroTargetOps]
theorem signalRead_runOp : b.runOp (0x20 : Byte).toNat r = b.signalReadFit r := by simp [Dev.runOp, zeroTargetOps]
theorem flowStatus_runOp : b.runOp (0x2A : Byte).toNat r = b.flowStatusOp r := by simp [Dev.runOp, zeroTargetOps]
theorem conseqRead_runOp : b.runOp (0x38 : Byte).toNat r = b.conseqReadOp r := by simp [Dev.runOp, zeroTargetOps]
theorem gnssRawRead_runOp : b.runOp (0x40 : Byte).toNat r = b.gnssRawOp r := by simp [Dev.runOp, zeroTargetOps]
theorem solverRead_runOp : b.runOp (0x50 : Byte).toNat r = b.solverReadOp false r := by simp [Dev.runOp, zeroTargetOps]
theorem solutionRead_runOp : b.runOp (0x51 : Byte).toNat r = b.solverReadOp true r := by simp [Dev.runOp, zeroTargetOps]
theorem traceRead_runOp : b.runOp (0x59 : Byte).toNat r = b.traceReadOp r := by simp [Dev.runOp, zeroTargetOps]
theorem eventRead_runOp : b.runOp (0x80 : Byte).toNat r = b.eventReadOp r := by simp [Dev.runOp, zeroTargetOps]
theorem selftestResult_runOp : b.runOp (0x91 : Byte).toNat r = b.selftestResultOp r := by simp [Dev.runOp, zeroTargetOps]

end

/-! ### What each operation answers for a target in range -/

section
variable {r : Req} {b : Dev}

theorem paramReadOp_reads (h : addrOk (fieldAddr r.target) = true) :
    b.paramReadOp r = reads b ((addrKeys (fieldAddr r.target)).flatMap
      (fun k => Bits.le 4 (b.fieldRead (k / 65536) (k % 65536) r.stagedView).toNat)) :=
  if_neg (by rw [h]; decide)

/-- Records that fit the transport and lie in the image are met, then read at one instant. -/
theorem signalReadFit_reads {n first : Nat} (hn : n = r.tgt / 2 ^ 17 % 1024 + 1) (hf : first = r.tgt % 2 ^ 17)
    (fits : 16 * n ≤ maxPayload r.src.tr) (inside : first + n ≤ 131072) {e : Dev}
    (he : e = b.imageFind (fun i => decide (first ≤ i) && decide (i < first + n))) :
    b.signalReadFit r = reads e ((Bits.upTo n).flatMap (fun k => (e.readPt (first + k)).bytes)) := by
  have few : ¬(r.src.tr = .udp ∧ 87 < n) := by
    rintro ⟨udp, many⟩
    rw [udp] at fits
    have : maxPayload .udp = 1400 := rfl
    omega
  subst hn hf he
  rw [Dev.signalReadFit]
  rw [if_neg (Nat.not_lt.2 fits), Dev.signalReadOp]
  rw [if_neg few, if_neg (Nat.not_lt.2 inside)]

theorem flowStatusOp_reads (h : r.tgt ≤ 255) : b.flowStatusOp r = reads b (b.flowStatusBytes r.tgt) := if_neg (Nat.not_lt.2 h)

theorem solverReadOp_status (h : r.tgt ≤ 63) : b.solverReadOp false r =
    reads b ((if r.tgt = 0 then b.solver.sol else (b.group r.tgt).sol).status (if r.tgt = 0 then b.solver.shifted else 0)) :=
  if_neg (Nat.not_lt.2 h)

theorem solverReadOp_record (h : r.tgt ≤ 63) : b.solverReadOp true r =
    reads b (if r.tgt = 0 then b.solver.sol else (b.group r.tgt).sol).bytes := if_neg (Nat.not_lt.2 h)

theorem selftestResultOp_reads (h : r.tgt ≤ 4) : b.selftestResultOp r = reads b (b.selftestRecord r.tgt) := if_neg (Nat.not_lt.2 h)

theorem conseqReadOp_group (h1 : 1 ≤ r.tgt) (h : r.tgt ≤ 63) :
    b.conseqReadOp r = reads b (b.conseqHead ++ b.groupBytes r.tgt) := by
  rw [Dev.conseqReadOp]
  rw [if_neg (Nat.not_lt.2 h), if_neg (Nat.ne_of_gt h1)]

theorem conseqReadOp_all (h : r.tgt = 0) (fits : 2032 ≤ maxPayload r.src.tr) :
    b.conseqReadOp r = reads b (b.conseqHead ++ ((Bits.upTo 63).map (fun g => b.groupBytes (g + 1))).flatten) := by
  rw [Dev.conseqReadOp]
  rw [if_neg (by omega), if_pos h, if_neg (Nat.not_lt.2 fits)]

theorem gnssRawOp_reads {n : Nat} (hn : n = if r.tgt / 65536 % 256 = 0 then 96 else r.tgt / 65536 % 256) (dual : b.antCount ≠ 4)
    (antenna : r.tgt % 256 < 2) (bits : r.tgt < 2 ^ 24) (channels : r.tgt / 256 % 256 + n ≤ 96)
    (fits : 16 + 32 * n ≤ maxPayload r.src.tr) :
    b.gnssRawOp r = reads b (b.rawBytes (r.tgt % 256) (r.tgt / 256 % 256) n) := by
  subst hn
  rw [Dev.gnssRawOp]
  rw [if_neg dual, if_neg (by omega), if_neg (Nat.not_lt.2 fits)]

theorem traceReadOp_reads {n : Nat} (hn : n = Bits.at' r.payload 2 2) (probe : r.tgt ≤ 15)
    (fits : n ≤ if r.src.tr = .udp then 684 else 8176) :
    b.traceReadOp r = reads b ((b.probe r.tgt).bytes (Bits.at' r.payload 0 2) n) := by
  subst hn
  rw [Dev.traceReadOp]
  rw [if_neg (Nat.not_lt.2 probe), if_neg (Nat.not_lt.2 fits)]

/-- The records examined that are uncorrectable are marked, and then read. -/
theorem eventReadOp_reads {n k fmt : Nat} {seen : List Stored} {e : Dev} (hn : n = Bits.at' r.payload 0 2)
    (hf : fmt = Bits.byteAt r.payload 2) (format : fmt ≤ 1) (severity : Bits.byteAt r.payload 3 ≤ 4)
    (fits : n ≤ maxEvents r.src.tr fmt) (hk : k = if n = 0 then maxEvents r.src.tr fmt else n)
    (hs : seen = (b.nvm.store.window r.tgt).take (takeEvents (Bits.byteAt r.payload 3) (b.nvm.store.window r.tgt) k).2)
    (he : e = b.recordsBad (b.nvm.store.struck.filter (fun q => seen.any (fun x => x.seq == q)))) :
    b.eventReadOp r = reads e (e.nvm.store.readout r.tgt k fmt (Bits.byteAt r.payload 3)) := by
  subst hn hf hk hs he
  rw [Dev.eventReadOp]
  rw [if_neg (by omega), if_neg (Nat.not_lt.2 fits)]

end

/-- Settles O7: each operation answers what its arguments name (`served_of_reads`); SIGNAL_READ and EVENT_READ first find out the
records that are wrong, which spares what their reply needs. -/
theorem namedReadsAnswerWhatTheyName : Obligations.NamedReadsAnswerWhatTheyName := by
  unfold Obligations.NamedReadsAnswerWhatTheyName
  refine ⟨fun s t r d hd hw => ⟨fun ha h b p hb hp => ?_, fun ha fits inside b p hb hp => ?_, fun ha h => ?_, fun ha h p hp => ?_,
    fun ha h p hp => ?_, fun ha h => ?_⟩, fun s t r d hd hw => ⟨fun ha h1 h => ?_, fun ha h fits p hp => ?_,
    fun n hn ha dual antenna bits channels fits => ?_, fun n hn ha h fits => ?_,
    fun n fmt hn hf ha format severity fits b e k seen hb hk hs he => ?_⟩⟩
  · subst hp
    exact served_of_reads (i := .paramRead t r) rfl hw hd hb ha ((paramRead_runOp r b).trans (paramReadOp_reads h))
  · subst hp
    refine served_of_spares (i := .signalRead t r) rfl hw hd rfl ha ((signalRead_runOp r _).trans
      (signalReadFit_reads rfl rfl fits inside hb)) ?_
    rw [hb]
    exact imageFind_spares _ _
  · exact served_of_reads (i := .flowStatus t r) rfl hw hd rfl ha ((flowStatus_runOp r _).trans (flowStatusOp_reads h))
  · subst hp
    exact served_of_reads (i := .solverRead t r) rfl hw hd rfl ha ((solverRead_runOp r _).trans (solverReadOp_status h))
  · subst hp
    exact served_of_reads (i := .solutionRead t r) rfl hw hd rfl ha ((solutionRead_runOp r _).trans (solverReadOp_record h))
  · exact served_of_reads (i := .selftestResult t r) rfl hw hd rfl ha
      ((selftestResult_runOp r _).trans (selftestResultOp_reads h))
  · exact served_of_reads (i := .conseqRead t r) rfl hw hd rfl ha ((conseqRead_runOp r _).trans (conseqReadOp_group h1 h))
  · rw [hp]
    exact served_of_reads (i := .conseqRead t r) rfl hw hd rfl ha ((conseqRead_runOp r _).trans (conseqReadOp_all h fits))
  · exact served_of_reads (i := .gnssRawRead t r) rfl hw hd rfl ha
      ((gnssRawRead_runOp r _).trans (gnssRawOp_reads hn dual antenna bits channels fits))
  · exact served_of_reads (i := .traceRead t r) rfl hw hd rfl ha ((traceRead_runOp r _).trans (traceReadOp_reads hn h fits))
  · subst hb
    refine served_of_spares (i := .eventRead t r) rfl hw hd rfl ha ((eventRead_runOp r _).trans
      (eventReadOp_reads hn hf format severity fits hk hs he)) ?_
    rw [he]
    exact recordsBad_spares _ _

end Sys2Proof.Machine
end

section
/-! PROOFS. The staging set and its commit (02 R62 to R66). -/

namespace Sys2Proof.Machine

open Sys2Proof

/-! ### PARAM_STAGE (R62, R63, R65) -/

/-- The configuration with the values l in the staged set, each with its mark for the mirror. -/
def CfgSt.withStaged (l : List (Nat × Word)) (c : CfgSt) : CfgSt :=
  { c with
    staged := l.foldl (fun m x => Bits.insert x.1 x.2 m) c.staged,
    marks := l.foldl (fun m x => Bits.putBy (fun y => y.key == x.1) { key := x.1, value := some x.2 } m) c.marks }

/-- Values staged one after the other change the set and its marks alone. -/
theorem foldl_stageOne (l : List (Nat × Word)) (d : Dev) :
    l.foldl (fun (y : Dev) (x : Nat × Word) => y.stageOne x.1 x.2) d = { d with cfg := d.cfg.withStaged l } := by
  induction l generalizing d with
  | nil => rfl
  | cons x l ih => exact ih (d.stageOne x.1 x.2)

theorem paramStage_runOp (r : Req) (b : Dev) : b.runOp (0x11 : Byte).toNat r = b.paramStageOp r := by
  simp [Dev.runOp, zeroTargetOps]

/-- Values that all pass enter the set, reserved positions left out. -/
theorem paramStageOp_stages {b : Dev} {r : Req} {a : FieldAddr} {vs : List Word} {l : List (Nat × Word)} (ha : a = fieldAddr r.target)
    (hv : vs = (Bits.upTo a.count).map (fun i => Bits.wordAt r.payload (4 * i)))
    (hl : l = ((addrKeys a).zip vs).filter (fun x => (Params.fieldOf (x.1 / 65536) (x.1 % 65536)).isSome))
    (free : b.stageConflict r.src = false) (exist : addrOk a = true) (pass : b.stageFail a.table a.first vs 0 = none) :
    b.paramStageOp r =
      done { b with cfg := { b.cfg.withStaged l with owner := some (ownerOf r.src), lastUse := b.time.now } } l.length := by
  subst ha hv hl
  rw [Dev.paramStageOp]
  dsimp only
  rw [if_neg (by rw [free]; decide), if_neg (by rw [exist]; decide), pass]
  dsimp only
  rw [foldl_stageOne]

/-! ### PARAM_DISCARD (R63) -/

theorem paramDiscard_runOp (r : Req) (b : Dev) : b.runOp (0x13 : Byte).toNat r = b.paramDiscardOp r := by
  simp [Dev.runOp, zeroTargetOps]

theorem paramDiscardOp_discards {b : Dev} {r : Req} {ks : List Nat}
    (hk : ks = (b.cfg.staged.map Prod.fst).filter (fun k => r.tgt == 0 || (addrKeys (fieldAddr r.target)).contains k))
    (free : b.stageConflict r.src = false) (named : r.tgt = 0 ∨ addrOk (fieldAddr r.target) = true) :
    b.paramDiscardOp r = done (b.unstage ks) ks.length := by
  have exist : ¬(r.tgt ≠ 0 ∧ (!addrOk (fieldAddr r.target)) = true) := by
    rintro ⟨part, missing⟩
    obtain all | ok := named
    · exact part all
    · rw [ok] at missing
      cases missing
  subst hk
  rw [Dev.paramDiscardOp]
  dsimp only
  rw [if_neg (by rw [free]; decide), if_neg exist]

theorem markStage_spares (k : Nat) (v : Option Word) (d : Dev) : d.Spares (d.markStage k v) := ⟨rfl, rfl, rfl, rfl, rfl, rfl⟩

/-- A discard changes the staged set, its marks and its owner; what is committed stands. -/
theorem unstage_spares (ks : List Nat) (d : Dev) : d.Spares (d.unstage ks) := by
  unfold Dev.unstage
  refine spares_trans (spares_foldl (fun x k => markStage_spares k none x) ks d) ?_
  exact ⟨rfl, rfl, rfl, rfl, rfl, rfl⟩

/-! ### PARAM_COMMIT (R63, R66) -/

theorem paramCommit_runOp (r : Req) (b : Dev) : b.runOp (0x12 : Byte).toNat r = b.paramCommitOp r.tag r := by
  simp [Dev.runOp, zeroTargetOps]

/-- A commit that meets no conflict, for a frame near enough: it waits, unless there is nothing to commit. -/
theorem paramCommitOp_near {b : Dev} {r : Req} (free : b.stageConflict r.src = false)
    (near : r.nextTick = true ∨ Bits.diff32 r.tgt b.frame.number ≤ 3000) (tag : BitVec 6) : b.paramCommitOp tag r =
    if b.cfg.staged.isEmpty then done b
    else deferred { b with
      cfg := { b.cfg with
        commit := some { tag := tag, frame := r.tgt, next := r.nextTick, expect := BitVec.ofNat 64 (Bits.at' r.payload 0 8) } } }
      none := by
  have inTime : ¬(!r.nextTick && decide (3000 < Bits.diff32 r.tgt b.frame.number)) = true := by
    obtain next | frame := near
    · simp [next]
    · simp [Int.not_lt.2 frame]
  rw [Dev.paramCommitOp, if_neg (by rw [free]; decide), if_neg inTime]

/-- Settles O8: what each operation makes of the set, and that it spares what its reply needs. -/
theorem stagingAndCommitKeepTheirRules : Obligations.StagingAndCommitKeepTheirRules := by
  unfold Obligations.StagingAndCommitKeepTheirRules
  refine ⟨fun s t r d hd hw => ⟨fun b l hb hl ha free exist pass => ?_, fun b ks hb hk ha free named => ?_⟩,
    fun s t r d b hd hb hw ha free near => ⟨fun filled => ?_, fun empty => ?_⟩⟩
  · have run := (paramStage_runOp r b).trans (paramStageOp_stages rfl rfl hl free exist pass)
    exact served_of_run (i := .paramStage t r) rfl hw hd hb ha _ run rfl rfl rfl rfl rfl
  · have run := (paramDiscard_runOp r b).trans (paramDiscardOp_discards hk free named)
    exact served_of_spares (i := .paramDiscard t r) rfl hw hd hb ha run (unstage_spares ks b)
  · have run := (paramCommit_runOp r b).trans ((paramCommitOp_near free near r.tag).trans (if_neg (by simpa using filled)))
    exact accepted_of_run (i := .paramCommit t r) rfl hw hd hb ha _ none run rfl rfl rfl rfl rfl
  · have run := (paramCommit_runOp r b).trans ((paramCommitOp_near free near r.tag).trans (if_pos (by simpa using empty)))
    exact served_of_spares (i := .paramCommit t r) rfl hw hd hb ha run (spares_refl b)

end Sys2Proof.Machine
end

section
/-! PROOFS. Requests that fan out over CAN controllers and launch queues (02 R75, 11 R325, R343, 12 R364, R370). -/

namespace Sys2Proof.Machine

open Sys2Proof

/-! ### Events leave the queues of the fan-outs alone -/

theorem foldl_q_ne {β : Type} {f : Dev → β → Dev} {k : Nat} (h : ∀ (x : Dev) b, (f x b).q k = x.q k) (l : List β) (d : Dev) :
    (l.foldl f d).q k = d.q k := by
  induction l generalizing d with
  | nil => rfl
  | cons b l ih => exact (ih _).trans (h d b)

section
variable {k : Nat} (front : k ≠ 2) (faults : k ≠ 3)

include front in
theorem frontPush_q_ne (r : Rec) (d : Dev) : (d.frontPush r).1.q k = d.q k := by
  have pushed := qPush_q_ne front d
  unfold Dev.frontPush
  dsimp only
  split <;> exact pushed

include front in
theorem locketTake_q_ne (r : Rec) (d : Dev) : (d.locketTake r).1.q k = d.q k := by
  unfold Dev.locketTake
  dsimp only
  split
  · rfl
  split
  · split
    · rfl
    split
    · exact frontPush_q_ne front r d
    · rfl
  · split
    · rfl
    · exact frontPush_q_ne front r (d.setBucket r.code _)

include faults in
theorem faultTake_q_ne (code source sev : Nat) (d : Dev) : (d.faultTake code source sev).1.q k = d.q k := by
  have pushed := qPush_q_ne faults d
  unfold Dev.faultTake
  dsimp only
  split
  · rfl
  split
  · rfl
  split <;> exact pushed

include front faults

/-- An event below CRITICAL moves the pointers of the front queue and of the fault queue alone. -/
theorem raiseN_q_ne (fuel kind code : Nat) {sev : Nat} (h : sev ≠ 4) (inst : Nat) (data : List Byte) (d : Dev) :
    (d.raiseN fuel kind code sev inst data).q k = d.q k := by
  induction fuel generalizing kind code sev inst data d with
  | zero => rfl
  | succ fuel ih =>
    have events (x : Dev) (e : Nat × Nat) := ih 0 e.1 (queueEventSev_ne_critical e.1) e.2 (Bits.le 1 e.2) x
    rw [Dev.raiseN.eq_def]
    dsimp only
    rw [if_neg (by simp [h])]
    exact (foldl_q_ne events _ _).trans ((faultTake_q_ne faults _ _ _ _).trans (locketTake_q_ne front _ _))

theorem raiseQ_q_ne (ev : List (Nat × Nat)) (d : Dev) : (d.raiseQ ev).q k = d.q k :=
  foldl_q_ne (f := fun x (e : Nat × Nat) => x.raiseI e.1 (queueEventSev e.1) e.2 (Bits.le 1 e.2))
    (fun x e => raiseN_q_ne front faults 4 0 e.1 (queueEventSev_ne_critical e.1) e.2 (Bits.le 1 e.2) x) ev d

end

theorem raiseQ_spares (ev : List (Nat × Nat)) (d : Dev) : d.Spares (d.raiseQ ev) :=
  spares_foldl (f := fun x (e : Nat × Nat) => x.raiseI e.1 (queueEventSev e.1) e.2 (Bits.le 1 e.2))
    (fun x e => raiseI_spares e.1 (queueEventSev_ne_critical e.1) e.2 (Bits.le 1 e.2) x) ev d

/-! ### What a fan-out must spare for ACCEPTED to leave at once -/

/-- As Spares; but of the network the ports alone need stand, which carry UDP. -/
structure Dev.SparesPorts (d e : Dev) : Prop where
  spares : d.Spares { e with net := d.net }
  ports : e.net.ports = d.net.ports

theorem sparesPorts_of_spares {d e : Dev} (h : d.Spares e) : d.SparesPorts e :=
  ⟨⟨h.cmd, h.replies, h.committed, rfl, h.hw, h.activating⟩, by rw [h.net]⟩

theorem sparesPorts_trans {a b c : Dev} (h : a.SparesPorts b) (k : b.SparesPorts c) : a.SparesPorts c := by
  obtain ⟨ab, abPorts⟩ := h
  obtain ⟨bc, bcPorts⟩ := k
  exact ⟨⟨bc.cmd.trans (congrArg (fun x : CmdSt => { x with queues := c.cmd.queues }) ab.cmd), bc.replies.trans ab.replies,
    bc.committed.trans ab.committed, rfl, bc.hw.trans ab.hw, bc.activating.trans ab.activating⟩, bcPorts.trans abPorts⟩

/-- Of the network, a transport depends on the ports. -/
theorem transportDown_ports {n : NetSt} {e : Dev} (h : e.net.ports = n.ports) (tr : Transport) :
    ({ e with net := n } : Dev).transportDown tr = e.transportDown tr := by
  cases tr with
  | pcie => rfl
  | spi => rfl
  | udp =>
    simp only [Dev.transportDown, Dev.udpUp, h]
    rfl

theorem carries_of_sparesPorts {op : Byte} {r : Req} {u : List Resource} {b e : Dev} (h : Carries op r u b) (hs : b.SparesPorts e) :
    Carries op r u e := by
  have k := carries_of_spares h hs.spares
  exact ⟨k.tags, k.held, k.replyQ, k.agree, k.empty, (transportDown_ports hs.ports _).symm.trans k.up⟩

/-- A fan-out with a member still open, whose members spare what its reply needs. -/
theorem fan_of_sparesPorts {i : Instr} {op : Byte} {r : Req} {s : State} {t : Nat} {d b e : Dev}
    (h : exec i s = State.act i t (Dev.requestIn op r) s) (hw : i.wf = true) (hd : d = s.dev.reach t) (hb : b = d.begun op r)
    (ha : d.admits op r = true) {kind : Nat} {ms : List (Nat × Option Half)} {limit : Nat}
    (hx : b.runOp op.toNat r = { dev := e, ans := .fan kind ms (some limit) }) (hm : ms.all (fun m => m.2.isSome) = false)
    (hs : b.SparesPorts e) :
    Accepted i s op r {
      op := op, req := r, started := true, accepted := true, resources := d.resourcesOf op.toNat r, members := ms,
      deadline := some (e.time.now + limit) } e := by
  subst hb
  obtain ⟨idle, receives⟩ := admits_idle ha
  have stays : Dev.takeAnswer { op := op, req := r } { dev := e, ans := .fan kind ms (some limit) } =
      e.accept { op := op, req := r } (fun y => { y with members := ms }) (some limit) := by
    simp only [Dev.takeAnswer, hm]
    rfl
  exact accepted_of i op r s t h hw d hd ha { dev := e, ans := .fan kind ms (some limit) } hx.symm _
    (fun y => { y with members := ms }) (some limit) stays ⟨rfl, rfl⟩
    (carries_of_sparesPorts (begun_carries op r d idle receives) hs) (hs.spares.activating.trans (begun_act op r d idle))

/-! ### Writes to the send and launch queues -/

theorem setQ_spares {id : Nat} (h : 4 ≤ id) {c : QCtl} (hc : c ≠ {}) (d : Dev) : d.Spares (d.setQ id c) :=
  ⟨rfl, setQ_ne d id 1 c hc (by omega), rfl, rfl, rfl, rfl⟩

theorem dropContents_sparesPorts {id : Nat} (h : 4 ≤ id) (d : Dev) : d.SparesPorts (d.dropContents id) := by
  unfold Dev.dropContents
  rw [if_neg (by omega), if_neg (by omega), if_neg (by omega), if_neg (by omega)]
  (repeat' split) <;> exact ⟨⟨rfl, rfl, rfl, rfl, rfl, rfl⟩, rfl⟩

theorem qCheck_sparesPorts {id : Nat} (h : 4 ≤ id) (d : Dev) : d.SparesPorts (d.qCheck id).1 := by
  unfold Dev.qCheck
  split
  · exact sparesPorts_of_spares (spares_refl d)
  · exact sparesPorts_trans (dropContents_sparesPorts h d) (sparesPorts_of_spares (setQ_spares h (by simp) _))

theorem qPush_sparesPorts {id : Nat} (h : 4 ≤ id) (d : Dev) : d.SparesPorts (d.qPush id).2.1 := by
  unfold Dev.qPush
  dsimp only
  split <;> exact sparesPorts_trans (qCheck_sparesPorts h d) (sparesPorts_of_spares (setQ_spares h (by simp) _))

/-! ### CAN_SEND (R75, R370) -/

/-- Something has been written to a queue whose pointers agree, so that its word is not that of an untouched queue. -/
def Dev.written (id : Nat) (d : Dev) : Prop := (d.q id).agree = true ∧ (d.q id).wr ≠ 0

theorem qCheck_agrees (id : Nat) (d : Dev) : ((d.qCheck id).1.q id).agree = true := by
  unfold Dev.qCheck
  split
  · assumption
  · rw [setQ_q _ _ _ (by simp)]
    rfl

theorem qPush_written {id : Nat} {d : Dev} (h : (d.qPush id).1 = true) : (d.qPush id).2.1.written id := by
  have agree := qCheck_agrees id d
  unfold Dev.qPush at h ⊢
  dsimp only at h ⊢
  split at h
  · cases h
  · next room =>
    rw [if_neg room, Dev.written, setQ_q _ _ _ (by simp)]
    simp only [QCtl.agree, Bool.and_eq_true, beq_iff_eq] at agree ⊢
    exact ⟨⟨agree.1, trivial⟩, Nat.succ_ne_zero _⟩

/-- A read of a queue that has been written spares the reply queue, and the queue has been written still. -/
theorem qRead_written {id : Nat} (hi : 4 ≤ id) {d : Dev} (h : d.written id) (n : Nat) :
    d.Spares (d.qRead id n).1 ∧ (d.qRead id n).1.written id := by
  obtain ⟨agree, wr⟩ := h
  rw [qRead_ok id n d agree]
  generalize hc : QCtl.mk _ _ _ _ _ _ _ _ = c
  have kept : c.agree = true ∧ c.wr ≠ 0 := by
    subst hc
    simp only [QCtl.agree, Bool.and_eq_true, beq_iff_eq] at agree ⊢
    exact ⟨⟨trivial, agree.2⟩, wr⟩
  have used : c ≠ {} := fun h => kept.2 (by rw [h])
  refine ⟨setQ_spares hi used d, ?_⟩
  rw [Dev.written, setQ_q d id c used]
  exact kept

/-- The buffers of a controller whose send queue has been written are filled from it. -/
theorem canFillN_spares (fuel c : Nat) {d : Dev} (h : d.written (4 + c)) : d.Spares (Dev.canFillN fuel c d) := by
  induction fuel generalizing d with
  | zero => exact spares_refl d
  | succ fuel ih =>
    have read := qRead_written (Nat.le_add_right 4 c) h 1
    unfold Dev.canFillN
    dsimp only
    split
    · split
      · exact spares_trans read.1 (raiseQ_spares _ _)
      · refine spares_trans read.1 (spares_trans ?_ (ih ?_))
        · exact spares_of_eq rfl rfl rfl rfl rfl
        · exact read.2
    · exact spares_refl d

theorem canFill_spares (c : Nat) {d : Dev} (h : d.written (4 + c)) : d.Spares (d.canFill c) :=
  spares_ite (spares_refl d) (canFillN_spares 8 c h)

theorem canSendMember_sparesPorts (e : CanTx) (x : Dev × List (Nat × Option Half)) (c : Nat) :
    x.1.SparesPorts (Dev.canSendMember e x c).1 := by
  have pushed := sparesPorts_trans (qPush_sparesPorts (Nat.le_add_right 4 c) x.1)
    (sparesPorts_of_spares (raiseQ_spares (x.1.qPush (4 + c)).2.2 _))
  unfold Dev.canSendMember
  dsimp only
  split
  · exact sparesPorts_of_spares (spares_refl _)
  split
  · exact sparesPorts_of_spares (spares_refl _)
  split
  · next ok =>
    have written : ((x.1.qPush (4 + c)).2.1.raiseQ (x.1.qPush (4 + c)).2.2).written (4 + c) := by
      rw [Dev.written, raiseQ_q_ne (by omega) (by omega)]
      exact qPush_written ok
    refine sparesPorts_trans pushed (sparesPorts_of_spares (spares_trans ?_ (canFill_spares c ?_)))
    · exact spares_of_eq rfl rfl rfl rfl rfl
    · exact written
  · exact pushed

/-- Members taken one after the other spare what each of them spares. -/
theorem foldl_sparesPorts {α β : Type} {f : Dev × α → β → Dev × α} (h : ∀ (x : Dev × α) b, x.1.SparesPorts (f x b).1) (l : List β)
    (x : Dev × α) :
    x.1.SparesPorts (l.foldl f x).1 := by
  induction l generalizing x with
  | nil => exact sparesPorts_of_spares (spares_refl _)
  | cons b l ih => exact sparesPorts_trans (h x b) (ih _)

theorem canSend_runOp (r : Req) (b : Dev) : b.runOp (0x68 : Byte).toNat r = b.canSendOp r.tag r := by
  simp [Dev.runOp, zeroTargetOps]

/-- A frame of a legal format and length goes to each controller of the mask. -/
theorem canSendOp_fans {b : Dev} {r : Req} {l : Nat} {fd : Bool} {w : Word} (hw : w = Bits.wordAt r.payload 0)
    (hl : l = Bits.byteAt r.payload 4) (hf : fd = w.getLsbD 30) (length : canLenOk fd l = true)
    (rate : fd = true ∨ w.getLsbD 31 = false) (ident : w.getLsbD 29 = true ∨ w.toNat % 2 ^ 29 < 2048)
    (retry : Bits.byteAt r.payload 5 ≤ 15) (reserved : Bits.at' r.payload 6 2 = 0) (named : 0 < r.tgt) (mask : r.tgt ≤ 255)
    (whole : r.len = 8 + (l + 3) / 4 * 4) {tag : BitVec 6} {x : Dev × List (Nat × Option Half)}
    (hx : x = (Bits.maskBits 8 r.tgt).foldl
      (Dev.canSendMember { idw := w, data := (r.payload.drop 8).take l, retry := Bits.byteAt r.payload 5, tag := tag }) (b, [])) :
    b.canSendOp tag r = { dev := x.1, ans := .fan 1 x.2 (some 1000000000) } := by
  have noFastClassic : (!fd && w.getLsbD 31) = false := by
    obtain h | h := rate
    · rw [h]
      rfl
    · rw [h, Bool.and_false]
  have narrow : (!w.getLsbD 29 && decide (2048 ≤ w.toNat % 2 ^ 29)) = false := by
    obtain h | h := ident
    · simp [h]
    · rw [decide_eq_false (Nat.not_le.2 h), Bool.and_false]
  subst hw hl hf hx
  rw [Dev.canSendOp]
  dsimp only
  rw [length, noFastClassic, narrow, decide_eq_false (Nat.not_lt.2 retry), reserved, decide_eq_false (Nat.not_lt.2 mask),
    decide_eq_false (Nat.ne_of_gt named), whole]
  simp

/-! ### FRAME_LAUNCH (R75, R343) -/

theorem launchMember_sparesPorts (f : List Byte) (dl : Int) (due : Nat) (tag : BitVec 6) (x : Dev × List (Nat × Option Half)) (q : Nat) :
    x.1.SparesPorts (Dev.launchMember f dl due tag x q).1 := by
  have pushed := qPush_sparesPorts (show 4 ≤ 0x14 + q by omega) x.1
  unfold Dev.launchMember
  dsimp only
  split
  · exact sparesPorts_of_spares (spares_refl _)
  split
  · exact ⟨⟨rfl, rfl, rfl, rfl, rfl, rfl⟩, rfl⟩
  · unfold Dev.launchPush
    dsimp only
    refine sparesPorts_trans ?_ (sparesPorts_of_spares (raiseQ_spares _ _))
    split
    · exact sparesPorts_trans pushed ⟨⟨rfl, rfl, rfl, rfl, rfl, rfl⟩, rfl⟩
    · exact pushed

theorem frameLaunch_runOp (r : Req) (b : Dev) : b.runOp (0x62 : Byte).toNat r = b.frameLaunchOp r.tag r := by
  simp [Dev.runOp, zeroTargetOps]

/-- A frame of a legal length goes to each queue of the mask. -/
theorem frameLaunchOp_fans {b : Dev} {r : Req} {dl : Int} {l : Nat} (hdl : dl = Bits.shortDiff (Bits.wordAt r.payload 0) b.short)
    (hl : l = Bits.at' r.payload 4 2) (named : 0 < r.tgt) (mask : r.tgt ≤ 255) (least : 60 ≤ l) (most : l ≤ 1514)
    (reserved : Bits.at' r.payload 6 2 = 0) (whole : r.len = 8 + (l + 3) / 4 * 4) {tag : BitVec 6}
    {x : Dev × List (Nat × Option Half)}
    (hx : x = (Bits.maskBits 8 r.tgt).foldl
      (Dev.launchMember ((r.payload.drop 8).take l) dl ((b.dev : Int) + dl).toNat tag) (b, [])) :
    b.frameLaunchOp tag r = { dev := x.1, ans := .fan 2 x.2 (some (dl.toNat + 10000000)) } := by
  subst hdl hl hx
  rw [Dev.frameLaunchOp]
  dsimp only
  rw [decide_eq_false (Nat.ne_of_gt named), decide_eq_false (Nat.not_lt.2 mask), decide_eq_false (Nat.not_lt.2 least),
    decide_eq_false (Nat.not_lt.2 most), reserved, whole]
  simp

/-! ### CAN_RECOVER (R364) -/

theorem canRecover_runOp (r : Req) (b : Dev) : b.runOp (0x6A : Byte).toNat r = b.canRecoverOp r.tag r := by
  simp [Dev.runOp, zeroTargetOps]

theorem canRecoverOp_starts {b : Dev} {r : Req} (tag : BitVec 6) (h : r.tgt ≤ 7) (off : (b.ctrl r.tgt).err = .busOff) :
    b.canRecoverOp tag r =
      deferred (b.modCtrl r.tgt (fun k => { k with err := .recovering, recover := some tag })) (some 5000000000) := by
  rw [Dev.canRecoverOp, if_neg (Nat.not_lt.2 h)]
  dsimp only
  rw [off, if_neg (by decide), if_pos rfl]

theorem canRecoverOp_on {b : Dev} {r : Req} (tag : BitVec 6) (h : r.tgt ≤ 7) (on : (b.ctrl r.tgt).err ≠ .busOff)
    (free : (b.ctrl r.tgt).err ≠ .recovering) : b.canRecoverOp tag r = done b := by
  rw [Dev.canRecoverOp, if_neg (Nat.not_lt.2 h)]
  dsimp only
  rw [if_neg free, if_neg on]

/-! ### One member (R75, R325, R343, R370) -/

/-- A controller that is in use and on queues a frame that it may send and whose identifier is no thruster's of its own. -/
theorem canSendMember_queues {x : Dev} {ms : List (Nat × Option Half)} {c : Nat} {e : CanTx}
    (own : ∀ j, j < 24 → (x.thrCtrls j).contains c = true →
      (x.par 0x24 (0x401 + 4 * j) &&& 0x3FFFFFFF#32) ≠ (e.idw &&& 0x3FFFFFFF#32))
    (format : e.idw.getLsbD 30 = false ∨ x.canPar c 1 ≠ 0#32) (on : (x.ctrl c).off = false) (used : x.canMode c ≠ 0)
    (agree : (x.q (4 + c)).agree = true) (room : (x.q (4 + c)).held < queueDepth (4 + c)) :
    Dev.canSendMember e (x, ms) c =
      (((x.qPush (4 + c)).2.1.modCtrl c (fun k => { k with txq := k.txq ++ [e] })).canFill c, ms ++ [(c, none)]) := by
  have clash : (Bits.upTo 24).any (fun j => (x.thrCtrls j).contains c &&
      (x.par 0x24 (0x401 + 4 * j) &&& 0x3FFFFFFF#32) == (e.idw &&& 0x3FFFFFFF#32)) = false := by
    refine List.any_eq_false.2 (fun j hj => ?_)
    rw [Bool.and_eq_true, beq_iff_eq]
    exact fun h => own j (List.mem_range.1 hj) h.1 h.2
  have sendable : (e.idw.getLsbD 30 && x.canPar c 1 == 0#32) = false := by
    obtain h | h := format
    · rw [h, Bool.false_and]
    · rw [beq_false_of_ne h, Bool.and_false]
  have pushed := qPush_ok (4 + c) x agree room
  rw [Dev.canSendMember]
  dsimp only
  rw [clash, sendable, on, decide_eq_false used, pushed]
  rfl

/-- A launch queue takes a frame due in 20 us to 2 s. -/
theorem launchMember_queues {x : Dev} {ms : List (Nat × Option Half)} {f : List Byte} {q due : Nat} {dl : Int} {tag : BitVec 6}
    (least : 20000 ≤ dl) (most : dl ≤ 2000000000) (agree : (x.q (0x14 + q)).agree = true)
    (room : (x.q (0x14 + q)).held < queueDepth (0x14 + q)) :
    Dev.launchMember f dl due tag (x, ms) q = ({ (x.qPush (0x14 + q)).2.1 with
      net := { x.net with
        launch := Bits.modAt x.net.launch q (launchInsert { frame := f, due := due, port := x.parN 0x20 (0x50 + q), tag := some tag }) } },
      ms ++ [(q, none)]) := by
  have pushed := qPush_ok (0x14 + q) x agree room
  rw [Dev.launchMember]
  dsimp only
  rw [if_neg (Int.not_lt.2 most), if_neg (Int.not_lt.2 least), Dev.launchPush, pushed]
  rfl

/-- Settles O12: each fan-out's members spare what its reply needs (`fan_of_sparesPorts`); one member by its own lemma. -/
theorem fanOutsAreAcceptedByTheirMembers : Obligations.FanOutsAreAcceptedByTheirMembers := by
  unfold Obligations.FanOutsAreAcceptedByTheirMembers
  refine ⟨fun s t r d hd hw => ⟨fun b l f hb hl hf ha length rate ident retry reserved named mask whole x hx hm => ?_,
    fun b dl l hb hdl hl ha named mask least most reserved whole x hx hm => ?_, fun b hb ha h => ⟨fun off => ?_, fun on free => ?_⟩⟩,
    fun x ms c e own format on used agree room => canSendMember_queues own format on used agree room,
    fun x ms f q due dl tag least most agree room => launchMember_queues least most agree room,
    fun x ms f q due dl tag => ⟨fun far => if_pos far, fun near => ?_⟩⟩
  · have run := (canSend_runOp r b).trans
      (canSendOp_fans rfl hl hf length rate ident retry reserved named mask whole hx)
    refine fan_of_sparesPorts (i := .canSend t r) rfl hw hd hb ha run hm ?_
    rw [hx]
    exact foldl_sparesPorts (canSendMember_sparesPorts _) _ (b, [])
  · have run := (frameLaunch_runOp r b).trans (frameLaunchOp_fans hdl hl named mask least most reserved whole hx)
    refine fan_of_sparesPorts (i := .frameLaunch t r) rfl hw hd hb ha run hm ?_
    rw [hx]
    exact foldl_sparesPorts (launchMember_sparesPorts _ _ _ _) _ (b, [])
  · have run := (canRecover_runOp r b).trans (canRecoverOp_starts r.tag h off)
    exact accepted_of_run (i := .canRecover t r) rfl hw hd hb ha _ (some 5000000000) run rfl rfl rfl rfl rfl
  · have run := (canRecover_runOp r b).trans (canRecoverOp_on r.tag h on free)
    exact served_of_spares (i := .canRecover t r) rfl hw hd hb ha run (spares_refl b)
  · exact (if_neg (by omega)).trans (if_pos near)

end Sys2Proof.Machine
end

section
/-! PROOFS. The SPI link, UDP datagrams and the registers of BAR0 (02 R51 to R55, R64, 18 R519). -/

namespace Sys2Proof.Machine

open Sys2Proof

/-! ### SPI (R53, R54) -/

section
variable {d : Dev} (up : d.spiUp = true)
include up

/-- A whole packet, once the module serves requests, goes through the checks. -/
theorem spiWrite_whole {bs : List Byte} (served : d.spiServed = true) (head : 16 ≤ bs.length)
    (whole : (packetOf bs).size ≤ bs.length) :
    d.spiWrite bs = ((d.emit (.spi [d.spiStatusByte])).setAborted false).packetIn { tr := .spi } none (packetOf bs) := by
  have serves : (d.emit (.spi [d.spiStatusByte])).spiServed = true := served
  rw [Dev.spiWrite, if_neg (by rw [up]; decide)]
  dsimp only
  rw [serves, decide_eq_false (Nat.not_lt.2 head), decide_eq_false (Nat.not_lt.2 whole)]
  rfl

/-- A packet that is cut short, or comes too early, sets the aborted bit alone. -/
theorem spiWrite_aborted {bs : List Byte}
    (short : d.spiServed = false ∨ bs.length < 16 ∨ bs.length < (packetOf bs).size) :
    d.spiWrite bs = (d.emit (.spi [d.spiStatusByte])).setAborted true := by
  have aborts : (!d.spiServed || decide (bs.length < 16) || decide (bs.length < (packetOf bs).size)) = true := by
    obtain early | head | whole := short
    · rw [early]
      rfl
    · rw [decide_eq_true head, Bool.or_true, Bool.true_or]
    · rw [decide_eq_true whole, Bool.or_true]
  rw [Dev.spiWrite, if_neg (by rw [up]; decide)]
  exact if_pos aborts

theorem spiRead_none {n : Nat} (h : 1 ≤ n) (empty : d.spiReplies = []) :
    d.spiRead n = (d.setAborted false).emit (.spi [d.spiStatusByte, 0xFF]) := by
  have cleared : (d.setAborted false).spiReplies = [] := empty
  have line : ([0xFF] : List Byte).take n = [0xFF] := List.take_of_length_le h
  rw [Dev.spiRead, if_neg (by rw [up]; decide)]
  simp only [empty, List.isEmpty_nil, if_true, Dev.raiseQ, List.foldl_nil, cleared, line]

section
variable {r : Reply} {rs : List Reply} (first : d.spiReplies = r :: rs) (agree : (d.q 1).agree = true)
include first agree

/-- A READ answers the status byte and as much of the oldest reply as is clocked; one cut short leaves the reply. -/
theorem spiRead_some (n : Nat) : d.spiRead n =
    if n < r.bytes.length then (d.setAborted false).emit (.spi (d.spiStatusByte :: r.bytes.take n))
    else
      let x := (((d.setAborted false).emit (.spi (d.spiStatusByte :: r.bytes.take n))).qRead 1 1).1
      { x with cmd := { x.cmd with replyQ := x.cmd.replyQ.erase r } } := by
  have cleared : (d.setAborted false).spiReplies = r :: rs := first
  have checked : d.qCheck 1 = (d, []) := if_pos agree
  have read : (((d.setAborted false).emit (.spi (d.spiStatusByte :: r.bytes.take n))).qRead 1 1).2 = [] := by
    rw [qRead_ok 1 1 ((d.setAborted false).emit (.spi (d.spiStatusByte :: r.bytes.take n))) agree]
  rw [Dev.spiRead, if_neg (by rw [up]; decide)]
  simp only [first, List.isEmpty_cons, Bool.false_eq_true, if_false, checked, Dev.raiseQ, List.foldl_nil, cleared, read]

theorem spiRead_short {n : Nat} (h : n < r.bytes.length) :
    d.spiRead n = (d.setAborted false).emit (.spi (d.spiStatusByte :: r.bytes.take n)) :=
  (spiRead_some up first agree n).trans (if_pos h)

theorem spiRead_full {n : Nat} (h : r.bytes.length ≤ n) {x : Dev}
    (hx : x = (((d.setAborted false).emit (.spi (d.spiStatusByte :: r.bytes))).qRead 1 1).1) :
    d.spiRead n = { x with cmd := { x.cmd with replyQ := x.cmd.replyQ.erase r } } := by
  rw [spiRead_some up first agree n, if_neg (Nat.not_lt.2 h), List.take_of_length_le h, hx]

end

theorem spiStat_counts : d.spiStat = (d.setAborted false).emit (.spi (d.spiStatusByte :: (Bits.le 1 d.spiReplies.length ++
    Bits.le 1 (64 - (d.q 0).held) ++ Bits.le 2 (match d.spiReplies with | r :: _ => Bits.at' r.bytes 4 4 | [] => 0)))) :=
  if_neg (by rw [up]; decide)

end

/-- Settles O23: a WRITE by what was received, a READ by what waits and how much of it was clocked, STAT as it is. -/
theorem spiServesPacketsAndReplies : Obligations.SpiServesPacketsAndReplies := by
  unfold Obligations.SpiServesPacketsAndReplies
  intro s t n bs d hd up hn hb
  have runs : d.runs = true := by
    simp only [Dev.spiUp, Bool.and_eq_true] at up
    exact up.1.1
  have write {e : Dev} (he : d.spiWrite bs = e) : exec (.spiWrite t bs) s = .next (s.left e) :=
    exec_whenPowered (i := .spiWrite t bs) rfl (decide_eq_true (List.length_pos_of_ne_nil hb)) hd runs he
  have read {e : Dev} (he : d.spiRead n = e) : exec (.spiRead t n) s = .next (s.left e) :=
    exec_whenPowered (i := .spiRead t n) rfl (decide_eq_true hn) hd runs he
  refine ⟨fun served head whole => write (spiWrite_whole up served head whole), fun short => write (spiWrite_aborted up (Or.inr short)),
    fun early => write (spiWrite_aborted up (Or.inl early)), fun empty => read (spiRead_none up hn empty),
    fun r rs first short agree x hx => ⟨read ?_, ?_⟩,
    fun r rs x first full agree hx => read (spiRead_full up first agree full hx),
    exec_whenPowered (f := Dev.spiStat) rfl rfl hd runs (spiStat_counts up)⟩
  · rw [hx]
    exact spiRead_short up first agree short
  · rw [hx]
    exact first

/-! ### UDP (R55) -/

/-- A datagram is for the module: its port, an interface in use, and a module that serves requests. -/
structure Dev.HearsUdp (d : Dev) (i : Nat) : Prop where
  runs : d.runs = true
  ready : d.life.ready = true
  enabled : d.parB 1 0x22 = true
  iface : i < 2
  used : (d.par 1 0x24).getLsbD i = true
  port : (d.net.ports.getD (2 + i) {}).enabled = true
  link : (d.net.ports.getD (2 + i) {}).link = true

theorem udpIn_otherPort {d : Dev} {dst : Nat} (h : dst ≠ d.parN 1 0x23) (ip port i : Nat) (bs : List Byte) :
    d.udpIn ip port i dst bs = d := by
  have other : (dst != d.parN 1 0x23) = true := bne_iff_ne.2 h
  exact if_pos (by rw [other, Bool.or_true])

/-- A datagram for the module: the length is judged first, then the address, then whether it repeats a request. -/
theorem udpIn_heard {d : Dev} {i : Nat} (h : d.HearsUdp i) (ip port : Nat) (bs : List Byte) :
    d.udpIn ip port i (d.parN 1 0x23) bs =
      if bs.length < 16 then d.transportError .udp 4 1
      else if !(d.hostListed ip) then d.transportError .udp 3 1
      else
        match (if (packetOf bs).crcOk then
          d.keptFor ip (packetOf bs).op (BitVec.ofNat 6 (packetOf bs).tagWord) (packetOf bs).hcrc (packetOf bs).pcrc else none) with
        | some k => d.emit (.udpReply ip port k.reply.bytes)
        | none => d.packetIn { tr := .udp, ip := ip, port := port }
            (if bs.length = (packetOf bs).size then none else some (packetOf bs).size) (packetOf bs) := by
  refine if_neg ?_
  rw [h.runs, h.ready, h.enabled, decide_eq_true h.iface, h.used, h.port, h.link, bne_self_eq_false]
  decide

/-- Settles O24: what a datagram for the module meets, in the order of `udpIn_heard`. -/
theorem udpAnswersListedHostsOnce : Obligations.UdpAnswersListedHostsOnce := by
  unfold Obligations.UdpAnswersListedHostsOnce
  intro s t ip port i bs d hd up hip hport hi hlen
  have runs : d.runs = true := (Bool.and_eq_true_iff.1 up).1
  have datagram {dst : Nat} (hdst : dst < 65536) {e : Dev} (he : d.udpIn ip port i dst bs = e) :
      exec (.udpDatagramReceived t ip port i dst bs) s = .next (s.left e) := by
    have wf : (Instr.udpDatagramReceived t ip port i dst bs).wf = true := by
      rw [Instr.wf, decide_eq_true hip, decide_eq_true hport, decide_eq_true hi, decide_eq_true hdst, decide_eq_true hlen]
      rfl
    exact exec_whenRuns rfl wf hd up he
  refine ⟨fun p hp ready enabled used portOn link port16 => ?_,
    fun dst hdst other => datagram hdst (udpIn_otherPort other ip port i bs),
    exec_whenRuns (f := Dev.keptExpiry) rfl rfl hd up rfl⟩
  subst hp
  have heard := udpIn_heard ⟨runs, ready, enabled, hi, used, portOn, link⟩ ip port bs
  refine ⟨fun short => datagram port16 ?_, fun head foreign => datagram port16 ?_, fun k head listed crc kept => datagram port16 ?_,
    fun head listed new => datagram port16 ?_⟩
  · rw [heard, if_pos short]
  · rw [heard, if_neg (Nat.not_lt.2 head), if_pos (by rw [foreign]; rfl)]
  · rw [heard, if_neg (Nat.not_lt.2 head), if_neg (by rw [listed]; decide), if_pos crc, kept]
  · rw [heard, if_neg (Nat.not_lt.2 head), if_neg (by rw [listed]; decide), new, ite_self]

/-! ### BAR0 (R51, R52, R64, R519) -/

theorem producerWrite_room {d : Dev} {v : Word} {slots : List (List Byte)} {p : Pcie} (hp : p = d.cmd.trans.pcie)
    (room : (v - p.cmdProducer).toNat ≤ 64 - p.slots.length) :
    d.producerWrite v slots = Dev.ringCheck (d.modPcie (fun x => { x with
      cmdProducer := v,
      slots := x.slots ++ (slots.take (v - p.cmdProducer).toNat ++ List.replicate ((v - p.cmdProducer).toNat - slots.length) []) })) := by
  subst hp
  rw [Dev.producerWrite, if_pos room]

theorem geometry_off {d : Dev} (h : d.cmd.trans.pcie.enable = false) (f : Pcie → Pcie) : d.geometry f = d.modPcie f :=
  if_neg (by rw [h]; decide)

theorem geometry_on {d : Dev} (h : d.cmd.trans.pcie.enable = true) (f : Pcie → Pcie) : d.geometry f = d := if_pos h

/-- The registers of the ring geometry (Table 2.5). -/
def geometryOffsets : List Nat := [0x010, 0x014, 0x018, 0x030, 0x034, 0x038]

theorem bar0Write_geometry {d : Dev} (h : d.cmd.trans.pcie.enable = true) {off : Nat} (ho : off ∈ geometryOffsets) (v : Word) :
    d.bar0Write off v = d := by
  simp only [geometryOffsets, List.mem_cons, List.not_mem_nil, or_false] at ho
  rcases ho with rfl | rfl | rfl | rfl | rfl | rfl <;> exact geometry_on h _

/-- An offset that no register takes writes at. -/
theorem bar0Write_other {off : Nat} (h : off ∉ [0x004, 0x010, 0x014, 0x018, 0x01C, 0x030, 0x034, 0x038, 0x040, 0x050, 0x054]) (v : Word)
    (d : Dev) : d.bar0Write off v = d := by
  simp only [List.mem_cons, List.not_mem_nil, or_false, not_or] at h
  simp [Dev.bar0Write, h]

/-! ### Rings whose producer has run ahead (R52) -/

theorem transportError_pcie (tr : Transport) (cause n : Nat) (d : Dev) :
    (d.transportError tr cause n).cmd.trans.pcie = d.cmd.trans.pcie := by
  have recorded (x : Dev) (data : List Byte) : (x.raise 0x0205 1 data).cmd.trans = x.cmd.trans := by
    have h := raise_recorded 0x0205 (sev := 1) (by decide) data x
    unfold Dev.recorded at h
    rw [h]
  unfold Dev.transportError
  dsimp only
  rw [recorded]

theorem irq_pcie (v : Nat) (d : Dev) :
    (d.irq v).cmd.trans.pcie = { d.cmd.trans.pcie with irqStatus := d.cmd.trans.pcie.irqStatus ||| BitVec.ofNat 3 (2 ^ v) } := by
  unfold Dev.irq
  dsimp only
  split <;> rfl

/-- A ring that fails gets its mark, and vector 2 its status bit. -/
theorem ringFails_pcie (f : Pcie → Pcie) (d : Dev) : (d.ringFails f).cmd.trans.pcie =
    { f d.cmd.trans.pcie with irqStatus := (f d.cmd.trans.pcie).irqStatus ||| BitVec.ofNat 3 (2 ^ 2) } := by
  rw [Dev.ringFails, irq_pcie, transportError_pcie]
  rfl

/-- The command ring has failed where its producer has run ahead. -/
def Dev.cmdRingCheck (d : Dev) : Dev :=
  if !d.cmd.trans.pcie.cmdError && ringOver d.cmd.trans.pcie.cmdSlots d.cmd.trans.pcie.cmdProducer d.cmd.trans.pcie.cmdConsumer
  then d.ringFails (fun x => { x with cmdError := true }) else d

/-- The reply ring has failed where its producer has run ahead. -/
def Dev.rplRingCheck (d : Dev) : Dev :=
  if !d.cmd.trans.pcie.rplError && ringOver d.cmd.trans.pcie.rplSlots d.cmd.trans.pcie.rplProducer d.cmd.trans.pcie.rplConsumer
  then d.ringFails (fun x => { x with rplError := true }) else d

theorem ringCheck_off {d : Dev} (h : d.cmd.trans.pcie.enable = false) : d.ringCheck = d := if_pos (by rw [h]; rfl)

/-- The check of the command ring leaves the reply ring as it is. -/
theorem cmdRingCheck_rpl (d : Dev) : d.cmdRingCheck.cmd.trans.pcie.rplError = d.cmd.trans.pcie.rplError ∧
    d.cmdRingCheck.cmd.trans.pcie.rplSlots = d.cmd.trans.pcie.rplSlots ∧
    d.cmdRingCheck.cmd.trans.pcie.rplProducer = d.cmd.trans.pcie.rplProducer ∧
    d.cmdRingCheck.cmd.trans.pcie.rplConsumer = d.cmd.trans.pcie.rplConsumer := by
  unfold Dev.cmdRingCheck
  split
  · rw [ringFails_pcie]
    exact ⟨rfl, rfl, rfl, rfl⟩
  · exact ⟨rfl, rfl, rfl, rfl⟩

/-- While the interface is on, both rings are checked. -/
theorem ringCheck_on {d : Dev} (h : d.cmd.trans.pcie.enable = true) : d.ringCheck = d.cmdRingCheck.rplRingCheck := by
  obtain ⟨error, slots, producer, consumer⟩ := cmdRingCheck_rpl d
  rw [Dev.rplRingCheck, error, slots, producer, consumer, Dev.ringCheck]
  exact if_neg (by rw [h]; decide)

theorem cmdRingCheck_fails {d : Dev}
    (ahead : ringOver d.cmd.trans.pcie.cmdSlots d.cmd.trans.pcie.cmdProducer d.cmd.trans.pcie.cmdConsumer = true) :
    d.cmdRingCheck.cmd.trans.pcie.cmdError = true := by
  rw [Dev.cmdRingCheck, ahead, Bool.and_true]
  split
  · rw [ringFails_pcie]
  · next failed => simpa using failed

theorem rplRingCheck_fails {d : Dev}
    (ahead : ringOver d.cmd.trans.pcie.rplSlots d.cmd.trans.pcie.rplProducer d.cmd.trans.pcie.rplConsumer = true) :
    d.rplRingCheck.cmd.trans.pcie.rplError = true := by
  rw [Dev.rplRingCheck, ahead, Bool.and_true]
  split
  · rw [ringFails_pcie]
  · next failed => simpa using failed

theorem rplRingCheck_cmdError (d : Dev) : d.rplRingCheck.cmd.trans.pcie.cmdError = d.cmd.trans.pcie.cmdError := by
  unfold Dev.rplRingCheck
  split
  · rw [ringFails_pcie]
  · rfl

theorem ringCheck_cmdFails {d : Dev} (h : d.cmd.trans.pcie.enable = true)
    (ahead : ringOver d.cmd.trans.pcie.cmdSlots d.cmd.trans.pcie.cmdProducer d.cmd.trans.pcie.cmdConsumer = true) :
    d.ringCheck.cmd.trans.pcie.cmdError = true := by
  rw [ringCheck_on h, rplRingCheck_cmdError, cmdRingCheck_fails ahead]

theorem ringCheck_rplFails {d : Dev} (h : d.cmd.trans.pcie.enable = true)
    (ahead : ringOver d.cmd.trans.pcie.rplSlots d.cmd.trans.pcie.rplProducer d.cmd.trans.pcie.rplConsumer = true) :
    d.ringCheck.cmd.trans.pcie.rplError = true := by
  obtain ⟨_, slots, producer, consumer⟩ := cmdRingCheck_rpl d
  rw [ringCheck_on h]
  refine rplRingCheck_fails ?_
  rw [slots, producer, consumer, ahead]

/-- Settles O25: each register by what a write to it does, the rings by the check that follows. -/
theorem pcieRegistersAct : Obligations.PcieRegistersAct := by
  unfold Obligations.PcieRegistersAct
  intro s t off v p d hd up hp
  have run {i : Instr} {f : Dev → Dev} (hi : exec i s = s.act i t (Dev.whenRuns f)) (hw : i.wf = true) {e : Dev} (he : f d = e) :
      exec i s = .next (s.left e) := exec_whenRuns hi hw hd up he
  have idle {x : Nat} (he : d.bar0Write x v = d) : exec (.registerWrite t x v) s = .next (s.left d) := by
    cases wf : (Instr.registerWrite t x v).wf with
    | true => exact run (f := Dev.bar0Write x v) rfl wf he
    | false =>
      rw [hd]
      exact act_illFormed wf t _ s
  refine ⟨fun slots hs hl room => run (f := Dev.producerWrite v slots) rfl ?_ (producerWrite_room hp room),
    run (f := Dev.consumerWrite v) rfl rfl rfl, run (f := Dev.ctrlEnable true) rfl rfl rfl,
    run (f := Dev.ctrlEnable false) rfl rfl rfl, run (f := Dev.resetRings) rfl rfl rfl, run (f := Dev.irqClear v) rfl rfl rfl,
    run (f := Dev.bar0Write 0x004 v) rfl rfl rfl, run (f := Dev.bar0Write 0x01C v) rfl rfl rfl,
    run (f := Dev.bar0Write 0x040 v) rfl rfl rfl, run (f := Dev.bar0Write 0x050 v) rfl rfl rfl,
    run (f := Dev.bar0Write 0x054 v) rfl rfl rfl, fun disabled => ?_, fun on ho => idle (bar0Write_geometry (hp ▸ on) ho v),
    fun ho => idle (bar0Write_other ho v d), fun m e he => ⟨fun disabled => ?_, fun on ahead => ?_, fun on ahead => ?_⟩,
    run (f := Dev.perst) rfl rfl rfl⟩
  · rw [Instr.wf, decide_eq_true hs, hl]
    rfl
  · have enable : d.cmd.trans.pcie.enable = false := hp ▸ disabled
    have write (x : Nat) (f : Pcie → Pcie) (hw : (Instr.registerWrite t x v).wf = true) (hx : d.bar0Write x v = d.geometry f) :
        exec (.registerWrite t x v) s = .next (s.left (d.modPcie f)) :=
      run (f := Dev.bar0Write x v) rfl hw (hx.trans (geometry_off enable f))
    exact ⟨write 0x010 _ rfl rfl, write 0x014 _ rfl rfl, write 0x018 _ rfl rfl, write 0x030 _ rfl rfl, write 0x034 _ rfl rfl,
      write 0x038 _ rfl rfl⟩
  · exact ringCheck_off (he.trans disabled)
  · exact ringCheck_cmdFails (he.trans on) ahead
  · exact ringCheck_rplFails (he.trans on) ahead

end Sys2Proof.Machine
end

section
/-! PROOFS. The commit of a pair: COMMIT and COMMIT_RESULT on the lanes (02 R71). -/

namespace Sys2Proof.Machine

open Sys2Proof

section
variable {d e : Dev} {bs p' : List Byte} {f g p n : Nat}

/-! ### COMMIT, on the unit not in control -/

/-- The answer to a COMMIT: what it names, the Hallmark that the staged copy would give, a status and its argument. -/
def Dev.commitAnswer (p' : List Byte) (mark : DWord) (st : Half) (k : Nat) (d : Dev) : Dev :=
  d.emit (.lane (laneMessage 5 d.frame.number 0 0 1
    (Bits.le 4 (Bits.at' p' 0 4) ++ Bits.le 8 mark.toNat ++ Bits.le 2 st.toNat ++ Bits.le 2 k)))

section
variable (hl : laneOf bs = some (4, f, g, p, n, p')) (new : (d.takeOnce 4 f).1 = true) (he : e = (d.takeOnce 4 f).2)
  (follows : e.clasp.role.inControl = false)
include hl new he follows

theorem commitReceived_good {w : DWord} (good : e.validate e.cfg.mirrored none (BitVec.ofNat 64 (Bits.at' p' 4 8)) = .good w) :
    d.commitReceived bs = Dev.commitAnswer p' (hallmarkOf (e.view e.cfg.mirrored)) stOk 0
      { e with cfg := { e.cfg with partnerCommit := some (Bits.at' p' 0 4) } } := by
  subst he
  simp only [Dev.commitReceived, hl, new, follows, good, Bool.not_true, Bool.or_self, Bool.false_eq_true, if_false]
  rfl

theorem commitReceived_bad {st : Half} {k : Nat} {w : List Byte}
    (bad : e.validate e.cfg.mirrored none (BitVec.ofNat 64 (Bits.at' p' 4 8)) = .bad st k w) :
    d.commitReceived bs = Dev.commitAnswer p' (hallmarkOf (e.view e.cfg.mirrored)) st k (e.commitFailed (Bits.at' p' 0 4)) := by
  subst he
  simp only [Dev.commitReceived, hl, new, follows, bad, Bool.not_true, Bool.or_self, Bool.false_eq_true, if_false]
  rfl

end

/-! ### COMMIT_RESULT, on the unit in control -/

/-- The first result for the next frame, where the commit waits for the partner's, is taken. -/
theorem commitResult_new {c : Commit} {st : Half} (hl : laneOf bs = some (5, f, g, p, n, p')) (new : (d.takeOnce 5 f).1 = true)
    (he : e = (d.takeOnce 5 f).2) (hc : e.cfg.commit = some c) (validated : c.validated = true) (paired : c.paired = true)
    (waits : c.partner = none) (frame : Bits.at' p' 0 4 = e.nextNo) (hst : st = BitVec.ofNat 16 (Bits.at' p' 12 2)) :
    d.commitResult bs = { e with
      cfg := { e.cfg with
        commit := some { c with partner := some (if st = stOk ∧ Bits.at' p' 4 8 ≠ c.newMark.toNat then stRange else st) } } } := by
  subst he hst
  simp only [Dev.commitResult, hl, hc]
  exact if_pos ⟨new, validated, paired, waits, frame⟩

theorem commitResult_again (hl : laneOf bs = some (5, f, g, p, n, p')) (again : (d.takeOnce 5 f).1 = false) :
    d.commitResult bs = d := by
  have same := takeOnce_again again
  simp only [Dev.commitResult, hl, same]
  split
  · exact if_neg (fun h => Bool.false_ne_true h.1)
  · rfl

end

/-- Settles O37: a COMMIT by its validation, a COMMIT_RESULT by whether it is new. -/
theorem partnersValidateCommits : Obligations.PartnersValidateCommits := by
  unfold Obligations.PartnersValidateCommits
  intro s t l bs p' f g p n d e hd up ready hl h4096
  have runs : d.runs = true := (Bool.and_eq_true_iff.1 up).1
  have wf : (decide (l < 2) && decide (bs.length ≤ 4096)) = true := by
    rw [decide_eq_true hl, decide_eq_true h4096]
    rfl
  have commit {x : Dev} (hx : d.commitReceived bs = x) : exec (.commitReceived t l bs) s = .next (s.left x) :=
    exec_whenReady (i := .commitReceived t l bs) rfl wf hd runs ready hx
  have result {x : Dev} (hx : d.commitResult bs = x) : exec (.commitResultReceived t l bs) s = .next (s.left x) :=
    exec_whenReady (i := .commitResultReceived t l bs) rfl wf hd runs ready hx
  refine ⟨fun lane new he follows => ⟨fun w good => commit (commitReceived_good lane new he follows good), fun st k w y bad hy => ?_⟩,
    fun c st lane new he hc validated paired waits frame hst =>
      result (commitResult_new lane new he hc validated paired waits frame hst),
    fun lane again => result (commitResult_again lane again)⟩
  subst hy
  exact commit (commitReceived_bad lane new he follows bad)

end Sys2Proof.Machine
end
